-- ==== Sys2Proof/Word.lean ====
section
/-! DEFINITION. The word types and sparse tables. -/

namespace Sys2Proof

/-- A register word (R4). -/
abbrev Word := BitVec 32

/-- One byte. -/
abbrev Byte := BitVec 8

/-- A string of bytes in the order the spec numbers them. -/
abbrev Bytes := List (BitVec 8)

/-- A sparse table: pairs of a key and a value, at most one pair per key. -/
abbrev Tab (κ α : Type) := List (κ × α)

end Sys2Proof
end

