-- ==== Sys2Proof/Config.lean ====
section
/-! DEFINITION. The free values: what the spec leaves open, and cryptographic functions that it names by their
standards. Each is an uninterpreted constant, so no statement can rest on a value of it. -/

namespace Sys2Proof.Config

/-- A fresh value of `w` bits: random numbers, nonces, and values that the spec leaves open (log 22). -/
opaque freeBits : (w : Nat) → Nat → BitVec w

/-- Byte `i` of the AES-256-GCM key stream of a key and IV (R261; log 23). -/
opaque gcmByte : Bytes → Bytes → Nat → BitVec 8

/-- The 128-bit GCM tag of key, IV, additional data and ciphertext (R264; log 23). -/
opaque gcmTag : Bytes → Bytes → Bytes → Bytes → BitVec 128

/-- SHA3-512 (R274, R520, R532; log 23). -/
opaque sha3x512 : Bytes → BitVec 512

/-- SHA3-256 (R274, R530; log 23). -/
opaque sha3x256 : Bytes → BitVec 256

/-- The first 256 bits of SHAKE256 (R275; log 23). -/
opaque shake256 : Bytes → BitVec 256

/-- ML-KEM-1024 encapsulation key of a key generation's random seed (R274; log 23). -/
opaque mlkemEk : Nat → BitVec 12544

/-- ML-KEM-1024 decapsulation key of the same seed. -/
opaque mlkemDk : Nat → BitVec 25344

/-- ML-KEM-1024 ciphertext for an encapsulation key and a random seed. -/
opaque mlkemCt : Bytes → Nat → BitVec 12544

/-- Shared secret of the same encapsulation. -/
opaque mlkemEncK : Bytes → Nat → BitVec 256

/-- Shared secret that a decapsulation key gives for a ciphertext. -/
opaque mlkemDecK : Bytes → Bytes → BitVec 256

/-- ML-DSA-87 public key of a key-generation seed (R530; log 23). -/
opaque mldsaPub : Bytes → BitVec 20736

/-- ML-DSA-87 signature by the key of a seed, over a message, with the randomness of a free value. -/
opaque mldsaSign : Bytes → Bytes → Nat → BitVec 37016

/-- Whether ML-DSA-87 verifies a signature of a message under a public key. -/
opaque mldsaVerify : Bytes → Bytes → Bytes → Bool

/-- The SHA3-512 of each Barralia public key, which the boot ROM holds (R521; log 70). -/
opaque romKeyHash : Nat → BitVec 512

/-- SHA3-512 of the boot ROM (R533; log 70). -/
opaque romMeas : BitVec 512

/-- Whether a debug token verifies over a message under the debug key whose hash the ROM holds (R536; log 70). -/
opaque dbgVerify : Bytes → Bytes → Bool

/-- The seed that the SRAM PUF gives with its helper data (R530; log 70). -/
opaque pufSeed : BitVec 256

/-- Whether the alignment detector takes a sum of correlations, over samples of an energy, for an alignment block (R135; log
54). -/
opaque alignHit : Int → Int → Bool

/-- Phase in turns, in units of 2⁻⁹⁶, that decisions on these symbols since the last pilot see it move by (R132; log 54). -/
opaque phaseFine : List (Int × Int) → Int

/-- The tabulated correction term of the max-log sums at a difference, in units of 2⁻⁹⁶ (R138; log 54). -/
opaque llrCorr : Nat → Int

/-- What the timing and frequency loops make of a symbol frame, with a bandwidth in Hz: change of the clock offset in ppb, of
the sampling phase in 2⁻³² samples, of the frequency in kHz (R121, R131; log 54). They take, of each subcarrier, X and Y of
the equaliser's outputs at known symbols times their conjugates, the half-symbol samples, and the taps. -/
opaque loopStep : (hz : Nat) → List (List ((Int × Int) × (Int × Int)) × List ((Int × Int) × (Int × Int)) ×
    List (List (Int × Int))) → Int × Int × Int

/-- Decision on block `i` of a window, each block as LLRs with its rate, oldest first, after the two blocks before it as
decoded with their rates, newest first, when a number of passes have run (R156, R164; log 55). -/
opaque fecSweep : List (BitVec 40320 × Nat) → List (List Int × Nat) → (passes i : Nat) → BitVec 40320

/-- Word `w` of Press filter set `set` as the management firmware ships it (R99; log 59). -/
opaque pressFilt : (set w : Nat) → BitVec 32

/-- Effective length in km times launch power in W of each of `n` equal segments, where no span table gives them (R102;
log 59), in units of 2⁻⁹⁶. -/
opaque segLoad : Nat → Int

/-- Field on X and Y of the Tack waveform that the canceller of a carrier regenerates, at a sample number of the receive core's
input: the measured amplitude, phase, frequency and timing are in no row (R347; log 57). -/
opaque tackRegen : (car sample : Nat) → (Int × Int) × (Int × Int)

/-- Byte `i` of 257 of a transcoded stream of Local Fault ordered sets, whose eight blocks of 257 bits repeat (R310, R323;
log 46). -/
opaque localFault : Nat → BitVec 8

/-- The same of a transcoded stream of error control blocks (R310, R436; log 46). -/
opaque errorBlock : Nat → BitVec 8

/-- Tap `i` of the 19-tap half-band and of the 63-tap FIR stage of the monitor's decimation, in units of 2⁻⁹⁶ (R405; log
47). -/
opaque monHb : Nat → Int
/-- See `monHb`. -/
opaque monFir : Nat → Int

/-- Starch progress of a region at a device time, in per cent (R460; log 73). -/
opaque rgnProgress : Nat → Nat → Fin 101

/-- What a performance counter with this configuration counts in the cycle at a device time, of a signal that no row shows
(R513; log 104). -/
opaque prfSeen : BitVec 32 → Nat → BitVec 8

end Sys2Proof.Config
end

