-- ==== Sys2Proof/Regs.lean ====
section
/-! DEFINITION. The names of the registers of the register tables of spec/ (chapters 01 to 21, R498 to R500), one
constructor each. `CAR_` registers exist once per carrier; the other prefixes are the blocks of R498. -/

namespace Sys2Proof.Machine

/-- A register of the register tables. Its addresses, fields and reset values are in `Machine/RegMap.lean`. -/
inductive RegId where
  | GLB_ID | GLB_DTIME_LO | GLB_DTIME_HI | GLB_DTIME_FRAC | GLB_COMMIT_STAT | GLB_TX_MFC_LO | GLB_TX_MFC_HI
  | GLB_PRESS_POOL | GLB_CAL_CTL | GLB_CAL_CMD | GLB_CAL_EVT | GLB_CAL_STAT | GLB_CAL_CNT | GLB_CAL_TIME_LO
  | GLB_CAL_TIME_HI | GLB_RST_STAT | GLB_RST_CMD | GLB_THERM_CTL | GLB_THERM_STAT | GLB_THERM_EVT
  | GLB_LIFE_LO | GLB_LIFE_HI | GLB_LIFE_CTL | GLB_TJ_MAX | HST_RING_CTL | HST_RING_STAT | HST_RING_BASE_LO
  | HST_RING_BASE_HI | HST_CPL_BASE_LO | HST_CPL_BASE_HI | HST_RING_ALIVE | HST_RING_CONS | HST_RING_HALT_CNT
  | HST_ARB | HST_EVT | HST_DB_BAD | HST_DB | EVT_EVR_CTL | EVT_EVR_BASE_LO | EVT_EVR_BASE_HI | EVT_EVR_HEAD
  | EVT_EVR_TAIL | EVT_EVR_SEQ | EVT_EVR_LOST | EVT_EVR_ROUTE0 | EVT_EVR_ROUTE1 | EVT_MSG_BASE_LO
  | EVT_MSG_BASE_HI | EVT_MSG_CTL | EVT_MSG_HEAD | EVT_MSG_TAIL | EVT_MSG_DROP | EVT_SUM | MEM_CTL | MEM_STAT
  | MEM_INJ | MEM_LAST | MEM_EVT | MEM_HOST_PSN | MEM_MEM_CE | MEM_MEM_UE_TR | MEM_MEM_UE_LAST | MEM_MEM_PSN
  | MEM_MEM_PATCH | CXL_PORT_CTL | CXL_PORT_STAT | CXL_PORT_DOWN | CXL_PORT_CE | CXL_PORT_UE | CXL_CTL
  | CXL_EVT | CXL_RGN_CTL | CXL_RGN_SIZE | CXL_RGN_STAT | CXL_RGN_PSN | STI_DIE_STAT | STI_DIE_EVT
  | STI_ERASED | STI_CLIP_LO | STI_CLIP_HI | STI_MOD_STAT | STI_MOD_CTL | STI_LANE_CTL | STI_LANE_STAT
  | STI_LANE_PRBS_ERR | STI_LANE_HDR_ERR | TIM_SLOT_CFG | TIM_SLOT_NOM | TIM_SLOT_LIM | TIM_SLOT_TIME
  | TIM_SLOT_STAT | TIM_SLOT_FREQ | TIM_SLOT_TS_LO | TIM_SLOT_TS_HI | TIM_SLOT_FAIL | TIM_CFG | TIM_EVT
  | TIM_ROOT_STAT | TIM_DPLL_CTL | TIM_DPLL_HO | TIM_DPLL_HO_VAL | TIM_DPLL_STAT | TIM_DPLL_FREQ
  | TIM_DPLL_HO_USED | TIM_DPLL_PHASE | TIM_DPLL_HIST_IDX | TIM_DPLL_SW | TIM_DPLL_HO_CNT | TIM_OUT_CTL
  | TIM_OUT_DIV | TIM_OUT_PHASE | TIM_OUT_OFS | TIM_OUT_CMD | TIM_DPLL_HIST | MON_CTL | MON_OW_THR | MON_STAT
  | MON_URGENT | MON_CAL_OFS | MON_CAL_GAIN | MON_EVT | MON_URG_CNT | MON_SCAN_CNT | MON_IN_CFG | MON_RES
  | MON_RES_TIME | MON_DCB_EST | MON_OVR_CNT | MON_BIAS_CTL | MON_BIAS_VAL | MON_BIAS_LIM | MON_BIAS_STEP
  | MON_BIAS_THR | MON_BIAS_DEM | MON_BIAS_STAT | CHK_CTL | CHK_DATA | CHK_VALUE_LO | CHK_VALUE_HI
  | CHK_RESULT_LO | CHK_RESULT_HI | CHK_STAT | PRF_CTL | PRF_RUN_LO | PRF_RUN_HI | PRF_BW_CTL | PRF_BW_SEQ
  | PRF_CNT_CFG | PRF_CNT_LO | PRF_CNT_HI | PRF_BW | SEC_BOOT_STAT | SEC_FW_BUILD | SEC_OTP | SEC_BOOT_MBX_LO
  | SEC_BOOT_MBX_HI | SEC_BOOT_MBX_LEN | SEC_BOOT_MBX_GO | SEC_FW_STAT | SEC_ID_STAT | SEC_ID_IDENT_LO
  | SEC_ID_IDENT_HI | SEC_CFG_STAT | SEC_CFG_DTIME_LO | SEC_CFG_DTIME_HI | SEC_ATT_CNT | SEC_DBG_STAT
  | SEC_DBG_CMD | SEC_EVT | SEC_FW_ACT_CNT | SEC_CIPH_CTL | SEC_CIPH_KA | SEC_CIPH_EVT | SEC_CIPH_UNCHK
  | SEC_CIPH_KA_FAIL | SEC_CIPH_CH_CTL | SEC_CIPH_CH_TX | SEC_CIPH_CH_RX | SEC_CIPH_CH_AUTH | SEC_CIPH_USE
  | CLI_PORT_CTL | CLI_PORT_STAT | CLI_PORT_FEC_CORR_LO | CLI_PORT_FEC_CORR_HI | CLI_PORT_FEC_UNC
  | CLI_LANE_POL | CLI_EVT | CLI_FLX_CTL | CLI_FLX_STAT | CLI_FLX_CAL_A | CLI_FLX_CAL_B | CLI_CH_CFG
  | CLI_CH_SLOTS | CLI_CH_FLX | CLI_CH_STAT | CLI_CH_REALIGN | CLI_CH_REPL | SEAM_CTL | SEAM_RGN | SEAM_STAT
  | SEAM_DELTA_MEAS | SEAM_DELTA_USE | SEAM_LOAD | SEAM_EVT | SEAM_REALIGN_CNT | SEAM_DSK_FAIL | SEAM_GRP_CTL
  | SEAM_CH_CFG | SEAM_CH_STAT | SEAM_CH_SW | SEAM_CH_SUBST | SEAM_CH_BAD | CAR_FE_CTL | CAR_FE_DC
  | CAR_FE_SKEW | CAR_FE_IQ | CAR_FE_ILV | CAR_FE_EVT | CAR_CDE_CTL | CAR_CDE_VALUE | CAR_CDE_ACT
  | CAR_CDE_EST | CAR_CDE_SRCH_LO | CAR_CDE_SRCH_HI | CAR_CDE_TRIM | CAR_CDE_STAT | CAR_CDE_EST_Q
  | CAR_CDE_GRID | CAR_PRESS_CTL | CAR_PRESS_ACT | CAR_PRESS_GUARD | CAR_PRESS_STAT | CAR_PRESS_XI
  | CAR_PRESS_SEG | CAR_PRESS_DET | CAR_RXC_CTL | CAR_RXC_STAT | CAR_RXC_FREQ | CAR_RXC_CLK | CAR_RXC_LLR
  | CAR_RXC_THR | CAR_RXC_MEAS | CAR_RXC_MEAN | CAR_RXC_RATE | CAR_RXC_EVT | CAR_RXC_SLIP | CAR_RXC_LOL
  | CAR_RXC_SFC_LO | CAR_RXC_SFC_HI | CAR_RXC_SNR | CAR_RXC_NOISE | CAR_FEC_CTL | CAR_FEC_TX | CAR_FEC_THR
  | CAR_FEC_STAT | CAR_FEC_MEAS | CAR_FEC_BER | CAR_FEC_EVT | CAR_FEC_BLK_LO | CAR_FEC_BLK_HI
  | CAR_FEC_CORR_LO | CAR_FEC_CORR_HI | CAR_FEC_UNC | CAR_FEC_ERASED | CAR_FEC_LOBL | CAR_TX_CTL
  | CAR_TX_RATE | CAR_TX_PRECOMP | CAR_TX_RAMP | CAR_TX_SQ | CAR_TX_STAT | CAR_TX_LEVEL | CAR_TX_TACK
  | CAR_TX_EVT | CAR_TX_SKEW | CAR_TX_CLIP_LO | CAR_TX_CLIP_HI | CAR_TX_SQ_CNT | CAR_TX_SC | CAR_TX_CDF
  | CAR_TX_PE | CAR_PLAN_CTL | CAR_PLAN_PARAM | CAR_PLAN_STAT | CAR_PLAN_EPOCH | CAR_PLAN_TX_TGT_LO
  | CAR_PLAN_TX_TGT_HI | CAR_PLAN_RX_TGT_LO | CAR_PLAN_RX_TGT_HI | CAR_PLAN_EVT | CAR_PLAN_APPLIED
  | CAR_PLAN_FAIL | CAR_PLAN_SHED_CNT | CAR_PLAN_REC_NEW | CAR_PLAN_REC_TX | CAR_PLAN_REC_RX
  | CAR_PLAN_SHED_MAP | CAR_TR_TX_CTL | CAR_TR_RX_CTL | CAR_TR_RX_DEG | CAR_TR_STAT | CAR_TR_RX_MFC_LO
  | CAR_TR_RX_MFC_HI | CAR_TR_EVT | CAR_TR_SBIP | CAR_TR_SBEI | CAR_TR_ERRFRM | CAR_TR_OOF | CAR_TR_MSG_BAD
  | CAR_TR_MSG_RX_LO | CAR_TR_MSG_RX_HI | CAR_TR_STRACE_TX | CAR_TR_STRACE_EXP | CAR_TR_STRACE_ACC
  | CAR_TR_SLOT_TX | CAR_TR_SLOT_RX | CAR_TR_PATH_STAT | CAR_TR_PBIP | CAR_TR_PBEI | CAR_TR_CFE
  | CAR_TR_PTRACE_TX | CAR_TR_PTRACE_EXP | CAR_TR_PTRACE_ACC | CAR_TK_TX_CTL | CAR_TK_TX_TIME | CAR_TK_TX_CMD
  | CAR_TK_RX_CTL | CAR_TK_RX_THR | CAR_TK_RX_TIME | CAR_TK_STAT | CAR_TK_FLOOR | CAR_TK_LAST | CAR_TK_EVT
  | CAR_TK_TX_FRM_LO | CAR_TK_TX_FRM_HI | CAR_TK_RX_GOOD_LO | CAR_TK_RX_GOOD_HI | CAR_TK_HDR_BAD
  | CAR_TK_CRC_BAD | CAR_TK_CAPTURED | CAR_TK_CUT | CAR_TK_REASM_BAD | CAR_TK_HELLO_RX | CAR_CM_CTL
  | CAR_CM_THR | CAR_CM_THR2 | CAR_CM_FIBRE | CAR_CM_SPANS | CAR_CM_STAT | CAR_CM_SEQ | CAR_CM_TILT
  | CAR_CM_HIST | CAR_CM_HIST_DEPTH | CAR_CM_HIST_NEXT | CAR_CM_EVT | CAR_CM_DISCARD | CAR_CM_ANOM_CNT
  | CAR_CM_SPAN0 | CAR_CM_SPAN1 | CAR_CM_SPAN2 | CAR_CM_FIT0 | CAR_CM_FIT1 | CAR_CM_ANOM0 | CAR_CM_ANOM1
  | HST_PF1_ROUTE0 | HST_PF1_ROUTE1 | HST_MSIX | HST_PBA | SNAP | SNAP_TIME_LO | SNAP_TIME_HI | SNAP_LIVE
  | PRESS_FILT
deriving DecidableEq, Repr

/-- One register instance: the register and its index, the indices of its table's array counted row by row
(carrier first where the register exists once per carrier). -/
structure RegKey where
  reg : RegId
  idx : Nat
deriving DecidableEq, Repr

end Sys2Proof.Machine
end

