-- ==== Sys2Proof/Types.lean ====
section
/-! DEFINITION. The small types of the block's commands and state: agents, dies, carriers, boundaries. -/

namespace Sys2Proof.Machine

/-- The two carriers (R14). -/
inductive Carrier where
  | A | B
deriving DecidableEq, Repr

/-- The converter dies, numbered as their register bases are (chapter 02). -/
inductive Die where
  | RXA | TXA | RXB | TXB
deriving DecidableEq, Repr

/-- The PCI Express functions (R461, R464). -/
inductive Fn where
  | PF0 | PF1
deriving DecidableEq, Repr

/-- Who reads or writes a register (R504): the two functions, the management processor, the counter page. -/
inductive Agent where
  | pf0 | pf1 | mp | page
deriving DecidableEq, Repr

/-- Transmit or receive side of a carrier. -/
inductive Side where
  | tx | rx
deriving DecidableEq, Repr

/-- Boundary kinds of a commit (R23). -/
inductive BKind where
  | sf | tf | mf
deriving DecidableEq, Repr

/-- What a read of host memory returns (R471, R492): the bytes, a PCI Express error, or poisoned data. -/
inductive ReadOut where
  | data (b : Bytes)
  | error
  | poison
deriving DecidableEq, Repr

/-- What ends a word period of the monitor converter (R405): the third stage's output with a modulator overload and the
saturation of a stage, or the modulator's bitstream of the period with an overload. -/
inductive MonWord where
  | stage3 (raw : Int) (overload sat : Bool)
  | stream (bits : List Bool) (overload : Bool)
deriving DecidableEq, Repr

/-- What the consumer that reads a poisoned on-chip word takes it for (R436): a channel's key of a place in one direction,
the coefficients of a Press step, or `n` elements from `lo` on of what its unit holds as State lists them, for the client
FIFOs those of channel `ch`. -/
inductive MemUse where
  | key (c : Fin 1024) (place : Fin 2) (tx : Bool)
  | step (x : Carrier) (k : Nat)
  | part (ch : Fin 1024) (lo n : Nat)
deriving DecidableEq, Repr

/-- What a crease-map integration measured (R358 to R368): the shares of its time covered by accumulated symbols and
spent in LOCKED, in 1/10,000; per bin from bin 0 the correlation, which is γ × P in pinches relative to 1 mW/(W km), and the standard
deviation of the power in 2⁻¹⁶ dB, or none where no correlation was formed; per span the fitted launch power and slope times
length, in pinches; downward steps inside spans as span, bin and pinches; rises as position in metres and pinches. -/
structure CmMeas where
  cover : Nat
  lock  : Nat
  bins  : List (Option (Int × Nat))
  fits  : List (Nat × Int × Int)
  steps : List (Nat × Nat × Nat)
  rises : List (Nat × Int)
deriving DecidableEq, Repr

/-- What a symbol frame of the receive side brought (R75 to R77, R122, R130, R131, R134): outputs of the adaptive DC loops
in 1/64 LSB, of the adaptive IQ loops as gain and phase of X and Y in their fields' units, the pilot SNR in pinches,
whether the alignment block was found where expected, the largest erased fraction of a block in 1/256, the frequency
offset in kHz and the clock offset in ppb. -/
structure SfMeas where
  dc     : List Int
  iq     : List (Int × Int)
  snr    : Int
  found  : Bool
  erased : Nat
  freq   : Int
  clk    : Int
deriving DecidableEq, Repr

/-- An entry of a capture (R150): the samples that stitch delivered from XI, XQ, YI and YQ, each with its erasure flag
(source 0), or signed components in the source's scale (sources 1 and 2). -/
inductive CapEnt where
  | adc (v : List (Bool × BitVec 8))
  | vals (v : List Int)
deriving DecidableEq, Repr

/-- A block as it enters the decoder (R164, R170): none, while the window is flushed; the oldest 40,320 LLRs that the
receive core gave; or LLRs told by their signs in the order of v and whether one of them is erased in part. -/
inductive BlkIn where
  | flush
  | line
  | given (signs : BitVec 40320) (erased : Bool)
deriving DecidableEq, Repr

/-- A received Tack symbol after dechirping (R329): the bins of its transform that hold power, each with that of X and of
Y. -/
structure TkSpec where
  bins : List (Nat × Nat × Nat)
deriving DecidableEq, Repr

/-- The searches of R341. -/
inductive TkSearch where
  | live | alone | gasp
deriving DecidableEq, Repr

/-- Carrier number as registers use it. -/
def Carrier.num : Carrier → Nat
  | .A => 0
  | .B => 1

/-- The other carrier. -/
def Carrier.other : Carrier → Carrier
  | .A => .B
  | .B => .A

/-- Die number as registers use it. -/
def Die.num : Die → Nat
  | .RXA => 0
  | .TXA => 1
  | .RXB => 2
  | .TXB => 3

/-- The carrier a die serves (R14). -/
def Die.car : Die → Carrier
  | .RXA | .TXA => .A
  | .RXB | .TXB => .B

/-- A receive die sends its samples to the core; a transmit die receives from it. -/
def Die.isRx : Die → Bool
  | .RXA | .RXB => true
  | .TXA | .TXB => false

/-- The receive die of a carrier. -/
def Carrier.rxDie : Carrier → Die
  | .A => .RXA
  | .B => .RXB

/-- The transmit die of a carrier. -/
def Carrier.txDie : Carrier → Die
  | .A => .TXA
  | .B => .TXB

/-- Number of a function. -/
def Fn.num : Fn → Nat
  | .PF0 => 0
  | .PF1 => 1

end Sys2Proof.Machine
end

