-- ==== Sys2Proof/Machine/Bits.lean ====
section
/-! DEFINITION. Helpers on bits, bytes and sparse tables: little- and big-endian bytes (R1, R2), the CRCs of R470,
R473 and R516, signed fields, pinch arithmetic (R5 to R9). -/

namespace Sys2Proof.Machine

/-- The value of key `k`, if the table lists one. -/
def aget {κ α : Type} [DecidableEq κ] (t : Tab κ α) (k : κ) : Option α :=
  match t with
  | [] => none
  | (k', v) :: r => if k' = k then some v else aget r k

/-- The value of key `k`, or `d`. -/
def agetD {κ α : Type} [DecidableEq κ] (t : Tab κ α) (k : κ) (d : α) : α := (aget t k).getD d

/-- The table without key `k`. -/
def adel {κ α : Type} [DecidableEq κ] (t : Tab κ α) (k : κ) : Tab κ α :=
  match t with
  | [] => []
  | (k', v) :: r => if k' = k then adel r k else (k', v) :: adel r k

/-- The table with `k` mapped to `v`. -/
def aset {κ α : Type} [DecidableEq κ] (t : Tab κ α) (k : κ) (v : α) : Tab κ α := (k, v) :: adel t k

/-- `n` bytes of `v`, least significant first (R1). -/
def leBytes (n v : Nat) : Bytes :=
  match n with
  | 0 => []
  | n + 1 => BitVec.ofNat 8 v :: leBytes n (v / 256)

/-- `n` bytes of `v`, most significant first (R2). -/
def beBytes (n v : Nat) : Bytes := (leBytes n v).reverse

/-- The number whose bytes, least significant first, are `b`. -/
def leNat (b : Bytes) : Nat :=
  match b with
  | [] => 0
  | x :: r => x.toNat + 256 * leNat r

/-- The number whose bytes, most significant first, are `b`. -/
def beNat (b : Bytes) : Nat := leNat b.reverse

/-- `n` bytes of `b` from offset `o`. -/
def sub (b : Bytes) (o n : Nat) : Bytes := (b.drop o).take n

/-- Little-endian number in `n` bytes of `b` from offset `o`. -/
def leAt (b : Bytes) (o n : Nat) : Nat := leNat (sub b o n)

/-- Big-endian number in `n` bytes of `b` from offset `o`. -/
def beAt (b : Bytes) (o n : Nat) : Nat := beNat (sub b o n)

/-- Byte `o` of `b`, zero past its end. -/
def byteAt (b : Bytes) (o : Nat) : Nat := (b.getD o 0).toNat

/-- `b` cut or zero-padded to `n` bytes. -/
def padTo (n : Nat) (b : Bytes) : Bytes := (b ++ List.replicate (n - b.length) 0).take n

/-- All bytes zero. -/
def allZero (b : Bytes) : Bool := b.all (· == 0)

/-- Bits hi:lo of a word, as a number. -/
def bits (w : Word) (hi lo : Nat) : Nat := (w.toNat / 2 ^ lo) % 2 ^ (hi + 1 - lo)

/-- Bit `i` of a number. -/
def bit (n i : Nat) : Bool := n / 2 ^ i % 2 == 1

/-- The mask with bits hi:lo set. -/
def maskOf (hi lo : Nat) : Word := BitVec.ofNat 32 ((2 ^ (hi + 1 - lo) - 1) * 2 ^ lo)

/-- `old` with the bits of `m` taken from `new`. -/
def merge (old new m : Word) : Word := (old &&& ~~~m) ||| (new &&& m)

/-- `w` with bits hi:lo set to `v`. -/
def setBits (w : Word) (hi lo v : Nat) : Word := merge w (BitVec.ofNat 32 (v * 2 ^ lo)) (maskOf hi lo)

/-- Two's-complement value of an `n`-bit number. -/
def sgn (n v : Nat) : Int := if v % 2 ^ n < 2 ^ (n - 1) then ((v % 2 ^ n : Nat) : Int) else ((v % 2 ^ n : Nat) : Int) - 2 ^ n

/-- The `n`-bit two's-complement code of an integer. -/
def usg (n : Nat) (v : Int) : Nat := (v % (2 ^ n : Int)).toNat

/-- 1 for true. -/
def b2n (b : Bool) : Nat := if b then 1 else 0

/-- The value of a list of bits, first bit least significant. -/
def bitsNat (l : List Bool) : Nat :=
  match l with
  | [] => 0
  | b :: r => b2n b + 2 * bitsNat r

/-- One bit fed to a reflected CRC register with reflected polynomial `poly`. -/
def crcRefStep (poly : BitVec 64) (c : BitVec 64) : BitVec 64 :=
  if c.getLsbD 0 then (c >>> 1) ^^^ poly else c >>> 1

/-- One byte fed to a reflected CRC register. -/
def crcRefByte (poly : BitVec 64) (c : BitVec 64) (b : Byte) : BitVec 64 :=
  (List.range 8).foldl (fun c _ => crcRefStep poly c) (c ^^^ b.setWidth 64)

/-- One byte fed to an unreflected CRC register of `w` bits. -/
def crcMsbByte (w : Nat) (poly : BitVec 64) (c : BitVec 64) (b : Byte) : BitVec 64 :=
  (List.range 8).foldl (fun c _ => ((if c.getLsbD (w - 1) then (c <<< 1) ^^^ poly else c <<< 1) &&&
    BitVec.ofNat 64 (2 ^ w - 1))) (c ^^^ (b.setWidth 64 <<< (w - 8)))

/-- CRC-32C of R470 (polynomial 0x1EDC_6F41 reflected). -/
def crc32c (b : Bytes) : Nat := ((b.foldl (crcRefByte 0x82F63B78) 0xFFFFFFFF) ^^^ 0xFFFFFFFF).toNat

/-- CRC-16 of R473 and R516 (polynomial 0x1021, initial value 0xFFFF). -/
def crc16 (b : Bytes) : Nat := (b.foldl (crcMsbByte 16 0x1021) 0xFFFF).toNat

/-- CRC-16 with initial value `i`. -/
def crc16From (i : Nat) (b : Bytes) : Nat := (b.foldl (crcMsbByte 16 0x1021) (BitVec.ofNat 64 i)).toNat

/-- CRC-8 with polynomial `p` and initial value `i`. -/
def crc8 (p i : Nat) (b : Bytes) : Nat := (b.foldl (crcMsbByte 8 (BitVec.ofNat 64 p)) (BitVec.ofNat 64 i)).toNat

/-- Bits of a byte, most significant first. -/
def byteBits (b : Byte) : List Bool :=
  [b.getLsbD 7, b.getLsbD 6, b.getLsbD 5, b.getLsbD 4, b.getLsbD 3, b.getLsbD 2, b.getLsbD 1, b.getLsbD 0]

/-- The number of ones in a number of `n` bits. -/
def popcount (n v : Nat) : Nat :=
  match n with
  | 0 => 0
  | n + 1 => v % 2 + popcount n (v / 2)

/-- "No measurement" of R6. -/
def noMeas : Nat := 0x8000

/-- A pinch value held to ±32,767 (R6), as its 16-bit code. -/
def pinchCode (v : Int) : Nat := usg 16 (max (-32767) (min 32767 v))

/-- Bits as bytes, the first bit most significant (R2). -/
def packBits (n : Nat) (l : List Bool) : Bytes :=
  match n with
  | 0 => []
  | n + 1 => BitVec.ofNat 8 (bitsNat (padBits (l.take 8)).reverse) :: packBits n (l.drop 8)
where
  /-- Eight bits, zeros where there are none. -/
  padBits (l : List Bool) : List Bool := (l ++ List.replicate 8 false).take 8

/-- A pinch code is a measurement (R6). -/
def isMeas (c : Nat) : Bool := c % 65536 != 0x8000

/-- Integer quotient rounded to nearest, halves away from zero (R7). `d` positive. -/
def roundDiv (n : Int) (d : Nat) : Int :=
  if 0 ≤ n then ((2 * n + d) / (2 * d : Nat) : Int) else -((2 * (-n) + d) / (2 * d : Nat) : Int)

/-- `v` held between `lo` and `hi`. -/
def clampI (lo hi v : Int) : Int := max lo (min hi v)

/-- `f` applied `n` times. -/
def iter {α : Type} (n : Nat) (f : α → α) (a : α) : α :=
  match n with
  | 0 => a
  | n + 1 => iter n f (f a)

/-- Replace element `i` of a list, if there is one. -/
def lset {α : Type} (l : List α) (i : Nat) (v : α) : List α := l.set i v

/-- Apply `f` to element `i` of a list, if there is one. -/
def lmod {α : Type} (l : List α) (i : Nat) (f : α → α) : List α :=
  match l, i with
  | [], _ => []
  | a :: r, 0 => f a :: r
  | a :: r, i + 1 => a :: lmod r i f

end Sys2Proof.Machine
end

