-- ==== Sys2Proof/Machine/FixMath.lean ====
section
/-! DEFINITION. Exponential, logarithm, sine and cosine in fixed point, in units of 2⁻⁹⁶, for the rules that state a
real value rounded to a register's unit (R5, R7, R99, R183, R203, R416, R417, R553). The error is far below the unit
rounded to; where a rule's exact value lies at a rounding boundary within that error the rounding is this one
(DEDUCED, log 12). -/

namespace Sys2Proof.Machine

/-- One, in units of 2⁻⁹⁶. -/
def fone : Int := 2 ^ 96
/-- ln 2. -/
def fln2 : Int := 54916777467707473351141471128
/-- ln 10. -/
def fln10 : Int := 182429585950654714090129938606
/-- π. -/
def fpi : Int := 248902613312231085230521944622

/-- Product of two fixed-point numbers. -/
def fmul (a b : Int) : Int := (a * b) / fone
/-- Quotient of two fixed-point numbers; zero for a zero divisor. -/
def fdiv (a b : Int) : Int := (a * fone) / b
/-- An integer ratio in fixed point. -/
def frat (n : Int) (d : Nat) : Int := n * fone / d
/-- Rounded to the nearest integer, halves away from zero (R7), after scaling by `k`. -/
def fround (a : Int) (k : Int := 1) : Int := roundDiv (a * k) (2 ^ 96)

/-- Taylor sum of exp for a small argument: terms from `n`-th on, `fuel` of them. -/
def fexpGo (r t : Int) (n fuel : Nat) : Int :=
  match fuel with
  | 0 => 0
  | fuel + 1 => t + fexpGo r (fmul t r / ((n : Int) + 1)) (n + 1) fuel

/-- e to the `x`; zero far below the unit. -/
def fexp (x : Int) : Int :=
  let k := x / fln2
  let e := fexpGo (x - k * fln2) fone 0 34
  if 0 ≤ k then e * 2 ^ k.toNat else e / 2 ^ (-k).toNat

/-- Sum of atanh for argument with square `z2`. -/
def fatanhGo (t z2 : Int) (n fuel : Nat) : Int :=
  match fuel with
  | 0 => 0
  | fuel + 1 => t / (2 * (n : Int) + 1) + fatanhGo (fmul t z2) z2 (n + 1) fuel

/-- Natural logarithm of a positive number. -/
def fln (x : Int) : Int :=
  let k : Int := (Nat.log2 x.toNat : Int) - 96
  let m := if 0 ≤ k then x / 2 ^ k.toNat else x * 2 ^ (-k).toNat
  let z := fdiv (m - fone) (m + fone)
  k * fln2 + 2 * fatanhGo z (fmul z z) 0 34

/-- Base-10 logarithm of a positive number. -/
def flog10 (x : Int) : Int := fdiv (fln x) fln10
/-- Ten to the `x`. -/
def fpow10 (x : Int) : Int := fexp (fmul x fln10)

/-- Square root of a non-negative number. -/
def fsqrt (x : Int) : Int := (Nat.sqrt (x.toNat * 2 ^ 96) : Nat)

/-- Taylor sum of sine or cosine. -/
def fsinGo (t x2 : Int) (n fuel : Nat) : Int :=
  match fuel with
  | 0 => 0
  | fuel + 1 => t + fsinGo (-(fmul t x2) / (((n : Int) + 1) * (n + 2))) x2 (n + 2) fuel

/-- Cosine of `n / d` turns. -/
def fcosTurn (n : Int) (d : Nat) : Int :=
  let r := (n % d : Int)
  let r := if 2 * r > d then r - d else r
  let x := 2 * fpi * r / d
  fsinGo fone (fmul x x) 0 32

/-- Sine of `n / d` turns. -/
def fsinTurn (n : Int) (d : Nat) : Int := fcosTurn (4 * n - d) (4 * d)

/-- Terms of the series of erf: `t` is the term of index `n`, each next one is 2y²/(2n+3) times it. -/
def ferfGo (t y2 : Int) (n fuel : Nat) : Int :=
  match fuel with
  | 0 => 0
  | fuel + 1 => t + ferfGo (fmul t (2 * y2) / (2 * (n : Int) + 3)) y2 (n + 1) fuel

/-- erfc of a number from 0 to 8. -/
def ferfc (y : Int) : Int :=
  let y2 := fmul y y
  fone - fmul (fdiv (2 * fexp (-y2)) (fsqrt fpi)) (ferfGo y y2 0 260)

/-- erfc⁻¹ by bisection between `lo` and `hi`. -/
def ferfcInvGo (v lo hi : Int) (fuel : Nat) : Int :=
  match fuel with
  | 0 => lo
  | fuel + 1 =>
    let m := (lo + hi) / 2
    if v < ferfc m then ferfcInvGo v m hi fuel else ferfcInvGo v lo m fuel

/-- erfc⁻¹ of a number between 0 and 1. -/
def ferfcInv (v : Int) : Int := ferfcInvGo v 0 (8 * fone) 60

end Sys2Proof.Machine
end

