-- ==== Sys2Proof/Machine/Loading.lean ====
section
/-! DEFINITION. Shaping, capacity, loading plans, plan records and plan messages as functions of their inputs (R113,
R154, R159, R167, R182, R183, R203 to R212). -/

namespace Sys2Proof.Machine

/-- Rate a / c of a rate code (R154). -/
def rateAC (r : Nat) : Nat × Nat :=
  [(2, 3), (5, 7), (3, 4), (7, 9), (4, 5), (5, 6), (6, 7), (8, 9)].getD r (8, 9)

/-- Kb of a rate code (R154). -/
def rateKb (r : Nat) : Nat := [840, 900, 945, 980, 1008, 1050, 1080, 1120].getD r 1120
/-- Mb of a rate code (R154). -/
def rateMb (r : Nat) : Nat := 1260 - rateKb r

/-- Q threshold of a rate code in pinches (R166). -/
def rateQ (r : Nat) : Nat := [196, 236, 265, 290, 309, 341, 366, 398].getD r 398

/-- Penalty of a pass count in pinches (R167). -/
def passPenalty (p : Nat) : Nat :=
  if 16 ≤ p then 0 else if 12 ≤ p then 3 else if 8 ≤ p then 10 else if 6 ≤ p then 19 else if 4 ≤ p then 38
  else if 2 ≤ p then 90 else 160

/-- Pilot spacing of a PILOT code (R113, RXC_CTL.PILOT). -/
def pilotD (c : Nat) : Nat := [16, 32, 64].getD c 64

/-- Payload symbols per polarisation of a subcarrier, n = 2^sc (R113). -/
def payloadP (sc pilot : Nat) : Nat :=
  let s := 65536 / 2 ^ sc - 256 / 2 ^ sc
  s - (s + pilotD pilot - 1) / pilotD pilot

/-- Label bits of an entropy's band (R182). -/
def bandB (e : Nat) : Nat := if e < 128 then 1 else if e < 256 then 2 else 3

/-- Entropy held within the band of `b` (R204). -/
def bandHold (b e : Nat) : Nat :=
  match b with
  | 1 => max 64 (min 127 e)
  | 2 => max 128 (min 255 e)
  | _ => max 256 (min 384 e)

/-- Sum of a list. -/
def sumN (l : List Nat) : Nat := l.foldr (· + ·) 0

/-- Coded bits per symbol frame (R159). -/
def codedBits (p : Nat) (b : List Nat) : Nat := 4 * p * sumN b

/-- Information rate in bit/s as a fraction (R205). -/
def infoRate (rate p : Nat) (b : List Nat) (kbd : Nat) : Nat × Nat :=
  ((rateAC rate).1 * codedBits p b * kbd * 1000, (rateAC rate).2 * 65536)

/-- Slot count of a plan (R205). -/
def slotsK (rate p : Nat) (b : List Nat) (kbd : Nat) : Nat :=
  let i := infoRate rate p b kbd
  min 456 ((i.1 - 6400000000 * i.2) / (5250000000 * i.2))

/-! ### Records (R206): 48 bytes, little-endian -/

/-- PILOT. -/
def recPilot (r : Bytes) : Nat := byteAt r 1
/-- EPOCH. -/
def recEpoch (r : Bytes) : Nat := leAt r 2 2
/-- RATE. -/
def recRate (r : Bytes) : Nat := byteAt r 4
/-- SC_LOG2. -/
def recSc (r : Bytes) : Nat := byteAt r 5
/-- SLOTS. -/
def recSlots (r : Bytes) : Nat := leAt r 6 2
/-- E of subcarrier `i`. -/
def recE (r : Bytes) (i : Nat) : Nat := leAt r (12 + 2 * i) 2
/-- Label bits of the subcarriers in use. -/
def recB (r : Bytes) : List Nat := (List.range (2 ^ recSc r)).map fun i => bandB (recE r i)

/-- Build a record; bytes 44 to 47 are zero (R212). -/
def mkRec (pilot epoch rate sc slots margin minEff : Nat) (e : List Nat) : Bytes :=
  [1, BitVec.ofNat 8 pilot] ++ leBytes 2 epoch ++ [BitVec.ofNat 8 rate, BitVec.ofNat 8 sc] ++ leBytes 2 slots ++
    leBytes 2 margin ++ leBytes 2 minEff ++ (List.range 16).flatMap (fun i => leBytes 2 (e.getD i 0)) ++ [0, 0, 0, 0]

/-- A record as it is kept, committed and sent: bytes 44 to 47 zero (R212). -/
def recClean (r : Bytes) : Bytes := padTo 44 r ++ [0, 0, 0, 0]

/-- A record with another epoch. -/
def recSetEpoch (r : Bytes) (e : Nat) : Bytes := r.take 2 ++ leBytes 2 e ++ (recClean r).drop 4

/-- The epoch-0 record (R208). -/
def epoch0 (pilot sc kbd : Nat) : Bytes :=
  mkRec pilot 0 4 sc (slotsK 4 (payloadP sc pilot) (List.replicate (2 ^ sc) 3) kbd) noMeas noMeas
    (List.replicate (2 ^ sc) 256)

/-- Swap the bytes of each two-byte field of a record: R1 to R2 or back. -/
def recSwap (r : Bytes) : Bytes :=
  let sw (o : Nat) : Bytes := [r.getD (o + 1) 0, r.getD o 0]
  r.take 2 ++ sw 2 ++ sub r 4 2 ++ sw 6 ++ sw 8 ++ sw 10 ++ (List.range 16).flatMap (fun i => sw (12 + 2 * i)) ++
    sub r 44 4

/-- A record passes check 3 of R212 against a side's SC_LOG2 and symbol rate. -/
def recValid (r : Bytes) (sc kbd : Nat) : Bool :=
  let n := 2 ^ sc
  byteAt r 0 == 1 && recRate r < 8 && recPilot r < 3 && recSc r == sc && sc ≤ 4 &&
  (List.range 16).all (fun i => if i < n then decide (64 ≤ recE r i ∧ recE r i ≤ 384) else recE r i == 0) &&
  recSlots r == slotsK (recRate r) (payloadP sc (recPilot r)) (recB r) kbd

/-! ### Computing a plan (R203, R204) -/

/-- C of R203 for an effective SNR in pinches. -/
def shannonC (s : Int) : Int :=
  fround (fdiv (fln (fone + fpow10 (frat s 640))) fln2) 64

/-- Lower one subcarrier: of those with b above 1 the lowest N, among equals the lowest index; none when every b is 1. -/
def lowerOne (b : List Nat) (n : List Int) : Option (List Nat) :=
  let c := (List.range b.length).filter fun i => 1 < b.getD i 0
  match c with
  | [] => none
  | i :: t =>
    let j := t.foldl (fun j k => if n.getD k 0 < n.getD j 0 then k else j) i
    some (lset b j (b.getD j 0 - 1))

/-- The while loop of R204: `fuel` bounds the number of lowered bits. -/
def fitRate (r p : Nat) (n : List Int) (supply : Int) (b : List Nat) (fuel : Nat) : Option (List Nat) :=
  if (128 * (rateAC r).1 * p * sumN b : Int) ≤ (rateAC r).2 * supply then some b else
  match fuel with
  | 0 => none
  | fuel + 1 =>
    match lowerOne b n with
    | none => none
    | some b' => fitRate r p n supply b' fuel

/-- The plan of R203 and R204 for measured SNR codes of the subcarriers, or none when no rate is feasible. -/
def computePlan (snr : List Int) (pilot sc kbd : Nat) (margin : Int) (gap penalty epoch : Nat) : Option Bytes :=
  let p := payloadP sc pilot
  let s := snr.map fun v => v - margin - penalty
  let c := s.map shannonC
  let n := c.map fun v => v - (gap : Int)
  let e0 := c.map fun v => (clampI 64 384 (v - 19)).toNat
  let bmax := e0.map bandB
  let supply : Int := n.foldr (fun v a => p * v + a) 0
  let best := (List.range 8).reverse.foldl (fun (a : Option (Nat × Nat × List Nat)) r =>
    match fitRate r p n supply bmax 48 with
    | none => a
    | some b =>
      let k := slotsK r p b kbd
      match a with
      | some (k0, _, _) => if k0 ≤ k then some (k, r, b) else a
      | none => some (k, r, b)) none
  best.map fun (k, r, b) =>
    mkRec pilot epoch r sc k (usg 16 margin) (pinchCode (s.foldl min (s.headD 0)))
      ((List.range (2 ^ sc)).map fun i => bandHold (b.getD i 0) (e0.getD i 0))

/-! ### Plan messages (R210) -/

/-- Header of a plan message. -/
def planHdr (typ send len : Nat) : Bytes := [BitVec.ofNat 8 typ, BitVec.ofNat 8 send] ++ beBytes 2 len

/-- PROPOSE. -/
def msgPropose (send : Nat) (r : Bytes) : Bytes := planHdr 0x31 send 48 ++ recSwap r
/-- COMMIT. -/
def msgCommit (r : Bytes) (target flags : Nat) (map : Bytes) : Bytes :=
  planHdr 0x32 1 184 ++ recSwap r ++ beBytes 7 target ++ [BitVec.ofNat 8 flags] ++ padTo 128 map
/-- REJECT. -/
def msgReject (epoch reason : Nat) : Bytes := planHdr 0x33 1 4 ++ beBytes 2 epoch ++ [BitVec.ofNat 8 reason, 0]
/-- ABORT. -/
def msgAbort (epoch : Nat) : Bytes := planHdr 0x34 1 4 ++ beBytes 2 epoch ++ [0, 0]
/-- QUERY. -/
def msgQuery (send epoch : Nat) : Bytes := planHdr 0x35 send 4 ++ beBytes 2 epoch ++ [0, 0]

/-- Body bytes of a plan message type after its header; none where the type is no plan message (R210). -/
def planLen (typ : Nat) : Option Nat :=
  match typ with
  | 0x31 => some 48
  | 0x32 => some 184
  | 0x33 | 0x34 | 0x35 => some 4
  | _ => none

/-- Bytes of the channel map with the listed channels set (R210). -/
def chanMap (l : List Nat) : Bytes :=
  (List.range 128).map fun j =>
    BitVec.ofNat 8 (sumN ((List.range 8).map fun c => if l.contains (8 * j + (7 - c)) then 2 ^ c else 0))

/-- Channels of a channel map, ascending. -/
def mapChans (m : Bytes) : List Nat :=
  (List.range 1024).filter fun c => bit (byteAt m (c / 8)) (7 - c % 8)

/-! ### Shaping (R183) -/

/-- Levels of a band (R182). -/
def bandLevels (b : Nat) : List Int :=
  match b with
  | 1 => [-1, 0, 1]
  | 2 => [-3, -1, 1, 3]
  | _ => [-7, -5, -3, -1, 1, 3, 5, 7]

/-- Probabilities of the levels for ν in fixed point. -/
def levelP (x : List Int) (nu : Int) : List Int :=
  let w := x.map fun v => fexp (-(nu * v * v))
  let t := w.foldl (· + ·) 0
  w.map fun v => fdiv v t

/-- Entropy of a distribution in bits. -/
def entropyF (p : List Int) : Int :=
  -(p.foldl (fun a v => if v ≤ 0 then a else a + fmul v (fdiv (fln v) fln2)) 0)

/-- The bisection of R183. -/
def nuGo (x : List Int) (target lo hi : Int) (fuel : Nat) : Int :=
  match fuel with
  | 0 => lo
  | fuel + 1 =>
    let nu := (lo + hi) / 2
    if target < entropyF (levelP x nu) then nuGo x target nu hi fuel else nuGo x target lo nu fuel

/-- The cumulative thresholds C_k of an entropy (R183), 65,536 at and above L - 1. -/
def cdf (e k : Nat) : Nat :=
  let x := bandLevels (bandB e)
  if x.length ≤ k + 1 then 65536 else
  let p := levelP x (nuGo x (frat e 128) 0 (64 * fone) 100)
  (fround ((p.take (k + 1)).foldl (· + ·) 0) 65536).toNat

end Sys2Proof.Machine
end

