-- ==== Sys2Proof/Machine/Dsp.lean ====
section
/-! DEFINITION. Complex numbers in the fixed point of FixMath, the discrete Fourier transform, the root-raised-cosine
response and band-limited delay: what the signal paths of chapters 02 to 06 and 12 are built from. The spec gives their
results as exact expressions; the 96 fraction bits lie far below every unit they are rounded to (log 12). -/

namespace Sys2Proof.Machine

/-- A complex number in units of 2⁻⁹⁶. -/
abbrev Cx := Int × Int

/-- Zero. -/
def cx0 : Cx := (0, 0)
/-- Sum. -/
def cadd (a b : Cx) : Cx := (a.1 + b.1, a.2 + b.2)
/-- Difference. -/
def csub (a b : Cx) : Cx := (a.1 - b.1, a.2 - b.2)
/-- Product. -/
def cmul (a b : Cx) : Cx := (fmul a.1 b.1 - fmul a.2 b.2, fmul a.1 b.2 + fmul a.2 b.1)
/-- Conjugate. -/
def conj (a : Cx) : Cx := (a.1, -a.2)
/-- Product with a real number. -/
def cscale (k : Int) (a : Cx) : Cx := (fmul k a.1, fmul k a.2)
/-- Product with an integer ratio. -/
def crat (n : Int) (d : Nat) (a : Cx) : Cx := (a.1 * n / d, a.2 * n / d)
/-- Squared magnitude. -/
def cnorm (a : Cx) : Int := fmul a.1 a.1 + fmul a.2 a.2
/-- A turn of `n / d` of the circle. -/
def cturn (n : Int) (d : Nat) : Cx := (fcosTurn n d, fsinTurn n d)
/-- The number of magnitude one with the direction of `a`; one for zero. -/
def cunit (a : Cx) : Cx :=
  let m := fsqrt (cnorm a)
  if m = 0 then (fone, 0) else (fdiv a.1 m, fdiv a.2 m)

/-- Sum of a list. -/
def csum (l : List Cx) : Cx := l.foldr cadd cx0
/-- Sum of a list of real numbers. -/
def fsum (l : List Int) : Int := l.foldr (· + ·) 0
/-- A list with the index of each element. -/
def indexed {α : Type} (l : List α) : List (Nat × α) := (List.range l.length).zip l

/-- The discrete Fourier transform; `sign` −1 forward, 1 inverse without its factor. -/
def dft (sign : Int) (l : List Cx) : List Cx :=
  (List.range l.length).map fun (k : Nat) => csum ((indexed l).map fun e => cmul e.2 (cturn (sign * ((k * e.1 : Nat) : Int)) l.length))

/-- A block with bin `k` of its spectrum multiplied by `h k` (R80, R87, R93, R190). -/
def spectral (h : Nat → Cx) (l : List Cx) : List Cx :=
  (dft 1 ((indexed (dft (-1) l)).map fun e => cmul e.2 (h e.1))).map (crat 1 l.length)

/-- Bin `k` of `n` as a signed number (R82). -/
def binNo (n k : Nat) : Int := if k < n / 2 then k else (k : Int) - n

/-- The phase D λc² f² / (2 c) in turns as a fraction, at a frequency of `fn / fd` Hz, D in ps/nm and the centre
frequency of grid number `g` (R83): with λc = c / fc it is D c f² / (2 fc²). -/
def dispTurn (d g fn : Int) (fd : Nat) : Int × Nat :=
  let fc : Nat := (193100000000000 + g * 6250000000).toNat
  (d * 299792458 * (fn * fn), 2000 * fd * fd * fc * fc)

/-- exp(j π D λc² f² / c) of R83, R87 and R190. -/
def dispPhase (d g fn : Int) (fd : Nat) : Cx :=
  let t := dispTurn d g fn fd
  cturn t.1 t.2

/-- The same for a dispersion in units of 2⁻⁹⁶ ps/nm. -/
def dispPhaseF (d g fn : Int) (fd : Nat) : Cx :=
  let t := dispTurn d g fn fd
  cturn t.1 (t.2 * 2 ^ 96)

/-- An element of a list of numbers; zero before its start and past its end. -/
def tapAt (l : List Int) (i : Int) : Int := if i < 0 then 0 else l.getD i.toNat 0
/-- The same of complex numbers. -/
def ctapAt (l : List Cx) (i : Int) : Cx := if i < 0 then cx0 else l.getD i.toNat cx0

/-- sin(πt) / (πt) at `n / d`. -/
def fsinc (n : Int) (d : Nat) : Int :=
  if n = 0 then fone else fdiv (fsinTurn n (2 * d)) (fmul fpi (frat n d))

/-- Band-limited interpolation of a list at position `n / d`: the ideal response cut to the 32 samples on each side
(DESIGN CHOICE, log 38). -/
def interp (l : List Int) (n : Int) (d : Nat) : Int :=
  let i := n / d
  fsum ((List.range 64).map fun (j : Nat) =>
    let k : Int := i - 31 + j
    fmul (tapAt l k) (fsinc (n - k * d) d))

/-- The same of complex numbers. -/
def cinterp (l : List Cx) (n : Int) (d : Nat) : Cx := (interp (l.map (·.1)) n d, interp (l.map (·.2)) n d)

/-- The root-raised-cosine response of roll-off `b / 64` at `n / d` symbols from its centre, with unit energy at one
sample a symbol (R118, R189). -/
def rrc (b : Nat) (n : Int) (d : Nat) : Int :=
  let beta := frat b 64
  let r := frat n d
  if n = 0 then fone - beta + fdiv (4 * beta) fpi
  else if 16 * n.natAbs * b = 64 * 4 * d then
    let q := fdiv (2 * fone) fpi
    let c := fdiv beta (fsqrt (2 * fone))
    fmul c (fmul (fone + q) (fsinTurn 8 b) + fmul (fone - q) (fcosTurn 8 b))
  else
    let x := 4 * fmul beta r
    let num := fsinTurn (n * (64 - b)) (128 * d) + fmul x (fcosTurn (n * (64 + b)) (128 * d))
    fdiv num (fmul (fmul fpi r) (fone - fmul x x))

end Sys2Proof.Machine
end

