-- ==== Sys2Proof/Syntax.lean ====
section
/-! DEFINITION. The commands of the block: one constructor per row of the opcode table. Operands carry what reaches the
block from outside with the command: who writes and what, received bits, measured values, a timer's or engine's
result. -/

namespace Sys2Proof

open Sys2Proof.Machine

/-- A command, named as the row of the opcode table it stands for. -/
inductive Instr where
  /-- REGISTER_WRITE (R19): A host or processor write to a register that has no row of its own updates the active
    value, or the staging copy of a staged field. -/
  | registerWrite (who : Agent) (off : Nat) (l : List (BitVec 4 × Word)) (rms : Bool)
  /-- DTIME_LO_READ (R12): A read of GLB.DTIME_LO returns bits 31:0 of device time and latches DTIME_HI and
    DTIME_FRAC for that reader. -/
  | dtimeLoRead (who : Agent)
  /-- LO_COUNTER_READ (R506): A read of any _LO register returns bits 31:0 and latches the matching _HI value for
    that reader. -/
  | loCounterRead (who : Agent) (off : Nat) (n : Nat)
  /-- COUNTER_WRITE (R507): A write to a CNT register sets a 32-bit counter, buffers a 64-bit _LO half, or sets a
    64-bit count through its _HI half. -/
  | counterWrite (who : Agent) (off : Nat) (data : BitVec 64) (wide : Bool)
  /-- EVT_SEQ_CLEAR (R509): A full write to an _EVT register whose bits 31:24 match SEQ clears the EVENTS bits
    written as 1. -/
  | evtSeqClear (who : Agent) (off : Nat) (w : Word)
  /-- SNAP_READ (R505): A read of BLOCK.SNAP latches every counter of the block into its snapshot copy and records
    the device time. -/
  | snapRead (who : Agent) (block : Fin 15)
  /-- SNAP_LIVE (R505): A write of 1 to BLOCK.SNAP_LIVE returns counter reads of the block to live values. -/
  | snapLive (block : Fin 15)
  /-- DEVICE_FRAME_TICK (R24): Every 160 ns the device frame tick starts transmit transport frames on both carriers
    and applies device-frame-tick commits. -/
  | deviceFrameTick (feed : List (Nat × Bytes)) (off : Int × Int)
  /-- SYMBOL_FRAME_BOUNDARY (R87): At each symbol-frame boundary of a carrier, symbol-frame commits apply, the trim
    steps toward its target and the DC and IQ loops update. -/
  | symbolFrameBoundary (x : Carrier) (side : Side) (m : Option SfMeas)
  /-- DIGEST_RECOMPUTED (R532): The hash engine finishes recomputing the configuration digest after an applied
    commit and clears CFG_STAT.PENDING. -/
  | digestRecomputed
  /-- MP_RESTART (R16): The management processor restarts without changing configuration, traffic or pending
    commits, and its commands wait. -/
  | mpRestart
  /-- MP_RETURN (R16): The restarted management processor returns, and waiting commands and bias updates resume. -/
  | mpReturn
  /-- STITCH_BLOCK_RECEIVED (R54): A receiving stitch lane takes one 258-bit block, checks its header, counts
    invalid headers and delivers or erases its sample word. -/
  | stitchBlockReceived (d : Die) (m : Fin 26) (l : Fin 18) (hdr : BitVec 2) (payload : BitVec 256)
      (adc : Option (BitVec 256))
  /-- LANE_LOCKED (R53): After 64 consecutive valid headers a lane enters LOCKED. -/
  | laneLocked (d : Die) (m : Fin 26) (l : Fin 18)
  /-- LANE_FAILED (R58): 16 invalid headers within 64 blocks put a lane in FAILED and the receiving end sends a
    darn request. -/
  | laneFailed (d : Die) (m : Fin 26) (l : Fin 18)
  /-- FORWARDED_CLOCK_LOST (R53): Loss of a module's forwarded clock fails its lanes and degrades the module. -/
  | forwardedClockLost (d : Die) (m : Fin 26)
  /-- LANE_LOCK_TIMEOUT (R56): A lane not LOCKED 100 µs after its die's sample clock locks is FAILED and darned, or
    unavailable if a spare. -/
  | laneLockTimeout (d : Die) (m : Fin 26) (l : Fin 18)
  /-- DARN_REQUEST (R58): The sending end receives a darn request over the sideband and moves the logical lane onto
    the named spare at its next block boundary. -/
  | darnRequest (d : Die) (m : Fin 26) (msg : BitVec 64)
  /-- DARN_COMPLETE (R59): The receiving end sees the spare's marker and delivers the logical lane from the spare
    again. -/
  | darnComplete (d : Die) (m : Fin 26) (spare : Fin 18)
  /-- DARN_RETRY (R62): With no marker from the spare 1 µs after the request, the receiving end repeats the request
    once. -/
  | darnRetry (d : Die) (m : Fin 26) (logical : Fin 16)
  /-- DARN_TIMEOUT (R62): Darning not complete 2 µs after the first invalid header makes the module degraded. -/
  | darnTimeout (d : Die) (m : Fin 26) (logical : Fin 16)
  /-- SIDEBAND_KEEP_ALIVE (R57): A keep-alive sideband message is received and its CRC checked. -/
  | sidebandKeepAlive (d : Die) (m : Fin 26) (msg : BitVec 64)
  /-- SIDEBAND_TEST_CONTROL (R46): A test-control sideband message applies a lane setting at the converter-die end.
    -/
  | sidebandTestControl (d : Die) (m : Fin 26) (msg : BitVec 64)
  /-- SIDEBAND_LOCKED (R57): 8 consecutive sideband messages with good CRC lock the sideband. -/
  | sidebandLocked (d : Die) (m : Fin 26)
  /-- SIDEBAND_LOST (R65): 4 consecutive bad sideband messages lose the sideband and disable new darning on the
    module. -/
  | sidebandLost (d : Die) (m : Fin 26)
  /-- RETRAIN (R66): A write of STI.MOD_CTL.RETRAIN returns the module's FAILED lanes to HUNT. -/
  | retrain (d : Die) (m : Fin 26)
  /-- MOD_TEST_WRITE (R68): A write of STI.MOD_CTL.TEST takes the module out of service for lane tests or returns
    it. -/
  | modTestWrite (d : Die) (m : Fin 26) (v : Bool)
  /-- LANE_TEST_ENABLE (R68): A write of GEN_EN or CHK_EN is accepted only on a free spare or a module under test.
    -/
  | laneTestEnable (d : Die) (m : Fin 26) (l : Fin 18) (gen : Bool) (chk : Bool)
  /-- INJECT_SINGLE (R70): INJ_MODE 0b01 flips one generator bit and the field returns to 0b00. -/
  | injectSingle (d : Die) (m : Fin 26) (l : Fin 18)
  /-- INJECT_RATE_TICK (R70): Every 2^INJ_RATE bits the generator flips one bit in rate injection mode. -/
  | injectRateTick (d : Die) (m : Fin 26) (l : Fin 18)
  /-- PRBS_SYNC (R67): The PRBS checker reaches sync after 1,024 error-free bits. -/
  | prbsSync (d : Die) (m : Fin 26) (l : Fin 18)
  /-- PRBS_SYNC_LOSS (R67): 256 or more errors in 1,024 bits lose checker sync and reseed it. -/
  | prbsSyncLoss (d : Die) (m : Fin 26) (l : Fin 18)
  /-- SAMPLE_CLOCK_LOCK (R42): A converter die's sample-clock synthesiser locks after power-up or a rate change. -/
  | sampleClockLock (d : Die)
  /-- SAMPLE_CLOCK_UNLOCK (R44): A sample clock loses lock; the die sends idle blocks and its converter path is
    faulty. -/
  | sampleClockUnlock (d : Die)
  /-- PATH_FAULT_CLEAR (R72): All causes gone and the link aligned for 100 µs clear the converter-path-faulty
    defect. -/
  | pathFaultClear (d : Die)
  /-- FE_LIMIT_CLEAR (R77): An adaptive DC or IQ value inside its range by 1/8 for 1 s clears the front-end limit
    defect. -/
  | feLimitClear (x : Carrier) (which : Fin 6)
  /-- TABLE_READY (R84): Regeneration of the dispersion table completes, the equaliser runs and table ready is
    raised. -/
  | tableReady (x : Carrier)
  /-- LOAD_EN_WRITE (R85): A write of CDE_CTL.LOAD_EN enters loading in custom mode or, on 0, resumes the equaliser
    on the stored table. -/
  | loadEnWrite (x : Carrier) (v : Bool)
  /-- TABLE_WINDOW_WRITE (R446): A 32-bit or 64-bit host write to a dispersion table window merges into the stored
    word and can clear its poison. -/
  | tableWindowWrite (off : Nat) (wide : Bool) (data : BitVec 64)
  /-- HOST_WINDOW_READ (R447): A host read through a table window returns data, or zeros with a poisoned completion
    for a poisoned word. -/
  | hostWindowRead (who : Agent) (off : Nat) (wide : Bool) (seen : Fin 3)
  /-- ESTIMATE (R88): A write of CDE_CTL.ESTIMATE starts a commanded blind dispersion estimate unless one runs. -/
  | estimate (x : Carrier)
  /-- ESTIMATE_DONE (R89): A blind estimate completes its scans and its result is judged valid or repeated. -/
  | estimateDone (x : Carrier) (i : Nat) (j : Fin 161) (conf : Fin 256)
  /-- TRACK_INTERVAL (R90): Every TRACK_S seconds in track mode a fine-only tracking estimate starts. -/
  | trackInterval (x : Carrier)
  /-- ACQUISITION_TIMEOUT (R90): 10 ms of continuous loss of symbol-frame lock starts a new acquisition estimate. -/
  | acquisitionTimeout (x : Carrier)
  /-- PRESS_GUARD_COMPARE (R104): WINDOW after a Press set, the SNR comparison ends and the previous set is
    restored if SNR fell. -/
  | pressGuardCompare (x : Carrier)
  /-- PRESS_GAIN_COMPARE (R105): WINDOW after Press is turned on, the SNR comparison raises no gain and may make
    steps transparent. -/
  | pressGainCompare (x : Carrier)
  /-- XI_ADAPT (R106): Every WINDOW with ADAPT set, ξ moves by 1/64 toward higher SNR within 0.5 to 1.5. -/
  | xiAdapt (x : Carrier) (snr : Nat)
  /-- ENGINE_TAKEOVER (R109): A spare engine loaded from the golden copy takes over the step at the next
    symbol-frame boundary. -/
  | engineTakeover (x : Carrier) (k : Nat)
  /-- TABLE_LOAD (R100): The table-load command reads a Press filter-set image and stages it in both receive
    scopes. -/
  | tableLoad (fn : Fn) (r : Nat)
  /-- PROFILE_LOAD (R40): The profile-load command stages a reach profile's settings in the named carriers or
    refuses them. -/
  | profileLoad (fn : Fn) (r : Nat)
  /-- ALIGNMENT_DETECTION (R134): The alignment detector finds an alignment block; a second detection a symbol
    frame later moves HUNT to TRAIN. -/
  | alignmentDetection (x : Carrier) (t : Nat) (hyp : Int)
  /-- LOCK_ACQUIRED (R134): 16 consecutive symbol frames with pilot SNR at LOCK_SNR move TRAIN to LOCKED. -/
  | lockAcquired (x : Carrier)
  /-- TRAINING_TIMEOUT (R134): 4,096 symbol frames in TRAIN without LOCKED return the receive core to HUNT. -/
  | trainingTimeout (x : Carrier)
  /-- ALIGNMENT_MISSED_LOSS (R134): 8 consecutive missed alignment blocks take LOCKED to HUNT. -/
  | alignmentMissedLoss (x : Carrier)
  /-- PILOT_SNR_LOSS (R134): 64 consecutive symbol frames with pilot SNR below LOCK_SNR less 1 dB take LOCKED to
    HUNT. -/
  | pilotSnrLoss (x : Carrier)
  /-- OFFSET_LOSS (R134): A frequency or clock offset beyond its hold range takes LOCKED to HUNT. -/
  | offsetLoss (x : Carrier)
  /-- NO_ALIGNMENT_FOUND (R152): 65,536 symbol frames in HUNT raise the no-alignment defect. -/
  | noAlignmentFound (x : Carrier)
  /-- PHASE_SLIP (R133): A pilot whose phase differs by more than π/4 realigns the phase and counts a slip. -/
  | phaseSlip (x : Carrier) (i : Fin 16) (p : Bool) (quarter : Fin 4)
  /-- CLOCK_OFFSET_DEFECT (R152): A clock offset beyond ±100 ppm for 1 ms in LOCKED raises the clock-offset defect.
    -/
  | clockOffsetDefect (x : Carrier)
  /-- OUTER_TAPS_DEFECT (R152): Outer-tap energy above 1/16 for 1 s raises, and below 1/32 for 1 s clears, the
    outer-taps defect. -/
  | outerTapsDefect (x : Carrier) (share : Option (Nat × Nat))
  /-- SNR_WINDOW_END (R143): At the end of a measurement window every SNR and noise field of the carrier updates
    together. -/
  | snrWindowEnd (x : Carrier) (m : Option (List (Nat × Nat × Nat × Nat)))
  /-- MEAN_SNR_INTERVAL (R145): Each 10 ms of device time the receive core forms MEAN_SNR for the Press
    comparisons. -/
  | meanSnrInterval (x : Carrier) (m : Option (List (Nat × Nat × Nat × Nat)))
  /-- CAPTURE (R146): The capture command arms a capture of a carrier's signal, or is rejected as busy or out of
    range. -/
  | capture (fn : Fn) (r : Nat)
  /-- CAPTURE_TRIGGER (R147): An immediate, symbol-frame count or event trigger starts an armed capture filling. -/
  | captureTrigger (x : Carrier) (code : Nat)
  /-- CAPTURE_FILL_END (R148): A capture takes its last entry, or ends its fill on a stop, and starts draining. -/
  | captureFillEnd (x : Carrier) (startSym : Nat) (entries : List CapEnt)
  /-- CAPTURE_STOP (R148): The capture-stop command disarms an armed capture or ends a fill. -/
  | captureStop (fn : Fn) (r : Nat)
  /-- CAPTURE_DONE (R149): A capture's drain completes with its header written and the buffer freed. -/
  | captureDone (x : Carrier)
  /-- CAPTURE_FAILED (R151): A capture's region is missing or fails before the drain ends, and capture failed is
    raised. -/
  | captureFailed (x : Carrier)
  /-- BLOCK_LOCK (R161): One position passing the syndrome test in 4 consecutive blocks puts the block aligner in
    LOCKED. -/
  | blockLock (x : Carrier) (pos : Fin 40320) (blocks : List (BitVec 40320))
  /-- NO_BLOCK_LOCK (R161): 1,024 block periods in HUNT raise the no-block-lock defect. -/
  | noBlockLock (x : Carrier)
  /-- LOSS_OF_BLOCK_LOCK (R161): 64 consecutive blocks passing at no rate return the aligner to HUNT. -/
  | lossOfBlockLock (x : Carrier)
  /-- CODE_BLOCK_DECODE (R164): A block enters the window, passes run, and the oldest block leaves with its
    information bits and uncorrected flag. -/
  | codeBlockDecode (x : Carrier) (block : BlkIn) (post : List (BitVec 40320)) (passes : Nat)
  /-- RATE_MISMATCH (R163): 4 blocks failing at the active rate and passing at another raise, and 4 passing clear,
    the rate-mismatch defect. -/
  | rateMismatch (x : Carrier)
  /-- RATE_SWITCH_MISSED (R172): The watch expires at target plus one without a switch and the old rate is kept. -/
  | rateSwitchMissed (x : Carrier)
  /-- FEC_INTERVAL (R173): Each 100 ms the BER and margin are reported and the FEC-degraded defect is evaluated. -/
  | fecInterval (x : Carrier)
  /-- UNCORRECTED_INTERVAL (R175): Each 10 ms interval updates the uncorrected-block defect. -/
  | uncorrectedInterval (x : Carrier)
  /-- TX_RAMP_UP_DONE (R194): An up-ramp completes and the output enters ON. -/
  | txRampUpDone (x : Carrier)
  /-- TX_RAMP_DOWN_DONE (R194): A down-ramp completes and the output enters OFF or SQUELCHED. -/
  | txRampDownDone (x : Carrier)
  /-- TX_FORCED (R194): A forced cause puts the output in FORCED with DAC inputs at zero at once. -/
  | txForced (x : Carrier)
  /-- FORCED_RELEASE (R194): 100 µs without a forced cause leaves FORCED as from OFF. -/
  | forcedRelease (x : Carrier)
  /-- TX_SQUELCH_WRITE (R195): A write of TX_CTL.SQUELCH sets or releases the command squelch cause. -/
  | txSquelchWrite (x : Carrier) (v : Bool)
  /-- SQ_HOLD_EXPIRE (R195): SQ_HOLD ms without LOCKED activates, or with LOCKED releases, the masked RX_LOL cause.
    -/
  | sqHoldExpire (x : Carrier)
  /-- RESTART_PROBE (R197): Every RESTART seconds in SQUELCHED with only RX_LOL, the output ramps up as a probe. -/
  | restartProbe (x : Carrier)
  /-- PROBE_END (R197): 100 ms after a probe reaches ON the output ramps down unless RX_LOL was released. -/
  | probeEnd (x : Carrier)
  /-- CLIP_INTERVAL (R200): Each 1 ms in ON evaluates the clipping-high event. -/
  | clipInterval (x : Carrier) (n : Option (Nat × Nat × Nat × Nat))
  /-- PLAN_COMPUTE (R202): The plan-compute command computes a loading plan for a receive carrier or reports it not
    computed. -/
  | planCompute (fn : Fn) (r : Nat)
  /-- PLAN_INTERVAL (R202): Every INTERVAL seconds in automatic mode a plan is computed. -/
  | planInterval (x : Carrier)
  /-- PLAN_PROPOSE (R211): The plan-propose command sends PROPOSE with the next receive epoch. -/
  | planPropose (fn : Fn) (r : Nat)
  /-- PLAN_PUSH (R214): The plan-push command makes the loaded end send an unsolicited COMMIT for a supplied
    record. -/
  | planPush (fn : Fn) (r : Nat)
  /-- PLAN_LOCAL (R214): The local-apply command commits a supplied record to this Plaile's transmit or receive
    scope without a message. -/
  | planLocal (fn : Fn) (r : Nat)
  /-- PLAN_APPROVE (R213): The approve or decline command answers a plan awaiting approval. -/
  | planApprove (fn : Fn) (r : Nat)
  /-- APPROVAL_TIMEOUT (R212): No answer within RETRY_MS of the approval request sends REJECT with code 5. -/
  | approvalTimeout (x : Carrier)
  /-- PROPOSE_RECEIVED (R212): The loaded end checks a received PROPOSE and rejects, repeats, awaits approval or
    commits it. -/
  | proposeReceived (x : Carrier) (msg : Bytes)
  /-- PLAN_COMMIT_RECEIVED (R216): A received COMMIT arms the proposer, or applies cold. -/
  | planCommitReceived (x : Carrier) (msg : Bytes)
  /-- PLAN_REJECT_RECEIVED (R211): A received REJECT ends the proposal with plan rejected. -/
  | planRejectReceived (x : Carrier) (msg : Bytes)
  /-- PLAN_ABORT_RECEIVED (R218): A received ABORT drops the proposer's pending receive commit. -/
  | planAbortReceived (x : Carrier) (msg : Bytes)
  /-- PLAN_QUERY_RECEIVED (R222): The loaded end answers a QUERY with a COMMIT of the record or a REJECT. -/
  | planQueryReceived (x : Carrier) (msg : Bytes)
  /-- PROPOSE_RETRY (R211): Each RETRY_MS without an answer resends PROPOSE, failing the plan after the third send.
    -/
  | proposeRetry (x : Carrier)
  /-- PLAN_ANNOUNCE_SEEN (R216): 4 consecutive good frames announcing an epoch arm the proposer, or drop or query
    its plan. -/
  | planAnnounceSeen (x : Carrier)
  /-- PLAN_RECOVERY_SWAP (R221): Each RETRY_MS in recovery without alignment the proposer swaps candidates, and
    after 8 raises plan lost. -/
  | planRecoverySwap (x : Carrier)
  /-- QUERY_RETRY (R222): Each RETRY_MS the proposer resends QUERY, raising plan lost after three unanswered sends.
    -/
  | queryRetry (x : Carrier)
  /-- PLAN_LOST_QUERY (R222): Every second while plan lost stands, the proposer queries again. -/
  | planLostQuery (x : Carrier)
  /-- EPOCH_MISMATCH (R226): 64 consecutive good frames with ACT_EPOCH differing from RX_ACT raise, and 64 equal
    clear, epoch mismatch. -/
  | epochMismatch (x : Carrier)
  /-- RX_FRAME_RECEIVED (R244): A received transport frame is descrambled and its parity, far-end counts, trace
    byte, message cell, plan field and tag bytes are processed. -/
  | rxFrameReceived (x : Carrier) (pos : Nat) (got : Option (Bytes × List (Nat × Nat)))
  /-- FRAME_FOUND (R240): A hunt candidate reaching 3 matches moves the framer to FRAME. -/
  | frameFound (x : Carrier)
  /-- MULTIFRAME_ALIGNED (R239): Two consecutive good MFC groups move FRAME to ALIGNED. -/
  | multiframeAligned (x : Carrier)
  /-- OOF (R241): 5 consecutive failed header checks return the framer to HUNT. -/
  | oof (x : Carrier)
  /-- LOF (R258): OOF continuously for 1 ms raises LOF, and FRAME held 1 ms clears it. -/
  | lof (x : Carrier)
  /-- LOSS_OF_MULTIFRAME (R242): Unexpected FN in 3 headers or MFC in 2 groups returns ALIGNED to FRAME. -/
  | lossOfMultiframe (x : Carrier)
  /-- RDI_RECEIVED (R248): 5 consecutive good headers with or without section or path RDI raise or clear RDI
    received. -/
  | rdiReceived (x : Carrier) (ch : Option (Fin 1024))
  /-- TRACE_ACCEPTED (R249): 3 identical trace cycles accept a section or path trace and re-evaluate trace
    mismatch. -/
  | traceAccepted (x : Carrier) (ch : Option (Fin 1024))
  /-- DEG_INTERVAL (R246): Each 10 ms interval updates the section and path degraded defects. -/
  | degInterval (x : Carrier)
  /-- FRAME_TOO_SHORT (R256): 3 consecutive good headers with NEXT too small raise, and 3 without clear, frame too
    short. -/
  | frameTooShort (x : Carrier)
  /-- MSG_SEND (R251): The message-send command queues a message of yours on a carrier's message channel. -/
  | msgSend (fn : Fn) (r : Nat)
  /-- MESSAGE_RECEIVED (R253): A whole message-channel message is checked and delivered, or discarded with a
    reason. -/
  | messageReceived (x : Carrier)
  /-- TAG_CHECK (R265): A multiframe's tag completes and passes, fails or is unchecked, driving authentication fail
    and key skew. -/
  | tagCheck (x : Carrier) (c : Fin 1024)
  /-- KEY_SOFT_LIMIT (R270): A key reaching 0xC000_0000 uses starts an exchange for the channel. -/
  | keySoftLimit (c : Fin 1024)
  /-- KEY_EXHAUSTED (R270): A key reaching 0xFFFF_FFFF uses sends the channel as zeros in clear with client signal
    fail. -/
  | keyExhausted (c : Fin 1024)
  /-- KEY_INSTALL (R267): The key-install command places a key entry with its targets in a free place. -/
  | keyInstall (fn : Fn) (r : Nat)
  /-- PEER_LOAD (R273): The peer-load command loads a peer's ML-DSA-87 public key for a carrier. -/
  | peerLoad (fn : Fn) (r : Nat)
  /-- KEY_AGREE (R273): The key-agree command starts an exchange for the named channels. -/
  | keyAgree (fn : Fn) (r : Nat)
  /-- CIPH_EN_WRITE (R272): A write of CIPH_CH_CTL.EN enables a channel in clear or takes it to clear and erases
    its places. -/
  | ciphEnWrite (c : Fin 1024) (v : Bool)
  /-- KEY_ROLL_DUE (R273): ROLL_MIN minutes after the last transmit switch the channel joins a scheduled exchange
    as initiator. -/
  | keyRollDue (cs : List Nat)
  /-- KA_CRYPTO_DONE (R276): A key generation, signature or verification completes and the exchange sends its next
    message. -/
  | kaCryptoDone (x : Carrier)
  /-- INIT_RECEIVED (R276): The responder verifies INIT, filters channels, installs entries and sends RESP. -/
  | initReceived (x : Carrier) (body : Bytes)
  /-- RESP_RECEIVED (R276): The initiator verifies RESP, installs entries and sends CONFIRM. -/
  | respReceived (x : Carrier) (body : Bytes)
  /-- CONFIRM_RECEIVED (R276): The responder verifies the MAC and sets its receive target. -/
  | confirmReceived (x : Carrier) (body : Bytes)
  /-- KA_ERROR_RECEIVED (R276): A received ERROR fails the exchange and erases its entries. -/
  | kaErrorReceived (x : Carrier) (body : Bytes)
  /-- INIT_RETRY (R277): Each RETRY_MS the initiator resends INIT, failing after the third send. -/
  | initRetry (x : Carrier)
  /-- RESP_RETRY (R277): Each RETRY_MS the responder resends RESP, failing after the third send. -/
  | respRetry (x : Carrier)
  /-- KA_RETRY_MINUTE (R277): A failed scheduled exchange is retried at the start of each minute. -/
  | kaRetryMinute (x : Carrier)
  /-- SEAM_PAIR_MEASURE (R284): A multiframe received on both carriers gives Δ and evaluates late copies, window
    exceeded and realignment. -/
  | seamPairMeasure (m : Nat) (tA : Nat) (tB : Nat)
  /-- SEAM_FRAME_OUT (R285): At P Seam selects, substitutes or reassembles each deskewed channel's frame. -/
  | seamFrameOut (frame : Nat) (hdr : Bool) (psn : List (Carrier × Nat))
  /-- COPY_CLEAR_DELAY (R287): G or |Δ_use|+G after a copy's defect clears, it ceases to apply to selection. -/
  | copyClearDelay (c : Fin 1024) (x : Carrier) (cause : Fin 5)
  /-- HOLD_OFF_EXPIRE (R294): HOLD_OFF after an SF or SD of the selected copy, the switch happens if the condition
    stands. -/
  | holdOffExpire (c : Fin 1024)
  /-- WTR_EXPIRE (R295): Wait-to-restore expiry reverts the channel to the preferred copy. -/
  | wtrExpire (c : Fin 1024)
  /-- SEAM_SWITCH (R297): The Seam switch command sets or clears a LOCK, FORCE or MANUAL request for a channel or
    group. -/
  | seamSwitch (fn : Fn) (r : Nat)
  /-- SEAM_REALIGN (R305): A write of SEAM.CTL.REALIGN sets Δ_use and rebuilds or restarts the ring. -/
  | seamRealign
  /-- PORT_LOS (R322): No signal for 10 µs raises, and signal for 100 µs clears, loss of signal on a client port. -/
  | portLos (p : Fin 16) (lost : Bool)
  /-- PORT_LOL (R322): Loss of FEC or marker lock raises loss of lock, cleared after lock held 1 ms. -/
  | portLol (p : Fin 16) (lost : Bool)
  /-- PORT_UNC_INTERVAL (R322): Each 10 ms interval updates a port's high-uncorrected defect. -/
  | portUncInterval (p : Fin 16) (corrected : Nat) (unc : Nat)
  /-- FLEXE_GROUP_DEFECT (R322): Loss of FlexE overhead lock or a map mismatch raises the group defect, cleared
    after 1 ms. -/
  | flexeGroupDefect (g : Fin 8) (lock : Bool) (got : Nat × Nat)
  /-- FLEXE_CALENDAR_SWITCH (R312): A FlexE calendar switch takes effect by request and acknowledge and checks
    client counts. -/
  | flexeCalendarSwitch (g : Fin 8) (egress : Bool) (cal : Fin 2)
  /-- DEMAP_FRAME (R319): The demapper recovers a frame's byte count from its MAP byte and delivers stream blocks.
    -/
  | demapFrame (c : Fin 1024)
  /-- LOSS_OF_MAPPING (R320): No good FN 0 part in 3 multiframes sends the demapper to OUT. -/
  | lossOfMapping (c : Fin 1024)
  /-- CSF_RECEIVED (R324): 3 consecutive frames with client signal fail set raise, or without it clear, CSF
    received. -/
  | csfReceived (c : Fin 1024)
  /-- RATE_ADAPT_FAULT (R321): An ingress or egress FIFO overflows or underflows, blocks are errored and the FIFO
    re-centred. -/
  | rateAdaptFault (c : Fin 1024)
  /-- TACK_BURST_START (R333): GAP_US after the last burst a queued Tack frame starts as a live or alone burst. -/
  | tackBurstStart (x : Carrier)
  /-- TACK_BURST_END (R333): A Tack burst ends after its down-ramp, applying waiting commits. -/
  | tackBurstEnd (x : Carrier)
  /-- HELLO_TIMER (R351): Every HELLO_MS without alignment a HELLO frame is queued. -/
  | helloTimer (x : Carrier)
  /-- TACK_HELLO_CMD (R351): A write of TK_TX_CMD.HELLO queues one HELLO at once. -/
  | tackHelloCmd (x : Carrier)
  /-- RDI_FRAME_TIMER (R354): Every RDI_MS while section RDI is sent an RDI frame is queued. -/
  | rdiFrameTimer (x : Carrier)
  /-- DYING_GASP_CMD (R355): A write of TK_TX_CMD.DG sends a dying gasp with reason 2. -/
  | dyingGaspCmd (x : Carrier)
  /-- PFAIL (R355): PFAIL_N falling sends a dying gasp with reason 1 on each carrier not FORCED. -/
  | pfail
  /-- PFAIL_RELEASE (R355): PFAIL_N rising lets Tack transmit again. -/
  | pfailRelease
  /-- TACK_DETECTION (R342): A preamble, sync and down-chirp detection completes and may capture the current frame.
    -/
  | tackDetection (x : Carrier) (l : List (TkSearch × Bool × Int × Int))
  /-- TACK_HEADER (R342): The header symbols are received and checked, passing to PAYLOAD or failing. -/
  | tackHeader (x : Carrier) (h : Option Bytes)
  /-- TACK_FRAME_END (R342): The last payload symbol ends the frame as good or a CRC failure. -/
  | tackFrameEnd (x : Carrier) (b : Option Bytes)
  /-- HELLO_RECEIVED (R353): A good HELLO is stored and may raise hello received or settings mismatch. -/
  | helloReceived (x : Carrier)
  /-- TACK_RDI_RECEIVED (R354): A good RDI frame raises Tack-RDI-received. -/
  | tackRdiReceived (x : Carrier)
  /-- TACK_RDI_CLEAR (R354): No RDI frame for RDI_CLR_MS clears Tack-RDI-received. -/
  | tackRdiClear (x : Carrier)
  /-- DYING_GASP_RECEIVED (R356): A good dying-gasp frame raises dying gasp received. -/
  | dyingGaspReceived (x : Carrier)
  /-- TACK_SEGMENT_RECEIVED (R338): A good segment frame joins reassembly, delivering the message when complete. -/
  | tackSegmentReceived (x : Carrier)
  /-- REASSEMBLY_TIMEOUT (R338): A message with no new segment for 1 s is discarded. -/
  | reassemblyTimeout (x : Carrier) (typ : Nat)
  /-- TACK_FLOOR_INTERVAL (R350): Each 10 ms interval reports the Tack floor. -/
  | tackFloorInterval (x : Carrier) (power : Int)
  /-- INTEGRATION_END (R365): A crease-map integration ends complete, updating map, fits and conditions, or is
    discarded. -/
  | integrationEnd (x : Carrier) (m : CmMeas)
  /-- HISTORY_WRITE_DONE (R371): A crease-map history record's writes complete, header last. -/
  | historyWriteDone (x : Carrier)
  /-- REF_FAILED (R381): A slot's signal is lost and the slot becomes FAILED. -/
  | refFailed (n : Fin 8) (off0 : Int) (off1 : Int)
  /-- SLOT_MEASUREMENT (R382): A new frequency measurement of a slot drives qualification, soft limit and rank
    conflict. -/
  | slotMeasurement (n : Fin 8) (f : Int) (off0 : Int) (off1 : Int)
  /-- SLOT_QUALIFIED (R383): QUAL_S within the hard limit makes a slot VALID. -/
  | slotQualified (n : Fin 8) (off0 : Int) (off1 : Int)
  /-- SLOT_DISQUALIFIED (R383): HOLDOFF_MS beyond the hard limit disqualifies a VALID slot. -/
  | slotDisqualified (n : Fin 8) (off0 : Int) (off1 : Int)
  /-- DPLL_LOCK (R388): Phase error within ±50 ns for 2 s moves ACQUIRE to LOCKED or LOCKED_NEW. -/
  | dpllLock (d : Fin 2)
  /-- DPLL_UNLOCK (R388): Phase error beyond ±500 ns for 100 ms returns the DPLL to ACQUIRE. -/
  | dpllUnlock (d : Fin 2)
  /-- HISTORY_SECOND (R391): Each whole second each DPLL writes one frequency history entry and updates HO_READY. -/
  | historySecond (f0 : Int) (f1 : Int)
  /-- OUT_REALIGN (R394): A write of TIM.OUT_CMD realigns the pulse or frame output, or is refused. -/
  | outRealign (pps : Bool) (frm : Bool) (src : Fin 2)
  /-- BLEED_COMPLETE (R390): An output's bled phase offset reaches zero. -/
  | bleedComplete (o : Fin 4)
  /-- REF_EDGE_STAMP (R396): A rising edge of a pulse slot is stamped with device time. -/
  | refEdgeStamp (n : Fin 8)
  /-- ROOT_UNLOCK (R397): The root synthesiser loses lock and forces both transmitters. -/
  | rootUnlock
  /-- ROOT_LOCK (R397): The root synthesiser locks, or its relock has held 100 µs. -/
  | rootLock
  /-- CONVERSION_END (R410): A monitor conversion ends, writing the result, open-wire state and bias-loop update. -/
  | conversionEnd
  /-- URGENT_REQUEST (R411): A write of MON.URGENT queues an urgent conversion, aborting the scan conversion, or is
    refused. -/
  | urgentRequest (n : Fin 32)
  /-- DCB_EST_WRITE (R407): A write to MON.DCB_EST sets the input's DC estimate at once. -/
  | dcbEstWrite (n : Fin 32) (v : BitVec 24)
  /-- BIAS_VAL_WRITE (R415): A write to MON.BIAS_VAL sets the DAC code while LOOP_EN is 0. -/
  | biasValWrite (b : Fin 16) (v : BitVec 20)
  /-- REF_SETTLED (R404): A monitor reference becomes settled and the conversion on it restarts. -/
  | refSettled (ref : Fin 3)
  /-- REF_UNSETTLED (R404): A monitor reference's settled flag falls and conversions on it become invalid. -/
  | refUnsettled (ref : Fin 3)
  /-- CAL_START (R423): A write of GLB.CAL_CMD.START starts a calibration run or is refused. -/
  | calStart (i : Fin 32) (rms : Bool)
  /-- CALIBRATE (R423): The calibrate command starts a calibration run or is refused. -/
  | calibrate (fn : Fn) (r : Nat) (rms : Bool)
  /-- CAL_PASS1_END (R424): Pass 1 of a calibration run ends and pass 2 starts. -/
  | calPass1End (i : Fin 24) (vals : List Int)
  /-- CAL_PASS2_END (R424): Pass 2 ends and the run is accepted and ramped, or discarded on disagreement. -/
  | calPass2End (i : Fin 24) (vals : List Int)
  /-- CAL_ABORT (R425): A calibration condition fails during a pass and the run is aborted. -/
  | calAbort (i : Fin 24)
  /-- CAL_RAMP_STEP (R427): Every 10 µs an accepted value ramps toward its new value, ending with ramp complete. -/
  | calRampStep (i : Fin 24)
  /-- STARCH_DONE (R438): Starch of every on-chip memory completes and the management processor is released. -/
  | starchDone (rows : List (Fin 117 × Nat)) (src : Fin 4)
  /-- RINSE_READ (R441): Rinse reads a word and acts on its outcome: clean, correctable, uncorrectable or poisoned.
    -/
  | rinseRead (m : Fin 117) (w : Nat) (seen : Fin 4) (key : Option MemUse) (last : Bool)
  /-- UE_REREAD (R441): An uncorrectable word is re-read and judged transient or lasting. -/
  | ueReread (m : Fin 117) (w : Nat) (again : Bool) (key : Option MemUse) (use : Option (Carrier × Nat))
  /-- ROW_PATCH_DONE (R443): A faulty row's copy to a spare completes and accesses are redirected. -/
  | rowPatchDone (m : Fin 117) (row : Nat)
  /-- GOLDEN_RELOAD_DONE (R442): The owner rebuilds a poisoned word from its golden copy, clearing the poison. -/
  | goldenReloadDone (m : Fin 117) (w : Nat)
  /-- MEM_INJECT (R460): A write of MEM.INJ arms an error injection on the next word written in the memory. -/
  | memInject (m : Fin 128) (kind : Fin 4) (arm : Bool) (next : Option Nat)
  /-- CE_RATE_SECOND (R459): Each second the correctable-rate-high event is evaluated per memory. -/
  | ceRateSecond
  /-- CXL_PORT_UP (R450): A CXL port trains, enumerates its device and runs CXL.mem. -/
  | cxlPortUp (p : Fin 2) (width : Fin 17) (rate : Fin 5) (gib : Nat)
  /-- CXL_PORT_DOWN (R452): A CXL link failure or fatal error takes the port down and fails its regions. -/
  | cxlPortDown (p : Fin 2)
  /-- CXL_REQUEST_TIMEOUT (R452): A CXL.mem request without completion for 1 ms takes the port down. -/
  | cxlRequestTimeout (p : Fin 2)
  /-- CXL_RETRAIN_TIMER (R452): Once a second while enabled and down, the port tries to retrain. -/
  | cxlRetrainTimer (p : Fin 2) (got : Option (Fin 17 × Fin 5 × Nat))
  /-- CXL_LOG_POLL (R453): Each second Plaile reads the device's event logs and RAS status and counts events. -/
  | cxlLogPoll (p : Fin 2) (ce : Nat) (ue : Nat) (fatal : Bool) (media : List (Nat × Nat))
  /-- CXL_POISON_LINE (R454): A line returned with poison makes its 8 words poisoned. -/
  | cxlPoisonLine (g : Fin 32) (into : Option (Fin 117 × Nat))
  /-- REGION_READY (R457): A region's starch completes and it becomes READY. -/
  | regionReady (g : Fin 32)
  /-- REGION_POISON_SECOND (R457): Each second a region exceeding POISON_MAX poisoned lines fails. -/
  | regionPoisonSecond (g : Fin 32)
  /-- RING_ENABLE (R465): A write of RING_CTL.EN = 1 enables a command ring with zeroed indices. -/
  | ringEnable (fn : Fn) (r : Nat) (cls : Fin 4) (log2 : Fin 32) (vector : Fin 64)
  /-- RING_DISABLE (R469): A write of RING_CTL.EN = 0 stops a ring after its executing command. -/
  | ringDisable (fn : Fn) (r : Nat)
  /-- RING_RESUME (R472): A write of RING_CTL.RESUME re-reads the halted slot and ends the halt. -/
  | ringResume (fn : Fn) (r : Nat)
  /-- DOORBELL (R466): A producer-index write is accepted and fetching starts, or it is rejected and counted. -/
  | doorbell (fn : Fn) (r : Nat) (prod : Word)
  /-- DESCRIPTOR_ARRIVE (R471): Fetched descriptors arrive, are checked for ALIVE and CRC and dispatched. -/
  | descriptorArrive (fn : Fn) (r : Nat) (got : List ReadOut)
  /-- DESCRIPTOR_REREAD (R471): 2 µs after a failing read the descriptor is read again, executing or halting the
    ring. -/
  | descriptorReread (fn : Fn) (r : Nat) (got : ReadOut)
  /-- NOP (R493): The no-operation command completes with RESULT 0. -/
  | nop (fn : Fn) (r : Nat)
  /-- CANCEL (R478): The cancel command cancels every pending commit that includes a named scope. -/
  | cancel (fn : Fn) (r : Nat)
  /-- SNAPSHOT (R480): The snapshot command latches the counters of the named blocks in one cycle. -/
  | snapshot (fn : Fn) (r : Nat)
  /-- COMMIT (R477): The commit command checks and moves staged scopes into a pending set, or rejects them whole. -/
  | commit (fn : Fn) (r : Nat)
  /-- STAGED_READ (R479): The staged-read command returns the staging copy of a register. -/
  | stagedRead (fn : Fn) (r : Nat)
  /-- FW_DOWNLOAD (R527): The firmware-download command reads and checks an image into staging and optionally
    flash. -/
  | fwDownload (fn : Fn) (r : Nat)
  /-- FW_ACTIVATE (R528): The firmware-activate command restarts the processor on the staged image or advances
    anti-rollback. -/
  | fwActivate (fn : Fn) (r : Nat)
  /-- ATTEST (R533): The attest command builds and signs a report with the given nonce. -/
  | attest (fn : Fn) (r : Nat)
  /-- COMMAND_TIMEOUT (R481): A command not accepted within TIMEOUT_MS completes with status TIMEOUT. -/
  | commandTimeout (fn : Fn) (r : Nat)
  /-- BUFFER_READ_DONE (R492): A host buffer named by a command has been read whole and checked, letting the
    command proceed or fail DMA. -/
  | bufferReadDone (fn : Fn) (r : Nat) (got : ReadOut)
  /-- EVR_ENABLE (R484): A write of EVR_CTL.EN enables or disables an event ring. -/
  | evrEnable (fn : Fn) (e : Nat) (ctl : Word)
  /-- EVR_HEAD_WRITE (R484): A write of EVR_HEAD frees room and held records are posted with a marker. -/
  | evrHeadWrite (fn : Fn) (e : Nat) (head : Word)
  /-- COALESCE_TIMER (R488): COAL_US after the first unsignalled record the ring's vector is sent. -/
  | coalesceTimer (fn : Fn) (e : Nat)
  /-- MSG_RING_ENABLE (R489): A write of MSG_CTL.EN enables or disables the message ring. -/
  | msgRingEnable (ctl : Word)
  /-- MSG_HEAD_WRITE (R489): A write of MSG_HEAD frees message slots. -/
  | msgHeadWrite (head : Word)
  /-- PCIE_LINK_DOWN (R468): The PCI Express link goes down and completions and records are held. -/
  | pcieLinkDown
  /-- PCIE_LINK_UP (R468): The link returns and held completions, buffer reads and records resume. -/
  | pcieLinkUp
  /-- FLR_PF0 (R491): A function-level reset of PF0 disables its rings and discards staged values. -/
  | flrPf0
  /-- FLR_PF1 (R464): A function-level reset of PF1 stops PF1's rings only. -/
  | flrPf1
  /-- PERST (R543): PERST_N low resets PF0 and PF1 as function-level resets and retrains the link. -/
  | perst (low : Bool)
  /-- BW_WINDOW_END (R514): At the end of a bandwidth window every PRF.BW result updates and BW_SEQ advances. -/
  | bwWindowEnd (bytes : List Nat)
  /-- CHK_INIT (R516): A write of CHK.CTL.INIT loads the algorithm's initial value into VALUE. -/
  | chkInit (u : Fin 4) (alg : Fin 4)
  /-- CHK_DATA_WRITE (R517): A write to CHK.DATA queues bytes that are fed into the CRC one per cycle. -/
  | chkDataWrite (u : Fin 4) (be : BitVec 4) (w : Word)
  /-- CHK_VALUE_WRITE (R518): A write of CHK.VALUE sets the running register after queued data. -/
  | chkValueWrite (u : Fin 4) (hi : Bool) (be : BitVec 4) (w : Word)
  /-- CHK_RESULT_READ (R517): A read of VALUE, RESULT or STAT completes only after the queue drains. -/
  | chkResultRead (who : Agent) (u : Fin 4) (which : Fin 5)
  /-- BOOT_IMAGE_CHECKED (R523): The ROM finishes reading and checking a flash image and starts it or tries the
    other slot. -/
  | bootImageChecked (h0 : Option Bytes) (h1 : Option Bytes) (body : Option Bytes)
  /-- BOOT_MBX_GO (R524): A PF1 write of BOOT_MBX_GO starts a host boot by DMA. -/
  | bootMbxGo (fn : Fn)
  /-- FLASH_WRITE_DONE (R527): A flash slot write ends written or failed. -/
  | flashWriteDone (ok : Bool)
  /-- FIRMWARE_READY (R529): New firmware takes up the PF1 rings and reports firmware running. -/
  | firmwareReady
  /-- ACTIVATION_TIMEOUT (R529): Firmware not ready within 1 s makes the ROM start the previous image. -/
  | activationTimeout
  /-- OTP_ADVANCE_DONE (R526): Anti-rollback fuse steps complete and rollback advanced is raised. -/
  | otpAdvanceDone
  /-- IDENTITY_RECONSTRUCT (R530): The ROM reconstructs the PUF seed and identity key, or fails after 3 attempts. -/
  | identityReconstruct (ok : Bool)
  /-- ATTEST_SIGN_DONE (R533): The attestation report is signed and written, and the command completes. -/
  | attestSignDone
  /-- DBG_CHALLENGE (R536): A write of DBG_CMD.CHAL places a fresh debug challenge. -/
  | dbgChallenge
  /-- DBG_SUBMIT (R536): A write of DBG_CMD.SUBMIT verifies the token and unlocks debug, erasing secrets. -/
  | dbgSubmit
  /-- JTAG_INSTRUCTION (R535): A TAP instruction update takes effect, boundary instructions taking the balls. -/
  | jtagInstruction (i : Fin 11)
  /-- POWER_ON_RESET (R543): PORST_N low resets everything. -/
  | powerOnReset (blown : Nat)
  /-- PORST_RELEASE (R540): PORST_N rising releases power-on reset, starting device time and starch. -/
  | porstRelease
  /-- SUPPLY_UNDERVOLTAGE (R541): A supervised rail below 92 % for 2 µs starts a power-on reset. -/
  | supplyUndervoltage (rail : Fin 3) (blown : Nat)
  /-- WARM_RESET (R544): A PF1 write of GLB.RST_CMD with the key starts a warm reset. -/
  | warmReset (fn : Fn) (data : Word)
  /-- WARM_RESET_DONE (R544): The warm reset completes and the ROM boots again. -/
  | warmResetDone
  /-- WATCHDOG_EXPIRE (R545): The 1 s watchdog expires and restarts the management processor. -/
  | watchdogExpire
  /-- THERMAL_SAMPLE (R549): Each 1 ms the thermal unit samples T_j and changes thermal level. -/
  | thermalSample (t24 : Int) (t25 : Int) (t26 : Int) (t27 : Int)
  /-- SHED_ACTION (R551): Every 100 ms in shedding with T_j at SHED one shed action is taken. -/
  | shedAction
  /-- SHED_RESTORE (R551): Each second after 10 s below SHED less H one shed action is undone. -/
  | shedRestore
  /-- LIFE_SECOND (R553): Each second GLB.LIFE advances by the acceleration factor and the life warning is checked.
    -/
  | lifeSecond
  /-- LIFE_SAVE (R553): Each hour the firmware saves GLB.LIFE to flash. -/
  | lifeSave
  /-- TACK_SYMBOL_RECEIVED (R342): A combined dechirped Tack symbol is received, advancing SEARCH, PREAMBLE and
    SYNC or returning to SEARCH on a false preamble, and feeding the canceller. -/
  | tackSymbolReceived (x : Carrier) (q : TkSearch) (sec : Bool) (up : List TkSpec) (down : List TkSpec)
      (own : Option Nat) (lower : Bool)
  /-- MONITOR_WORD_BOUNDARY (R416): The decimation chain delivers a word: the dither index steps the bias DAC
    output, the DC estimate updates, overloads reset the integrators and pending urgent aborts take place. -/
  | monitorWordBoundary (w : MonWord)
  /-- REALIGNED_FIRST_PULSE (R394): The first pulse after an output realignment goes out at its target instant,
    clearing OUT_PHASE and raising output realigned. -/
  | realignedFirstPulse (o : Fin 4)
  /-- HOST_IMAGE_CHECKED (R524): The ROM finishes reading a host-boot image by DMA and checking it, starting it or
    waiting for another GO. -/
  | hostImageChecked (img : Option Bytes)
  /-- STAGED_IMAGE_CHECKED (R528): After an activation the ROM finishes hashing and checking the staged image,
    starting it or reverting to the previous image. -/
  | stagedImageChecked (intact : Bool)
  /-- SAMPLE_CLOCK_LOCK_HELD (R72): A converter die's sample clock has held lock for 100 µs and the
    sample-clock-unlocked defect clears. -/
  | sampleClockLockHeld (d : Die)
deriving DecidableEq, Repr

end Sys2Proof
end

