-- ==== Sys2Proof/Machine/State.lean ====
section
/-! DEFINITION. The state of the block, as plain data, and its reset value. Sparse tables list what differs from the
default that the table's reader names (`agetD t k d`), so that reset lists nothing. -/

namespace Sys2Proof.Machine

/-! ### Registers, commits, counters, events and rings (chapters 01, 18, 19) -/

/-- A pending commit (R21, R27): the scopes in which it still waits, its boundary kind and target, the values taken
from staging as (value, mask of its bits), and the carrier and epoch of a plan commit (R217). -/
structure Pend where
  scopes : List Nat
  kind   : BKind
  target : Option Nat
  vals   : Tab RegKey (Word × Word)
  plan   : Option (Carrier × Side × Nat)
deriving DecidableEq, Repr

/-- Configuration: active values that differ from reset, staging copies written since their scope's last acceptance
(value and mask of the bits written), pending commits in order of acceptance. -/
structure Regs where
  active : Tab RegKey Word
  staged : Tab RegKey (Word × Word)
  pend   : List Pend
deriving DecidableEq, Repr

/-- States of a command ring, RING_STAT.STATE (R497). -/
inductive RingSt where
  | disabled | running | halted | stopping
deriving DecidableEq, Repr

/-- The host buffer of a command (R492): none named, being read, or read whole. -/
inductive BufSt where
  | none
  | wait
  | ready (data : Bytes)
deriving DecidableEq, Repr

/-- A dispatched command (R467): its descriptor, its host buffer, and whether the unit has accepted it (R481). -/
structure ExecCmd where
  desc     : Bytes
  buf      : BufSt
  accepted : Bool
deriving DecidableEq, Repr

/-- A completion held while the link is down (R468). -/
structure HeldCpl where
  addr : Nat
  data : Bytes
  irq  : Option Nat
deriving DecidableEq, Repr

/-- A command ring (R465 to R472). `alive` is HST.RING_ALIVE. -/
structure CmdRing where
  st      : RingSt
  cause   : Nat
  prod    : Nat
  cons    : Nat
  alive   : Nat
  fetched : List Bytes
  reread  : Bool
  exec    : Option ExecCmd
  heldCpl : List HeldCpl
deriving DecidableEq, Repr

/-- The fields of an event record but its SEQ and CRC (R482). -/
structure Ev where
  code  : Nat
  kind  : Nat
  car   : Nat
  index : Nat
  data  : Bytes
  dtime : Nat
deriving DecidableEq, Repr

/-- Where a held record lies (R487): the class-0 reserve, the shared on-chip entries, the CXL overflow region. -/
inductive HoldPlace where
  | reserve | shared | region
deriving DecidableEq, Repr

/-- A held record: `tgt` is the PF1 ring of a copy (R485), or none for the PF0 ring of its family's route. -/
structure HeldEv where
  tgt   : Option Nat
  ev    : Ev
  place : HoldPlace
deriving DecidableEq, Repr

/-- An event ring (R484 to R488): index posted, next SEQ, records posted since the last interrupt, records lost since
the last marker and the device time of the first of them. Rings 0 to 3 are PF0's, 4 and 5 PF1's. -/
structure EvRing where
  tail      : Nat
  seq       : Nat
  unsig     : Nat
  lost      : Nat
  firstLost : Nat
deriving DecidableEq, Repr

/-- A standing defect: the event code that raised it, its carrier number (0 none, 1 A, 2 B), INDEX, and a further
number where one INDEX has several (die and lane of a stitch defect). -/
structure Defect where
  code  : Nat
  car   : Nat
  index : Nat
  sub   : Nat
deriving DecidableEq, Repr

/-- The snapshot of a block (R505). -/
structure Snap where
  copies : Tab RegKey Nat
  ns     : Nat
  count  : Nat
  frozen : Bool
deriving DecidableEq, Repr

/-- What the block puts out, newest first in `Io.out`. -/
inductive Out where
  /-- A posted write to host memory: completions, event records, messages (R468, R484, R489). -/
  | hostWrite (addr : Nat) (data : Bytes)
  /-- An MSI-X message (R461). -/
  | msix (fn : Fn) (vec : Nat)
  /-- Data returned to a reader of a register or window; `poisoned` marks a poisoned completion (R447). -/
  | readData (who : Agent) (off data : Nat) (poisoned : Bool)
  /-- A sideband message of a stitch module (R57): die, module, the 64-bit message. -/
  | sideband (die : Die) (mod : Nat) (msg : Nat)
  /-- A transport frame sent on a carrier (R228), after scrambling. -/
  | frame (car : Carrier) (bytes : Bytes)
  /-- A Tack burst: carrier, whether sent alone, spreading factor, repetition flag, Tack frame bytes (R329 to R336). -/
  | burst (car : Carrier) (alone : Bool) (sf rep : Nat) (bytes : Bytes)
  /-- Stream blocks of 257 bits delivered to the egress PCS of a channel; none stands for 66b error control blocks (R310, R320). -/
  | client (ch : Nat) (blocks : List (Option (BitVec 257)))
  /-- A channel's egress FIFO is re-centred with idles (R321). -/
  | recentre (ch : Nat)
  /-- The lanes that the client transmitters and receivers invert (R308). -/
  | lanePol (tx rx : Nat)
  /-- A channel's replacement signal starts or stops: Local Fault ordered sets, or electrical idle (R324). -/
  | replace (ch : Nat) (on idle : Bool)
  /-- A write into a CXL region: region, offset, bytes (R455). -/
  | cxlWrite (region off : Nat) (bytes : Bytes)
  /-- A block that the sending end of a stitch lane sends: die, module, lane, header, payload as on the lane (R47 to
  R51). -/
  | stitch (die : Die) (mod lane : Nat) (hdr : BitVec 2) (payload : BitVec 256)
  /-- 32 samples that a transmit die hands to the DAC of a converter (R49, R61). -/
  | dac (die : Die) (conv : Nat) (word : BitVec 256)
  /-- A write of flash by the firmware (R527, R553): offset, bytes. -/
  | flash (off : Nat) (bytes : Bytes)
deriving DecidableEq, Repr

/-- The arbiter of PF0's rings (R474): the class among 1 to 3 that is served, the commands of it served in its turn, the
ring of each class served last. -/
structure Arb where
  cls  : Nat
  used : Nat
  last : Tab Nat Nat
deriving DecidableEq, Repr

/-- Rings, records, counters and what goes out. -/
structure Io where
  link    : Bool
  perst   : Bool
  rings   : Tab (Fn × Nat) CmdRing
  arb     : Arb
  evr     : Tab Nat EvRing
  heldEv  : List HeldEv
  msgTail : Nat
  pba     : List (Fn × Nat)
  cnt     : Tab RegKey Nat
  rem     : Tab RegKey Nat
  wbuf    : Tab RegKey Nat
  latch   : Tab (Agent × RegKey) Nat
  snaps   : Tab Nat Snap
  evtw    : Tab RegKey Word
  defects : List Defect
  bw      : Tab Nat (Nat × Nat)
  bwSeq   : Nat
  out     : List Out
deriving DecidableEq, Repr

/-- An entry of a check unit's queue (R517, R518): a byte to feed, a write of a half of VALUE, or INIT. -/
inductive ChkOp where
  | byte (b : Byte)
  | valueLo (w : Word) (be : BitVec 4)
  | valueHi (w : Word) (be : BitVec 4)
  | init (alg : Nat)
deriving DecidableEq, Repr

/-- A check unit (R516): the running register and the queued writes, each a list of entries. -/
structure ChkUnit where
  value : BitVec 64
  queue : List (List ChkOp)
deriving DecidableEq, Repr

/-! ### Converter dies and stitch (chapter 02) -/

/-- Lane states of R53. -/
inductive LaneSt where
  | hunt | locked | failed
deriving DecidableEq, Repr

/-- A stitch lane at its receiving end (R53 to R71). -/
structure Lane where
  st      : LaneSt
  /-- Search position, and the run of valid headers there (R53). -/
  pos     : Nat
  run     : Nat
  /-- The last 64 blocks: header invalid (R53). -/
  win     : List Bool
  /-- The last block that was no marker was a valid idle block (R51). -/
  idle    : Bool
  /-- Logical data lane assigned to the lane; it keeps it while FAILED, until a spare has taken it over (R59, R66). -/
  carries : Option Nat
  /-- FAILED, or hunting after RETRAIN (R66). -/
  retr    : Bool
  /-- Count of the last marker, LOGICAL of the last marker with this lane's MODULE and PHYSICAL since a darning asked for
  one, blocks since the last marker, and whether the lane has passed a marker common to its module (R50, R52, R55). -/
  mark    : Option Nat
  markL   : Option Nat
  since   : Nat
  algn    : Bool
  /-- The 58 payload bits last received (R48). -/
  scr     : BitVec 58
  /-- PRBS checker: the last bits, error-free bits in a row, in sync, bits and errors of its running 1,024 (R67). -/
  chk     : BitVec 31
  crun    : Nat
  sync    : Bool
  pbits   : Nat
  perr    : Nat
deriving DecidableEq, Repr

/-- A stitch lane at its sending end (R47 to R51, R67, R70): blocks sent since the last marker instant, count of the next
marker, an extra marker due (R58), the last 58 payload bits sent, the last bits of the PRBS generator, an error to
inject into its next bit, and the lane setting (LANE_CTL 15:0) that the converter-die end of the lane last received over the
sideband (R46). -/
structure LaneTx where
  sent  : Nat
  count : Nat
  extra : Bool
  scr   : BitVec 58
  gen   : BitVec 31
  flip  : Bool
  ctl   : Nat
deriving DecidableEq, Repr

/-- A darning under way (R58, R62): logical lane, failed lane, spare, requests sent. -/
structure Darn where
  logical : Nat
  fromL   : Nat
  spare   : Nat
  sends   : Nat
deriving DecidableEq, Repr

/-- A stitch module (R55 to R66): degraded, TEST, TEST was set and the module is not aligned again since (R68), count of the last marker common to its lanes, sideband
state and runs, darnings under way, the lane on which the sending end sends each moved logical lane, and TEST as last
received at the converter-die end (R46). -/
structure Module where
  deg     : Bool
  test    : Bool
  again   : Bool
  common  : Option Nat
  sbLock  : Bool
  sbGood  : Nat
  sbBad   : Nat
  darns   : List Darn
  sendOn  : Tab Nat Nat
  farTest : Bool
deriving DecidableEq, Repr

/-- A converter die: sample clock locked, link aligned (R55), aligned at some time since reset, converter path faulty
(R72). -/
structure DieSt where
  clk   : Bool
  aligned : Bool
  ever  : Bool
  fault : Bool
deriving DecidableEq, Repr

/-- The four stitch links: dies, modules, lanes at their receiving and at their sending end; words taken on each
logical lane of a link since its start, and words dealt out at the sending end since the start (R49). -/
structure Sti where
  dies  : Tab Die DieSt
  mods  : Tab (Die × Nat) Module
  lanes : Tab (Die × Nat × Nat) Lane
  sends : Tab (Die × Nat × Nat) LaneTx
  rxn   : Tab (Die × Nat) Nat
  txn   : Tab Die Nat
  /-- Alignment buffer of each logical lane (R60): its last 16 blocks, newest first, each the word that it brought with its
  number on the lane (none: erased), or none where it brought none. -/
  buf   : Tab (Die × Nat) (List (Option (Nat × Option (BitVec 256))))
  /-- Words of the ADCs that wait for each logical lane of a receive link (R49). -/
  words : Tab (Die × Nat) (List (BitVec 256))
  /-- Count of the last marker on each logical lane, and the groups of four words taken on it by then (R49, R52). -/
  grp   : Tab (Die × Nat) (Nat × Nat)
deriving DecidableEq, Repr

/-! ### Receive front end, dispersion equaliser and Press (chapter 03) -/

/-- Uses of the blind estimator (R88, R90). -/
inductive EstKind where
  | commanded | tracking | acquisition
deriving DecidableEq, Repr

/-- A running SNR comparison of Press: the guard of R104 or the gain check of R105. -/
inductive PressCmp where
  | guard | gain
deriving DecidableEq, Repr

/-- A running comparison: its kind, the intervals of 10 ms it takes on each side, their MEAN_SNR before the boundary and
after it (R104, R105, R145). -/
structure PressRun where
  kind   : PressCmp
  window : Nat
  /-- The interval in which the boundary fell has not ended: it belongs to neither side. -/
  skip   : Bool
  before : List Nat
  after  : List Nat
deriving DecidableEq, Repr

/-- A coefficient set of Press, a value for each step (R99, R103): launch power code in γ_k, the dispersion from the
transmitter to the nonlinear point before the scaling of R101, in 10⁻⁶ ps/nm and units of 2⁻⁹⁶, the power-weighted
effective length in km in units of 2⁻⁹⁶, and the fibre type that selects filters and coefficient (R100). -/
structure PressSet where
  pow : List Nat
  at_ : List Int
  len : List Int
  fib : List Nat
deriving DecidableEq, Repr

/-- A sample instant past the converter corrections: the fields of X and Y, and how many of its four samples were
erased (R74). -/
structure Smp where
  x  : Cx
  y  : Cx
  er : Nat
deriving DecidableEq, Repr

/-- Front end of one carrier. -/
structure Fe where
  /-- CDE_STAT.STATE: 0 off, 1 generating, 2 running, 3 loading. -/
  cde      : Nat
  /-- Active dispersion CDE_ACT, the value a running regeneration generates, active trim Dt, all in ps/nm. -/
  act      : Int
  genD     : Int
  trim     : Int
  /-- The running estimate, its attempts so far, and the last result (CDE_EST, CDE_EST_Q). -/
  est      : Option EstKind
  tries    : Nat
  /-- First point and number of points of the running estimate's coarse scan (R88). -/
  estLo    : Int
  estN     : Nat
  estD     : Int
  conf     : Nat
  valid    : Bool
  /-- A valid estimate is in use (R90, R92). -/
  inUse    : Bool
  /-- The value committed for SOURCE or the regeneration of this boundary discards an estimate of the same cycle, and a
  TARGET committed in it stands (R92): device time of each. -/
  estCut   : Option Nat
  tgtAt    : Option Nat
  /-- The coefficient set in force, the set before, the set that waits (R103). -/
  set      : PressSet
  prevSet  : PressSet
  waitSet  : Option PressSet
  cmp      : Option PressRun
  reverts  : Nat
  followStop : Bool
  noGain   : Bool
  lastDelta : Nat
  /-- Last direction of ξ and the SNR of the last window (R106). -/
  xiUp     : Bool
  xiSnr    : Nat
  /-- Steps made transparent by AUTO_OFF (R105), by a retired engine (R109), and held back until heat allows (R552). -/
  autoOff  : Bool
  deadSteps : List Nat
  heldSteps : List Nat
  /-- Steps that a spare engine takes over at the next symbol-frame boundary (R109). -/
  takeover : List Nat
  /-- The waiting set is the previous one, restored by the guard (R104). -/
  restore  : Bool
  /-- What the stored table was generated from: dispersion, grid number, symbol rate; entries written since (R83, R85). -/
  gen      : Option (Int × Int × Nat)
  /-- The same of entries 65,536 to 131,071, which a generation with the smaller N leaves as they are (R82, R84). -/
  genHi    : Option (Int × Int × Nat)
  tab      : Tab Nat Word
  /-- The last samples of each converter before the interleave correction, none where erased (R73). -/
  ilTail   : List (List (Option Int))
  /-- Words that stitch delivered and the front end has not taken, by their number (R49; none: erased, R61), and the next
  group of four words to take. -/
  inq      : Tab Nat (Option (BitVec 256))
  inNext   : Nat
  /-- The words last committed to FE_DC and FE_IQ, which manual mode applies (R75, R76). -/
  dcCom    : Tab Nat Word
  iqCom    : Tab Nat Word
  /-- Values of the DC and IQ loops with their fractions (R75, R76), in units of 2⁻⁹⁶ of a field's unit; empty before the
  loops ran. -/
  dcAcc    : List Int
  iqAcc    : List (Int × Int)
  /-- The last samples of each converter before the skew stage, and the delays that the last symbol frame ended with
  (R78). -/
  skTail   : List (List Int)
  skOld    : List Int
  /-- Samples that wait for the equaliser, its overlap included (R80). -/
  eqIn     : List Smp
deriving DecidableEq, Repr

/-! ### Receive core and captures (chapter 04) -/

/-- Receive-core states, RXC_STAT.STATE (R134). -/
inductive RxSt where
  | disabled | waitInput | hunt | train | locked
deriving DecidableEq, Repr

/-- Phases of a capture (R148). -/
inductive CapSt where
  | armed | filling | draining
deriving DecidableEq, Repr

/-- A capture (R146 to R151): its command's parameters, how many entries were taken and poisoned, header fields. -/
structure Capture where
  st       : CapSt
  source   : Nat
  mask     : Nat
  count    : Nat
  trigger  : Nat
  event    : Nat
  sfc      : Nat
  region   : Nat
  offset   : Nat
  taken    : Nat
  poisoned : Nat
  flags    : Nat
  dtime    : Nat
  startSym : Nat
  rate     : Nat
  scCount  : Nat
  taps     : Nat
  pilot    : Nat
  sfcFirst : Nat
  /-- The instant of the first entry has come: for taps, the symbol-frame boundary of their snapshot (R146, R149). -/
  snap     : Bool
  /-- Entries taken from the signals that State holds, and taps as they stood at their snapshot (R146, R150). -/
  got      : Bytes
deriving DecidableEq, Repr

/-- A sample at the receive core's input (R117): X, Y, and the erased fraction of its equaliser block in 1/256 (R74). -/
structure CoreSmp where
  x : Cx
  y : Cx
  f : Nat
deriving DecidableEq, Repr

/-- Sums over known symbols of one subcarrier and polarisation (R142): their number and Σ |y|²; the number of those with a
known symbol on each side, and Σ |e|² of what these deviate from the mean of the two. -/
structure ScSum where
  n   : Nat
  yy  : Int
  m   : Nat
  ee  : Int
deriving DecidableEq, Repr

/-- Receive core of one carrier. -/
structure Rxc where
  st        : RxSt
  /-- The alignment detections in HUNT, newest first: time in samples and frequency hypothesis (R134). -/
  det       : List (Nat × Int)
  /-- Runs of symbol frames: pilot SNR good in TRAIN, frames in TRAIN, alignment blocks missed, pilot SNR low in
  LOCKED, frames in HUNT. -/
  good      : Nat
  inTrain   : Nat
  missed    : Nat
  low       : Nat
  inHunt    : Nat
  /-- Received symbol-frame count RXC_SFC. -/
  sfc       : Nat
  /-- PILOT in force in the receive core; a committed PILOT waits for the next symbol-frame boundary (R137). -/
  pilot     : Nat
  freq      : Int
  clk       : Int
  mean      : Nat
  min       : Nat
  /-- SNR_X, SNR_Y, SNR and NOISE of each subcarrier (R142): RXC_SNR and RXC_NOISE words. -/
  snr       : List Word
  noise     : List Word
  /-- The running window lies wholly in LOCKED so far and no commit interrupted it (R143). -/
  winOk     : Bool
  frozen    : Bool
  /-- Windows in a row below and at or above the SNR-degraded levels (R152). -/
  degLow    : Nat
  degHigh   : Nat
  /-- Symbol frames for which the input is still interrupted by a change of STEPS (R95). -/
  interrupted : Nat
  /-- MEAN_SNR of the last 10 ms intervals, newest first (R145). -/
  mean10    : List Nat
  mean10ok  : Bool
  cap       : Option Capture
  /-- Samples at the input, their first one's number counted since the input became valid, and the number of the first
  sample of the symbol frame that runs, in 2⁻³² samples (R117, R134). -/
  inp       : List CoreSmp
  inpAt     : Nat
  framePos  : Nat
  /-- Equaliser taps: for each subcarrier h_XX, h_XY, h_YX, h_YY (R124 to R127). -/
  taps      : List (List (List Cx))
  /-- Phase correction of each subcarrier's X and Y at the last pilot (R132). -/
  phase     : List (Cx × Cx)
  /-- Known symbols of the running window, of the running 10 ms, and of each of the last 1,024 symbol frames, newest first,
  per subcarrier X then Y (R138, R142 to R145). -/
  sums      : List (ScSum × ScSum)
  sums10    : List (ScSum × ScSum)
  noiseF    : List (List (ScSum × ScSum))
deriving DecidableEq, Repr

/-! ### Line code (chapter 05) -/

/-- Block-aligner states (R161). -/
inductive FecSt where
  | idle | hunt | locked
deriving DecidableEq, Repr

/-- A block in the decoder's window (R164, R170): the signs of its LLRs in the order of v (R155), its rate code, whether
any of its LLRs carries an erased fraction above 0, whether it serves only as coupling context, and its LLRs as the
decoder holds them where it took them from the receive core. -/
structure FecBlk where
  signs   : BitVec 40320
  rate    : Nat
  erased  : Bool
  context : Bool
  llr     : Option (List Int)
deriving DecidableEq, Repr

/-- Line code of one carrier, receive side. -/
structure Fec where
  st       : FecSt
  pos      : Nat
  huntN    : Nat
  /-- Detected rate of the rate-mismatch defect (R163). -/
  detRate  : Option Nat
  /-- For each rate code the run of blocks failing at the active rate and passing at it; run passing at the active rate; run
  passing at no rate (R161, R163). -/
  mis      : List Nat
  actRun   : Nat
  noneRun  : Nat
  /-- Rates at which the last two blocks passed the test, newest first: the active one where none did (R156, R163). -/
  seen     : List Nat
  /-- The armed rate watch: new rate and target multiframe (R172). -/
  watch    : Option (Nat × Nat)
  actRate  : Nat
  /-- The window, newest first (R164), and the blocks still to be taken as context only. -/
  win      : List FecBlk
  ctxLeft  : Nat
  /-- LLR input has stopped and the window is being flushed; true when LLRs arrive again before that is over (R161,
  R164). -/
  flush    : Option Bool
  /-- The last two blocks that left, as decoded, newest first, each with its rate (R156, R165). -/
  left     : List (BitVec 40320 × Nat)
  /-- LLRs from the receive core in stream order that no block has taken, each with its erased fraction (R139, R140), and
  delivered blocks whose information bits the framer has not taken: rate, bits, uncorrected flag (R164, R165), with the
  stream position of the first such bit, counted since block lock. -/
  llrs     : List (Int × Nat)
  info     : List (Nat × BitVec 40320 × Bool)
  infoAt   : Nat
  /-- The running 100 ms interval (R173): decoded bits, corrected bits, blocks, passes, wholly in LOCKED. -/
  bitsDec  : Nat
  bitsCor  : Nat
  blocks   : Nat
  passes   : Nat
  whole    : Bool
  ber      : Nat
  margin   : Nat
  avgPass  : Nat
  degLow   : Nat
  degHigh  : Nat
  /-- Uncorrected blocks of the running 10 ms interval and runs of intervals (R175). -/
  unc10    : Nat
  uncRun   : Nat
  okRun    : Nat
deriving DecidableEq, Repr

/-! ### Transmit chain (chapter 06) -/

/-- Output states, TX_STAT.STATE (R194). -/
inductive TxSt where
  | off | rampUp | on | rampDown | squelched | forced
deriving DecidableEq, Repr

/-- A queued Tack frame (R339): type, payload, whether it was cut once already (R334). -/
structure TkFrame where
  typ   : Nat
  body  : Bytes
  again : Bool
deriving DecidableEq, Repr

/-- The burst in progress (R332, R333): its frame, alone or live, spreading factor, repetition code, ramp in µs,
device times (2⁻¹⁶ ns) of its start and end, cut, and the bytes that it sends. -/
structure Burst where
  frame : TkFrame
  alone : Bool
  sf    : Nat
  rep   : Nat
  ramp  : Nat
  start : Nat
  stop  : Nat
  cut   : Bool
  bytes : Bytes
deriving DecidableEq, Repr

/-- What a symbol frame is sent with (R180 to R193, R199): subcarriers, roll-off code, pilot spacing, symbol rate in kBd,
TEST, entropy and GAIN of each subcarrier, whether the chain ran, device time of its start, and the Tack burst then in
progress. -/
structure TxFrame where
  sc    : Nat
  roll  : Nat
  pilot : Nat
  kbd   : Nat
  test  : Nat
  ents  : List Nat
  gains : List Int
  run   : Bool
  start : Nat
  burst : Option Burst
deriving DecidableEq, Repr

/-- A mapped symbol frame (R113, R185, R186): for each subcarrier its symbols on X and Y. -/
structure TxMapped where
  cfg  : TxFrame
  syms : List (List (Cx × Cx))
deriving DecidableEq, Repr

/-- Transmit chain of one carrier. `chain`: the encoder's chain runs (R180). `rxLol`: the
RX_LOL cause is active under its hold time (R195). `probing`: a probe of R197 runs. `clipLow`: 1 ms intervals in a row
below half the threshold (R200). `pilot`, `ents`: PILOT and entropies in the symbol frames being
sent, which follow a multiframe boundary at the next symbol frame (R181, R187). -/
structure TxCh where
  st      : TxSt
  chain   : Bool
  probing : Bool
  rxLol   : Bool
  clipLow : Nat
  pilot   : Nat
  ents    : List Nat
  /-- Information bits that wait for the encoder, the number of them encoded since the chain started, the code rates that
  start with later blocks as (first information bit, rate), and the last two blocks, newest first (R156, R171). -/
  info    : List Bool
  encPos  : Nat
  sched   : List (Nat × Nat)
  encPrev : List (BitVec 40320 × Nat)
  /-- Coded bits in stream order (R158), and symbol frames begun that wait for theirs, oldest first. -/
  coded   : List Bool
  frames  : List TxFrame
  /-- Generator of TEST 1 (R199). -/
  test31  : BitVec 31
  /-- The last two symbol frames mapped, newest first, and the last samples that each stage needs of those before:
  pre-compensation, then pre-emphasis and skew for each DAC (R189 to R192). -/
  mapped  : List TxMapped
  pcTail  : List (Cx × Cx)
  peTail  : List (List Int)
  skTail  : List (List Int)
  skOld   : List Int
  /-- The ramp (R194): position in units of 2⁻⁹⁶ of a whole ramp when it began, device time of that, length in µs. -/
  rampPos : Int
  rampAt  : Nat
  rampUs  : Nat
  /-- Words of the DACs that wait for each logical lane of the transmit link (R49). -/
  words   : Tab Nat (List (BitVec 256))
  /-- Samples sent and samples that clipping changed in the running 1 ms, for each DAC (R193, R200). -/
  clipN   : List Nat
  /-- The FORCED state of the last power-on or warm reset still stands (R194). -/
  resetForced : Bool
deriving DecidableEq, Repr

/-! ### Bit loading (chapter 07). Plan records are the 48 bytes of R206, little-endian. -/

/-- A plan that a COMMIT or a pending commit carries: record, target, FLAGS and channel map of R210. -/
structure PlanMsg where
  body   : Bytes
  target : Nat
  flags  : Nat
  map    : Bytes
deriving DecidableEq, Repr

/-- A channel shed by plans, with what restoring puts back (R223, R225). -/
structure ShedCh where
  ch  : Nat
  a   : Nat
  b   : Nat
  bond : Bool
deriving DecidableEq, Repr

/-- Recovery of R221: the previous and the new record, whether the new one is in use, swaps so far; the receive slot
map's values under the previous record where the new one's stand; the other candidate applies at the next multiframe
boundary; what the new record sheds or restores has been reported. -/
structure Recov where
  prev  : PlanMsg
  next  : PlanMsg
  onNew : Bool
  swaps : Nat
  back  : Tab RegKey (Word × Word)
  due   : Bool
  told  : Bool
deriving DecidableEq, Repr

/-- Bit loading of one carrier, both roles. -/
structure Plan where
  computed   : Option Bytes
  /-- A record that waits for approval (R213). -/
  awaiting   : Option Bytes
  txRec      : Bytes
  rxRec      : Bytes
  lastReject : Nat
  /-- Loaded end: the pending plan, the last COMMIT sent (for repeats and QUERY). -/
  txPend     : Option PlanMsg
  lastCommit : Option PlanMsg
  /-- Proposer: the proposal in flight and its sends. -/
  prop       : Option Bytes
  sends      : Nat
  /-- Valid plans held for arming (R216), by proposal or COMMIT. -/
  valid      : List PlanMsg
  rxPend     : Option PlanMsg
  recov      : Option Recov
  lost       : Bool
  /-- A query under way: epoch and sends (R222). -/
  query      : Option (Nat × Nat)
  /-- The last announcement bytes 0 to 6 and the run of good frames that repeat them; frame alignment was lost and the
  proposer has yet to react; runs of R226. -/
  ann        : Bytes
  annRun     : Nat
  alignLost  : Bool
  mismRun    : Nat
  eqRun      : Nat
  /-- Received multiframe count at which the last plan applied, the receive slot map's values that it changed, and the
  record before it (R221). -/
  appliedAt  : Option Nat
  undo       : Tab RegKey (Word × Word)
  prevRx     : Option PlanMsg
  lastRx     : Option PlanMsg
  /-- A cold apply that waits for the next symbol-frame boundary (R220, R222). -/
  cold       : Option PlanMsg
  shedList   : List ShedCh
  shedMap    : Bytes
  /-- Plan messages that wait for an open path (R209), and good ones received that no row has taken, oldest first (R253,
  R338). -/
  waitMsgs   : List Bytes
  inbox      : List Bytes
  /-- PLAN_CTL as the plan in flight took it, at the loaded end and at the proposer (R227). -/
  ctlTx      : Word
  ctlRx      : Word
  /-- What arming took from staging; the pending plan's slots on the other carrier, which change there at the same target, and
  what they replaced where that was reached first (R224, R225). -/
  took       : Tab RegKey (Word × Word)
  side       : Option (Nat × Tab RegKey (Word × Word))
  sideUndo   : Tab RegKey (Word × Word)
  /-- Channels that plans have taken out of the receive maps, with the slots they held there (R225). -/
  rxShed     : List ShedCh
deriving DecidableEq, Repr

/-! ### Transport frame (chapter 08) -/

/-- Framer states, TR_STAT.STATE (R239). -/
inductive TrSt where
  | hunt | frame | aligned
deriving DecidableEq, Repr

/-- A received frame as it reaches the framer: its bits from one bit before the expected position on, in bytes, and the
byte ranges (first, end) of the frame that came from uncorrected code blocks. -/
structure RxWin where
  bits : Bytes
  unc  : List (Nat × Nat)
deriving DecidableEq, Repr

/-- A hunt candidate (R240): bit position of its last header, matches, NEXT and FN of that header, the frame before its
last header and the frame with it. -/
structure Cand where
  pos     : Nat
  matched : Nat
  next    : Nat
  fn      : Nat
  prev    : Option RxWin
  last    : RxWin
deriving DecidableEq, Repr

/-- A trace receiver (R249, R250): bytes of the cycle being received (none while a cycle's start is awaited), the last
whole cycle, how many identical whole cycles in a row, the accepted trace. -/
structure Trace where
  cyc  : Option Bytes
  last : Bytes
  same : Nat
  acc  : Bytes
  has  : Bool
deriving DecidableEq, Repr

/-- A channel copy's overhead on one carrier (R237, R244 to R250): computed PBIP of the frame before and whether it may
be compared, PBEI pending count, PBIP of the frame sent before, RDI runs, trace, BIP errors of the 10 ms interval and
runs of intervals. -/
structure Path where
  bip     : Nat
  txBip   : Nat
  pend    : Nat
  rdiRun  : Nat
  noRdi   : Nat
  trace   : Trace
  bip10   : Nat
  badRun  : Nat
  goodRun : Nat
  /-- Client signal fail in the last overhead received (TR_PATH_STAT.CSF_RX). -/
  csf     : Bool
deriving DecidableEq, Repr

/-- Framer and transmit framing of one carrier. -/
structure Tr where
  -- transmit side
  /-- X of R228 since the chain started, as a fraction xn / xd of information bits; the part of the running frame
  already counted, in 2⁻¹⁶ ns. -/
  xn      : Nat
  xd      : Nat
  xAt     : Nat
  /-- Encoder: rate in force, the rate that waits for the next block, first information bit of the current block. -/
  encRate : Nat
  encNext : Option Nat
  blk0    : Nat
  /-- The frame begun at the last tick: ⌊X⌋ there, and its bytes with NEXT still zero, before scrambling. -/
  cur     : Option (Nat × Bytes)
  sbip    : Nat
  sbei    : Nat
  /-- The last frame begun carries section RDI (R248). -/
  rdiTx   : Bool
  /-- Message channel (R251, R252): Plaile's queue, your queue, the message being sent: whose, bytes left, begun. -/
  own     : List Bytes
  yours   : List Bytes
  sending : Option (Bool × Bytes × Bool)
  -- receive side
  st      : TrSt
  cands   : List Cand
  fails   : Nat
  fn      : Nat
  /-- FN of the last good header (R242). -/
  hfn     : Nat
  next    : Nat
  /-- Stream position of the current header (R241). -/
  hpos    : Nat
  mfc     : Nat
  grp     : Option Bytes
  /-- Values of the good MFC groups of the running multiframe (true) and of the one before; the running multiframe's count
  once two of them agree (R239). -/
  good    : List (Nat × Bool)
  ready   : Option Nat
  fnBad   : Nat
  grpBad  : Nat
  held    : Nat
  rdiRun  : Nat
  noRdi   : Nat
  trace   : Trace
  shortRun : Nat
  longRun : Nat
  rbip    : Option Nat
  bip10   : Nat
  badRun  : Nat
  goodRun : Nat
  whole   : Bool
  msg     : Option Bytes
  /-- Messages whose last cell has come, which wait for their check (R253), oldest first. -/
  whole1  : List Bytes
  /-- Device time in ns of the last received multiframe boundary. -/
  mfAt    : Nat
  paths   : Tab Nat Path
deriving DecidableEq, Repr

/-! ### Line cipher (chapter 09) -/

/-- A key-table entry (R267), its targets (R268; none: not yet known), whether it still waits to take over in the
transmit direction and on each receiving carrier, and whether poison lost its keys (R271). -/
structure KeyEnt where
  epoch  : Nat
  txKey  : Bytes
  rxKey  : Bytes
  txTgt  : Option Nat
  rxTgt  : Option Nat
  txNew  : Bool
  rxNewA : Bool
  rxNewB : Bool
  txLost : Bool
  rxLost : Bool
deriving DecidableEq, Repr

/-- A running GCM invocation (R262): key (empty: in clear), epoch, multiframe, the bytes of the channel's payload as on
the line, MAP bytes, whether the multiframe is unchecked (R265). -/
structure Inv where
  key   : Bytes
  epoch : Nat
  mfc   : Nat
  body  : Bytes
  maps  : Bytes
  bad   : Bool
  /-- Payload bytes of the multiframe that went by before the invocation started (R262). -/
  off   : Nat
deriving DecidableEq, Repr

/-- A channel copy's transmit invocation on a carrier, and the tag of the multiframe before (R264). -/
structure CiphOut where
  run : Inv
  tag : Bytes
deriving DecidableEq, Repr

/-- A channel's receive direction on a carrier: the place in use (none: in clear), the fallback place of R269, runs of
failed, passed and skewed multiframes, a switch that waits for the next boundary (R269), EN becoming 0 (R272), the
running invocation, the one that waits for its tag, and the tag received (none when its frame was errored). -/
structure CiphIn where
  place  : Option Nat
  fall   : Option Nat
  fails  : Nat
  passes : Nat
  skews  : Nat
  skewTo : Option Nat
  clear  : Bool
  run    : Inv
  done   : Option Inv
  tag    : Option (Option Bytes)
  /-- The copy owns slots in the running multiframe; that multiframe is already counted as unchecked (R265). -/
  own    : Bool
  told   : Bool
deriving DecidableEq, Repr

/-- A channel's cipher state: the two places, the place transmit uses (none: in clear), soft limit reached, payload
zeroed (R270), EN becoming 0 for transmit (R272), and the directions on each carrier. -/
structure CiphCh where
  p0    : Option KeyEnt
  p1    : Option KeyEnt
  tx    : Option Nat
  soft  : Bool
  zero  : Bool
  clear : Bool
  outA  : CiphOut
  outB  : CiphOut
  inA   : CiphIn
  inB   : CiphIn
deriving DecidableEq, Repr

/-- A key-agreement session of a carrier (R273 to R277): CIPH_KA.STATE, whether this end is the initiator, SESSION,
LAST_ERR, the loaded peer key, sends of the message that waits for an answer, channels and epoch of the exchange,
those of its channels that the schedule brought, message bodies as sent or received, ML-KEM decapsulation key and shared secret. -/
structure Ka where
  state   : Nat
  init    : Bool
  session : Nat
  lastErr : Nat
  peer    : Bytes
  sends   : Nat
  chans   : List Nat
  epoch   : Nat
  sched   : List Nat
  initB   : Bytes
  respB   : Bytes
  confB   : Bytes
  dk      : Bytes
  key     : Bytes
  /-- The cryptographic operation that runs: 0 none, 1 towards INIT, 2 towards RESP, 3 towards CONFIRM. -/
  step    : Nat
  /-- Channels that wait for the next exchange (R273), those of them that the schedule brought, and those of a failed
  scheduled exchange (R277). -/
  due     : List Nat
  dueS    : List Nat
  retry   : List Nat
  /-- Messages that wait for a path (R278), and good ones received that no row has taken, oldest first (R253, R338). -/
  waitMsg : List Bytes
  inbox   : List Bytes
deriving DecidableEq, Repr

/-- The line cipher. -/
structure Ciph where
  ch : Tab Nat CiphCh
  kaA : Ka
  kaB : Ka
deriving DecidableEq, Repr

/-! ### Seam (chapter 10) -/

/-- Causes of a copy's condition (R291), as Seam sees them on one carrier for one channel. -/
structure Copy where
  /-- PSF, authentication fail and path degraded as they now stand, and as they apply under R287 after their delay. -/
  psf     : Bool
  auth    : Bool
  sd      : Bool
  psfD    : Bool
  authD   : Bool
  sdD     : Bool
  /-- The copy owns no slots (R223, R291) and the window is exceeded (R304), each as it stands and as it applies; the copy is late,
  is in refill (R292). -/
  absent  : Bool
  absentD : Bool
  win     : Bool
  winD    : Bool
  late    : Bool
  refill  : Bool
  /-- A frame of the running multiframe arrived after its P; multiframes in a row in which one did. -/
  lateNow : Bool
  lateRun : Nat
  /-- First frame (MFC × 256 + FN) written to the ring since refill began (R292). -/
  first   : Option Nat
deriving DecidableEq, Repr

/-- A received channel part: frame MFC × 256 + FN, carrier, channel, decrypted payload, errored, MAP byte, bit 2 of
PBEI_RDI. -/
structure Part where
  frame : Nat
  car   : Carrier
  ch    : Nat
  body  : Bytes
  bad   : Bool
  map   : Nat
  csf   : Bool
  /-- The frame is errored (R255). -/
  frm   : Bool
deriving DecidableEq, Repr

/-- A bonded or protected channel at Seam. `cmd` is CH_STAT.CMD (0 none, 1 to 6); `sel` the selected copy; `req` the
rank in force; `wtr`, `hold`: timers running; `dropped`: left out of deskew (R302). -/
structure SeamCh where
  a       : Copy
  b       : Copy
  sel     : Carrier
  cmd     : Nat
  req     : Nat
  wtr     : Bool
  hold    : Bool
  dropped : Bool
  bonded  : Bool
  /-- The preferred copy was OK at the last decision, and the copy that its request selected (R295). -/
  prefOk  : Bool
  reqTo   : Carrier
deriving DecidableEq, Repr

/-- Seam's view of a receive carrier: it delivers multiframes, it returned too far from the clock's phase and waits for a
realignment (R285), and the runs of multiframe counts that it received in ALIGNED, newest first (R284). -/
structure SeamRx where
  on   : Bool
  out  : Bool
  runs : List (Nat × Nat)
deriving DecidableEq, Repr

/-- Seam's ring and clock. The latest paired multiframe gives the times at which its frame 0 left each framer, less
40,960 ns a multiframe, and the device time of the pairing (R284). `base` is the clock's phase: P of frame 0 of a
multiframe, less the same. `clock` is its reference (R285): none while it runs on by itself. -/
structure Seam where
  arr       : Option (Int × Int)
  pairAt    : Nat
  deltaUse  : Int
  /-- A multiframe was paired at some time (SEAM.STAT.LEAD). -/
  leadKnown : Bool
  base      : Option Int
  clock     : Option Carrier
  /-- The ring lies in FALLBACK; the deskew path is failed (R301); the ring waits for the next received multiframe
  boundary to be rebuilt (R302); device time of the last failure of the path (R305). -/
  onFall    : Bool
  deskFail  : Bool
  rebuild   : Bool
  failAt    : Option Nat
  overRun   : Nat
  underRun  : Nat
  unpaired  : Nat
  driftRun  : Nat
  /-- A realignment that waits for the lag carrier's next multiframe boundary: device time at which it was called for (R305). -/
  due       : Option Nat
  rxA       : SeamRx
  rxB       : SeamRx
  chans     : Tab Nat SeamCh
  /-- Received parts that wait for their P (R286), oldest first; the last frame given out at P. -/
  store     : List Part
  lastOut   : Option Nat
deriving DecidableEq, Repr

/-! ### Client ports and tributary channels (chapter 11) -/

/-- Ingress state of a client port (R322): defects, and runs of 10 ms intervals at and below UNC_THR. -/
structure Port where
  los    : Bool
  lol    : Bool
  hiUnc  : Bool
  uncRun : Nat
  okRun  : Nat
deriving DecidableEq, Repr

/-- A FlexE group (R312): calendar in use at ingress, calendar in use at egress, overhead lock, defect. -/
structure FlxGrp where
  cal    : Nat
  calTx  : Nat
  lock   : Bool
  defect : Bool
deriving DecidableEq, Repr

/-- A frame's part as Seam or a framer hands it to the demapper: frame number MFC × 256 + FN, payload, errored, MAP byte, whether no good MAP
byte came (R319). -/
structure RxPart where
  frame : Nat
  body  : Bytes
  bad   : Bool
  map   : Nat
  noMap : Bool
  /-- The frame is errored (R255). -/
  frm   : Bool
deriving DecidableEq, Repr

/-- A tributary channel (R317 to R324). Mapper: started, C, n_1 of the running multiframe, waiting stream bytes,
client signal fail sent. Demapper: IN, good parts of FN 255, 0, 1 in a row, C mod 257, reference MAP, last n, last
multiframes without a good FN 0 part, whether the last frame was guessed, loss of mapping. Then client signal fail
received with its runs, parts waiting for the demapper, replacement signal, shed (R223), calendar mismatch. -/
structure Chan where
  started : Bool
  txC     : Nat
  n1      : Nat
  fifo    : Bytes
  csfTx   : Bool
  mapIn   : Bool
  entry   : Nat
  rxC     : Nat
  refM    : Option Nat
  lastN   : Nat
  noZero  : Nat
  guessed : Bool
  mapLost : Bool
  csfRx   : Bool
  csfRun  : Nat
  noCsf   : Nat
  rxq     : List RxPart
  /-- The FN 0 part whose count the MAP byte of FN 1 will give (R319). -/
  zero    : Option RxPart
  /-- Replacement signal, and whether it was put out as electrical idle (R324). -/
  repl    : Bool
  replI   : Bool
  shed    : Bool
  calMis  : Bool
  /-- Stream bytes that a failed channel's mapper owes, in 1/256 byte (R323). -/
  owed    : Nat
  /-- The last frame that the demapper took, and its stream bytes since the last eighth block's end, each with its errored mark;
  none for bytes before the block phase (R317, R320). -/
  last    : Option Nat
  egress  : List (Option (Byte × Bool))
deriving DecidableEq, Repr

/-- The client block. -/
structure Cli where
  ports : Tab Nat Port
  grps  : Tab Nat FlxGrp
  ch    : Tab Nat Chan
deriving DecidableEq, Repr

/-! ### Tack channel (chapter 12) -/

/-- A preamble detector of a search (R341, R342): bin of the last peak, its count of the preamble (0 in SEARCH, 6 in
SYNC), and the symbols of SYNC taken so far: 2 sync symbols, then 2 down-chirps. -/
structure TkPre where
  bin  : Nat
  cnt  : Nat
  syms : Nat
deriving DecidableEq, Repr

/-- A completed detection (R342, R350): its search, the bin of its preamble, RSSI and SINR codes. -/
structure TkDet where
  which : TkSearch
  bin  : Nat
  rssi : Nat
  sinr : Nat
deriving DecidableEq, Repr

/-- Reassembly of one message type (R338): MSG_ID, NSEG, segments received. -/
structure Reasm where
  id   : Nat
  nseg : Nat
  segs : Tab Nat Bytes
deriving DecidableEq, Repr

/-- Tack of one carrier. -/
structure Tack where
  queue  : List TkFrame
  burst  : Option Burst
  /-- Values of TK_TX_CTL, TK_TX_TIME and TX_TACK.LEVEL that wait for the end of the burst (R334). -/
  waitVals : Tab RegKey (Word × Word)
  /-- A dying gasp to send when the cut burst's ramp ends: its reason (R355). -/
  gasp   : Option Nat
  /-- No more Tack until PFAIL_N is high again (R355). -/
  lock   : Bool
  /-- PFAIL_N fell during a warm reset: the gasp waits for the transmit chain (R569). -/
  gaspWait : Bool
  seq    : Nat
  /-- Next MSG_ID of each frame type (R338); messages the queue could not take (R339): type and message. -/
  ids    : Tab Nat Nat
  wait   : List (Nat × Bytes)
  /-- The detectors that are past SEARCH: search and whether it is the secondary (R341). -/
  dets   : Tab (TkSearch × Bool) TkPre
  /-- The frame in HEADER or PAYLOAD, and whether it is in PAYLOAD (R342). -/
  frame  : Option TkDet
  inPay  : Bool
  /-- A secondary's detection held while the frame is in SYNC or HEADER (R344). -/
  held   : Option TkDet
  /-- Integers w of the symbols received since the header began that no part of the frame has taken, and those of the held
  detection's frame (R330, R344). -/
  got    : List Nat
  kept   : List Nat
  hdr    : Bytes
  /-- Good frames that wait for their users: type and payload, oldest first (R342). -/
  users  : List (Nat × Bytes)
  cancel : Bool
  /-- A word of the buffer that holds the frame was read poisoned (R436). -/
  psn    : Bool
  reasm  : Tab Nat Reasm
  hello  : Bytes
  helloAt : Option Nat
  floor  : Nat
  /-- The frame receiver stayed in SEARCH throughout the running 10 ms (R350). -/
  calm   : Bool
  rssi   : Nat
  sinr   : Nat
deriving DecidableEq, Repr


/-! ### Crease map (chapter 13) -/

/-- A loss anomaly (R368, R369): span, bin, loss code, age, integrations in a row in which it failed to hold. -/
structure Anom where
  span : Nat
  bin  : Nat
  loss : Nat
  age  : Nat
  miss : Nat
deriving DecidableEq, Repr

/-- Fit of a span (R367): CM_FIT's fields, and the runs of its launch-deviation condition. -/
structure SpanFit where
  launch  : Nat
  loss    : Nat
  conf    : Nat
  valid   : Bool
  deviate : Bool
  devRun  : Nat
  okRun   : Nat
deriving DecidableEq, Repr

/-- Crease map of one carrier. -/
structure Crease where
  /-- An integration runs (R365); device time of its start in ns. -/
  run     : Bool
  start   : Nat
  seq     : Nat
  /-- The entries of R364 from bin 0; an entry not listed reads POWER 0x8000. -/
  map     : List Word
  fits    : Tab Nat SpanFit
  /-- Standing loss anomalies in the order they were raised: the first 64 are listed (R369). -/
  anoms   : List Anom
  full    : Bool
  /-- Steps the last integration found that no anomaly stands for yet: span, bin, loss code. -/
  cand    : List (Nat × Nat × Nat)
  slope   : Nat
  /-- Complete integrations in a row in which gain tilt and span-table mismatch held, and in which they did not. -/
  tiltRun : Nat
  tiltOk  : Nat
  misRun  : Nat
  misOk   : Nat
  next    : Nat
  /-- The integration whose history record is being written: device times of its start and end, share of the time in
  LOCKED in per cent (R371, R372). -/
  hist    : Option (Nat × Nat × Nat)
deriving DecidableEq, Repr


/-! ### Timing unit (chapter 14) -/

/-- Slot states (R383). -/
inductive SlotSt where
  | empty | failed | qualifying | valid | disqualified
deriving DecidableEq, Repr

/-- A reference slot: state, latest measurement in 1/16 ppb, stamp of the last edge in ns. -/
structure Slot where
  st   : SlotSt
  freq : Option Int
  ts   : Nat
deriving DecidableEq, Repr

/-- DPLL states (R388). -/
inductive DpllSt where
  | freerun | acquire | locked | holdover | lockedNew
deriving DecidableEq, Repr

/-- An entry of a frequency history (R391). -/
structure HistEnt where
  freq   : Int
  switch : Bool
  locked : Bool
deriving DecidableEq, Repr

/-- A DPLL: state, selected slot, output frequency, holdover value used, absorbed offset in ps, history,
next entry, newest consecutive LOCKED entries, a switch in the running second, locked throughout it. -/
structure Dpll where
  st     : DpllSt
  sel    : Option Nat
  freq   : Int
  hoUsed : Option Int
  phase  : Int
  hist   : Tab Nat HistEnt
  next   : Nat
  run    : Nat
  swSec  : Bool
  lockSec : Bool
  held   : Bool
deriving DecidableEq, Repr

/-- An output of the output DPLL: offset left to bleed in ps; source of a realignment that waits (R394). -/
structure OutSt where
  phase   : Int
  realign : Option Nat
deriving DecidableEq, Repr

/-- The timing unit. -/
structure Timing where
  slots : Tab Nat Slot
  dplls : Tab Nat Dpll
  outs  : Tab Nat OutSt
  root  : Bool
deriving DecidableEq, Repr

/-! ### Monitor converter and bias control (chapter 15) -/

/-- A running conversion (R408 to R411): input, whether it belongs to the scan, whether its result carries URGENT and
RESTARTED, open-wire check, conversion of a calibration run (R422), words since the last change of R409, valid words each
with its word count, over-range flags, reference unsettled. -/
structure Conv where
  input   : Nat
  scan    : Bool
  urgent  : Bool
  restart : Bool
  check   : Bool
  cal     : Bool
  words   : Nat
  vals    : List (Int × Nat)
  ovrHi   : Bool
  ovrLo   : Bool
  unset   : Bool
deriving DecidableEq, Repr

/-- A bias DAC's loop (R415 to R418): BIAS_VAL, word count at which the dither was enabled, runs of usable conversions
with a weak and with a good dither, last update skipped, BIAS_DEM. -/
structure Bias where
  val   : Nat
  dith0 : Nat
  weakN : Nat
  okN   : Nat
  hold  : Bool
  dem   : Word
deriving DecidableEq, Repr

/-- The decimation filters of R405: integrators and combs of the sinc⁴, modulo 2⁶⁴, and the last inputs of the half-band
and FIR stages, newest first. -/
structure MonChain where
  ints  : List (BitVec 64)
  combs : List (BitVec 64)
  hb    : List Int
  fir   : List Int
deriving DecidableEq, Repr

/-- The monitor. `urg`: urgent requests waiting, in order, each with whether a calibration run made it; `abort`: the
running scan conversion is aborted at the next word boundary; `aborts`: aborts of it in a row; `after`: the scan
conversion to run after the urgent ones: input, RESTARTED, URGENT, check. -/
structure Mon where
  conv   : Option Conv
  urg    : List (Nat × Bool)
  abort  : Bool
  aborts : Nat
  after  : Option (Nat × Bool × Bool × Bool)
  scans  : Nat
  words  : Nat
  intSet : Bool
  extSet : Bool
  supSet : Bool
  dcb    : Tab Nat Int
  res    : Tab Nat Word
  resT   : Tab Nat Nat
  bias   : Tab Nat Bias
  chain  : MonChain
deriving DecidableEq, Repr

/-! ### Calibration runs (chapter 16) -/

/-- States of a calibration instance, CAL_STAT.STATE. -/
inductive CalSt where
  | idle | pass1 | pass2 | ramp
deriving DecidableEq, Repr

/-- A calibration instance (R423 to R429): state, result, disagreeing field, pass 1 values, start and target values of
the ramp, ramp steps of 10 µs done, ramp length in ms, device time of the last run in ns; means of the conversions of the
running pass, oldest first (R422). -/
structure CalInst where
  st     : CalSt
  result : Nat
  dis    : Nat
  pass1  : List Int
  v0     : List Int
  v1     : List Int
  t      : Nat
  rampMs : Nat
  time   : Nat
  got    : List Int
deriving DecidableEq, Repr

/-! ### Memory integrity and CXL ports (chapter 17) -/

/-- An on-chip memory (R433 to R444): poisoned words with the halves written since each was poisoned (bit 0 low, bit 1
high; R446); words that hold an injected error of 1 or 2 bits (R460); words awaiting the re-read of R441; rows being
patched; patch entries used; last row patched; MEM_CE at the last whole second and consecutive quiet seconds (R459);
second of device time in which 0x1105 was last raised (R442); of a Press coefficient memory, the step that reads its poison
as γ_k = 0 (R436). -/
structure MemSt where
  poison  : Tab Nat Nat
  errs    : Tab Nat Nat
  reread  : List Nat
  copying : List Nat
  used    : Nat
  lastRow : Nat
  ce0     : Nat
  quiet   : Nat
  psnSec  : Option Nat
  step    : Option (Carrier × Nat)
deriving DecidableEq, Repr

/-- Memory integrity: starch done; rows that starch found faulty, to be reported once the management processor runs
(R439); MEM.LAST; the memories. `windows`: bytes of the table windows that software wrote and of the capture buffers
(Host.Cell), in canonical form. -/
structure MemInt where
  starch   : Bool
  starchEv : List (Nat × Nat)
  last     : Word
  mems     : Tab Nat MemSt
  windows  : List Host.Cell
deriving DecidableEq, Repr

/-- A CXL port (R450): up, lanes, rate code, capacity used in GiB. -/
structure CxlPort where
  up    : Bool
  width : Nat
  rate  : Nat
  cap   : Nat
deriving DecidableEq, Repr

/-- Region states (R457). -/
inductive RgnSt where
  | unassigned | starching | ready | failed
deriving DecidableEq, Repr

/-- A region: state, cause of FAILED, poisoned lines read in the running second, second of device time in which 0x110B
was last raised. -/
structure Rgn where
  st     : RgnSt
  cause  : Nat
  lines  : Nat
  psnSec : Option Nat
deriving DecidableEq, Repr

/-- CXL ports and regions. -/
structure Cxl where
  ports : Tab Nat CxlPort
  rgns  : Tab Nat Rgn
deriving DecidableEq, Repr

/-! ### Boot, trust, reset and thermal (chapters 20, 21) -/

/-- What the block keeps of a firmware image (R520): SVN, BUILD, KEY, the measurement M, and its source as
BOOT_STAT.SLOT numbers it. -/
structure FwImg where
  svn   : Nat
  build : Nat
  key   : Nat
  meas  : Bytes
  src   : Nat
deriving DecidableEq, Repr

/-- A failed image check to be reported once firmware runs (R524, R537): source, check code, SVN, BUILD. -/
structure BootFail where
  src   : Nat
  code  : Nat
  svn   : Nat
  build : Nat
deriving DecidableEq, Repr

/-- Boot, firmware, identity, attestation and debug (R520 to R538). -/
structure Boot where
  /-- BOOT_STAT.STATE: 0 starch, 1 waiting, 2 verifying, 3 running, 4 failed, 5 restarting. -/
  st         : Nat
  fail       : Nat
  srcPins    : Nat
  /-- Flash slots whose image failed in this boot (R523). -/
  tried      : List Nat
  fails      : List BootFail
  running    : Option FwImg
  /-- The image that ran before an activation (R529). -/
  prev       : Option FwImg
  staged     : Option FwImg
  stagedBody : Bytes
  dlFail     : Nat
  /-- FW_STAT.FLASH, the slot being written and its image. -/
  flash      : Nat
  flashSlot  : Nat
  flashImg   : Option FwImg
  /-- The management processor serves commands (R16). -/
  mpUp       : Bool
  /-- An activation is under way: the new image is not yet ready (R529). -/
  activating : Bool
  /-- The image that an activation gave up, with its check code, to be reported once firmware runs (R529, R537). -/
  reverted   : Option BootFail
  watchdog   : Bool
  resetEvent : Bool
  hostBoot   : Bool
  /-- OTP: count of R525, revoked signing keys, and the target of an advance under way. -/
  otpSvn     : Nat
  otpRevoked : List Nat
  otpTarget  : Option (Nat × List Nat)
  /-- ID_STAT.STATE: 0 not yet, 1 ready, 2 failed, 3 erased. -/
  idState    : Nat
  idTries    : Nat
  idSeed     : Bytes
  idPub      : Bytes
  ident      : Bytes
  cfgPending : Bool
  cfgDigest  : Bytes
  cfgDtime   : Nat
  cfgLast    : Nat
  attCnt     : Nat
  attReport  : Bytes
  /-- The report being signed: its command's ring and bytes 0 to 271. -/
  attBusy    : Option (Fn × Nat × Bytes)
  dbgUnlocked : Bool
  dbgChal    : Bytes
  dbgToken   : Tab Nat Byte
  /-- The TAP instruction now in force (R535), numbered as in chapter 20's list. -/
  tap        : Nat
deriving DecidableEq, Repr

/-- One shed action of R551, to be undone in reverse order. -/
inductive Shed where
  | aux
  | step (car : Carrier) (k : Nat)
  | passCap
deriving DecidableEq, Repr

/-- Power-on reset, warm reset, temperature and device time. -/
structure Sys where
  /-- PORST_N is low: the block is held in power-on reset (R540, R543). -/
  held      : Bool
  /-- Device time in units of 2⁻¹⁶ ns (R11): nanoseconds above bit 16, the fraction below. -/
  dtime     : Nat
  /-- Transmit multiframe count (R26) and frame number within it (R230). -/
  txMfc     : Nat
  txFn      : Nat
  rstCause  : Nat
  rstRail   : Nat
  /-- A warm reset is in progress (R544). -/
  warm      : Bool
  tj        : Int
  tjMax     : Nat
  warn      : Bool
  shedding  : Bool
  shutdown  : Bool
  shed      : List Shed
  /-- Consecutive 1 ms samples below the warning, shedding and shutdown exit temperatures (R550, R551). -/
  coolWarn  : Nat
  coolShed  : Nat
  coolShut  : Nat
  lifeFrac  : Nat
  lifeWarned : Bool
  /-- GLB.LIFE as last saved in flash, which outlives a reset (R553). -/
  lifeSaved : Option Nat
  /-- PFAIL_N is low (R355). -/
  pfail     : Bool
  /-- Model's own: the index of the next free value (see Config). -/
  fresh     : Nat
deriving DecidableEq, Repr

/-! ### The whole state -/

/-- The per-carrier units of one carrier (chapters 03 to 08, 12, 13). -/
structure Car where
  fe   : Fe
  rxc  : Rxc
  fec  : Fec
  tx   : TxCh
  plan : Plan
  tr   : Tr
  tk   : Tack
  cm   : Crease
deriving DecidableEq, Repr

/-- The state of the block: everything the spec gives it, and the queue of waiting commands, first in front. -/
structure State where
  sys     : Sys
  io      : Io
  regs    : Regs
  chk     : Tab Nat ChkUnit
  sti     : Sti
  carA    : Car
  carB    : Car
  ciph    : Ciph
  seam    : Seam
  cli     : Cli
  tim     : Timing
  mon     : Mon
  cal     : Tab Nat CalInst
  mem     : MemInt
  cxl     : Cxl
  boot    : Boot
  /-- Numbers of the Press step engines retired from the pool of 48 (R109). -/
  retired : List Nat
  pending : List Instr
deriving DecidableEq, Repr

/-- Reasons for a fault. The block has none: every command has an effect the spec gives, and a command whose
conditions fail has none (R3, R501). Safe: nothing is shut out by it. -/
inductive Fault where
deriving DecidableEq, Repr

/-- Reasons for a refusal. -/
inductive Refusal where
  /-- Raised by the arm of a command that has no meaning in this model; safe: nothing is claimed of it. -/
  | notModelled (mnemonic : String)
deriving DecidableEq, Repr

/-! ### Reset values -/

/-- A command ring at reset (R465, R497). -/
def ringReset : CmdRing := ⟨.disabled, 0, 0, 0, 0, [], false, none, []⟩

/-- An event ring at reset (R484). -/
def evRingReset : EvRing := ⟨0, 0, 0, 0, 0⟩

/-- A snapshot never taken (R505). -/
def snapReset : Snap := ⟨[], 0, 0, false⟩

/-- A stitch lane at reset: HUNT, position 0 (R53); a data lane carries its own logical lane. -/
def laneReset (l : Nat) : Lane :=
  { st := .hunt, pos := 0, run := 0, win := [], idle := false, carries := if l < 16 then some l else none, retr := false, mark := none,
    markL := none, since := 0, algn := false, scr := 0, chk := 0, crun := 0, sync := false, pbits := 0, perr := 0 }

/-- A sending end at reset: its first block is a marker of count 0, and its PRBS generator starts with ones (DESIGN CHOICE,
log 39). LANE_CTL resets to 0x0C. -/
def laneTxReset : LaneTx :=
  { sent := 0, count := 0, extra := false, scr := 0, gen := 0x7FFFFFFF, flip := false, ctl := 0x0C }

/-- A stitch module at reset. -/
def moduleReset : Module := ⟨false, false, false, none, false, 0, 0, [], [], false⟩

/-- A converter die at reset: clock unlocked, path faulty (R72, STI.DIE_STAT). -/
def dieReset : DieSt := ⟨false, false, false, true⟩

/-- The front end at reset: equaliser off, no estimate, Press without a set. -/
def feReset : Fe :=
  { cde := 0, act := 0, genD := 0, trim := 0, est := none, tries := 0, estLo := 0, estN := 0, estD := 0, conf := 0, valid := false,
    inUse := false, estCut := none, tgtAt := none, set := ⟨[], [], [], []⟩, prevSet := ⟨[], [], [], []⟩, waitSet := none, cmp := none, reverts := 0, followStop := false,
    noGain := false, lastDelta := noMeas, xiUp := true, xiSnr := noMeas, autoOff := false, deadSteps := [],
    heldSteps := [], takeover := [], restore := false, gen := none, genHi := none, tab := [], inq := [], inNext := 0, dcCom := [], iqCom := [],
    dcAcc := [],
    iqAcc := [], ilTail := [], skTail := [], skOld := [], eqIn := [] }

/-- The receive core at reset: DISABLED, no measurement. -/
def rxcReset : Rxc :=
  { st := .disabled, det := [], good := 0, inTrain := 0, missed := 0, low := 0, inHunt := 0, sfc := 0, pilot := 0,
    freq := 0, clk := 0, mean := noMeas, min := noMeas, snr := [], noise := [], winOk := false, frozen := false,
    degLow := 0, degHigh := 0, interrupted := 0, mean10 := [], mean10ok := false, cap := none, inp := [], inpAt := 0,
    framePos := 0, taps := [], phase := [], sums := [], sums10 := [], noiseF := [] }

/-- The line code at reset: IDLE. -/
def fecReset : Fec :=
  { st := .idle, pos := 0, huntN := 0, detRate := none, mis := [], actRun := 0, noneRun := 0, seen := [],
    watch := none, actRate := 4, win := [], ctxLeft := 0, flush := none, left := [], llrs := [], info := [], infoAt := 0, bitsDec := 0, bitsCor := 0, blocks := 0, passes := 0,
    whole := false, ber := 0xFFFFFFFF, margin := noMeas, avgPass := 0, degLow := 0, degHigh := 0, unc10 := 0, uncRun := 0,
    okRun := 0 }

/-- The transmit chain at reset: FORCED (R194). -/
def txReset : TxCh :=
  { st := .forced, chain := false, probing := false, rxLol := false, clipLow := 0, pilot := 0,
    ents := [], info := [], encPos := 0, sched := [], encPrev := [], coded := [], frames := [], test31 := 0x7FFFFFFF,
    mapped := [], pcTail := [], peTail := [], skTail := [], skOld := [], rampPos := 0, rampAt := 0, rampUs := 100, words := [],
    clipN := [0, 0, 0, 0], resetForced := true }

/-- Bit loading at reset: no record, no proposal. -/
def planReset : Plan :=
  { computed := none, awaiting := none, txRec := List.replicate 48 0, rxRec := List.replicate 48 0, lastReject := 0,
    txPend := none, lastCommit := none, prop := none, sends := 0, valid := [], rxPend := none, recov := none,
    lost := false, query := none, ann := [], annRun := 0, alignLost := false, mismRun := 0, eqRun := 0,
    appliedAt := none, undo := [], prevRx := none, lastRx := none, cold := none, shedList := [],
    shedMap := List.replicate 128 0, waitMsgs := [], inbox := [], ctlTx := 0, ctlRx := 0, took := [], side := none,
    sideUndo := [], rxShed := [] }

/-- A trace receiver at reset. -/
def traceReset : Trace := ⟨none, [], 0, List.replicate 64 0, false⟩

/-- A channel copy's overhead at reset. -/
def pathReset : Path := ⟨0, 0, 0, 0, 0, traceReset, 0, 0, 0, false⟩

/-- The framer at reset: HUNT. -/
def trReset : Tr :=
  { xn := 0, xd := 1, xAt := 0, encRate := 4, encNext := none, blk0 := 0, cur := none, sbip := 0, sbei := 0, rdiTx := false,
    own := [], yours := [], sending := none, st := .hunt, cands := [], fails := 0, fn := 0, hfn := 0, hpos := 0,
    next := 0, mfc := 0,
    grp := none, good := [], ready := none, fnBad := 0, grpBad := 0, held := 0, rdiRun := 0,
    noRdi := 0, trace := traceReset, shortRun := 0, longRun := 0, rbip := none, bip10 := 0, badRun := 0,
    goodRun := 0, whole := false, msg := none, whole1 := [], mfAt := 0, paths := [] }

/-- Tack at reset: empty queue, no burst, receiver in SEARCH. -/
def tkReset : Tack :=
  { queue := [], burst := none, waitVals := [], gasp := none, lock := false, gaspWait := false, seq := 0, ids := [], wait := [],
    dets := [], frame := none, inPay := false, held := none, got := [], kept := [], hdr := [], users := [], cancel := false, psn := false, reasm := [],
    hello := List.replicate 40 0, helloAt := none, floor := noMeas, calm := true, rssi := noMeas, sinr := noMeas }

/-- A span never fitted (R367, CM_FIT). -/
def fitReset : SpanFit := ⟨noMeas, noMeas, 0, false, false, 0, 0⟩

/-- The crease map at reset. -/
def cmReset : Crease :=
  { run := false, start := 0, seq := 0, map := [], fits := [], anoms := [], full := false, cand := [],
    slope := noMeas, tiltRun := 0, tiltOk := 0, misRun := 0, misOk := 0, next := 0, hist := none }

/-- One carrier's units at reset. -/
def carReset : Car := ⟨feReset, rxcReset, fecReset, txReset, planReset, trReset, tkReset, cmReset⟩

/-- No invocation under way: a multiframe that did not start here is unchecked. -/
def invReset : Inv := ⟨[], 0, 0, [], [], true, 0⟩

/-- A transmit direction at reset. -/
def ciphOutReset : CiphOut := ⟨invReset, List.replicate 16 0⟩

/-- A receive direction at reset: in clear. -/
def ciphInReset : CiphIn := ⟨none, none, 0, 0, 0, none, false, invReset, none, none, false, false⟩

/-- A channel's cipher state at reset: no entry, in clear. -/
def ciphChReset : CiphCh :=
  ⟨none, none, none, false, false, false, ciphOutReset, ciphOutReset, ciphInReset, ciphInReset⟩

/-- Key agreement at reset: idle, no peer key. -/
def kaReset : Ka :=
  { state := 0, init := false, session := 0, lastErr := 0, peer := [], sends := 0, chans := [], epoch := 0,
    sched := [], initB := [], respB := [], confB := [], dk := [], key := [], step := 0, due := [], dueS := [], retry := [],
    waitMsg := [], inbox := [] }

/-- A copy without a condition. -/
def copyReset : Copy := ⟨false, false, false, false, false, false, false, false, false, false, false, false, false, 0, none⟩

/-- A bonded or protected channel before any switch. -/
def seamChReset : SeamCh := ⟨copyReset, copyReset, .A, 0, 0, false, false, false, false, true, .A⟩

/-- Seam at reset. -/
def seamReset : Seam :=
  { arr := none, pairAt := 0, deltaUse := 0, leadKnown := false, base := none, clock := none, onFall := false,
    deskFail := false, rebuild := false, failAt := none, overRun := 0, underRun := 0, unpaired := 0, driftRun := 0,
    due := none, rxA := ⟨false, false, []⟩, rxB := ⟨false, false, []⟩, chans := [], store := [], lastOut := none }

/-- A client port at reset. -/
def portReset : Port := ⟨false, false, false, 0, 0⟩

/-- A FlexE group at reset. -/
def grpReset : FlxGrp := ⟨0, 0, false, false⟩

/-- A tributary channel at reset: mapper not started, demapper OUT. -/
def chanReset : Chan :=
  { started := false, txC := 0, n1 := 0, fifo := [], csfTx := false, mapIn := false, entry := 0, rxC := 0,
    refM := none, lastN := 0, noZero := 0, guessed := false, mapLost := false, csfRx := false, csfRun := 0, noCsf := 0,
    rxq := [], zero := none, repl := false, replI := false, shed := false, calMis := false, owed := 0, last := none,
    egress := [] }

/-- A reference slot at reset: EMPTY. -/
def slotReset : Slot := ⟨.empty, none, 0⟩

/-- A history entry never written. -/
def histReset : HistEnt := ⟨0, false, false⟩

/-- A DPLL at reset: FREERUN. -/
def dpllReset : Dpll :=
  { st := .freerun, sel := none, freq := 0, hoUsed := none, phase := 0, hist := [], next := 0,
    run := 0, swSec := false, lockSec := false, held := true }

/-- An output at reset. -/
def outReset : OutSt := ⟨0, none⟩

/-- A bias DAC at reset: mid-scale (MON.BIAS_VAL). -/
def biasReset : Bias := ⟨0x80000, 0, 0, 0, false, 0⟩

/-- The monitor at reset: no conversion yet. -/
def monReset : Mon :=
  { conv := none, urg := [], abort := false, aborts := 0, after := none, scans := 0, words := 0, intSet := false,
    extSet := false, supSet := false, dcb := [], res := [], resT := [], bias := [],
    chain := ⟨List.replicate 4 0, List.replicate 4 0, List.replicate 19 0, List.replicate 63 0⟩ }

/-- A calibration instance at reset. -/
def calReset : CalInst := ⟨.idle, 0, 0, [], [], [], 0, 0, 0, []⟩

/-- An on-chip memory at reset: clean, no patch. -/
def memReset : MemSt := ⟨[], [], [], [], 0, 0, 0, 0, none, none⟩

/-- A CXL port at reset: down. -/
def cxlPortReset : CxlPort := ⟨false, 0, 0, 0⟩

/-- A region at reset: UNASSIGNED. -/
def rgnReset : Rgn := ⟨.unassigned, 0, 0, none⟩

/-- A check unit at reset. -/
def chkReset : ChkUnit := ⟨0, []⟩

/-- Rings, records and outputs at reset: link down, no ring enabled. -/
def ioReset : Io :=
  { link := false, perst := false, rings := [], arb := ⟨1, 0, []⟩, evr := [], heldEv := [], msgTail := 0, pba := [], cnt := [],
    rem := [], wbuf := [], latch := [], snaps := [], evtw := [],
    defects := [⟨0x0205, 1, 0, 0⟩, ⟨0x0205, 1, 0, 1⟩, ⟨0x0205, 2, 0, 2⟩, ⟨0x0205, 2, 0, 3⟩,
                ⟨0x0206, 1, 0, 0⟩, ⟨0x0206, 1, 0, 1⟩, ⟨0x0206, 2, 0, 2⟩, ⟨0x0206, 2, 0, 3⟩],
    bw := [], bwSeq := 0, out := [] }

/-- Power-on state of what chapters 20 and 21 give, device time zero. -/
def sysReset : Sys :=
  { held := false, dtime := 0, txMfc := 0, txFn := 0, rstCause := 0, rstRail := 0, warm := false, tj := 0,
    tjMax := 0, warn := false, shedding := false, shutdown := false, shed := [], coolWarn := 0, coolShed := 0,
    coolShut := 0, lifeFrac := 0, lifeWarned := false, lifeSaved := none, pfail := false, fresh := 0 }

/-- Boot state at the release of power-on reset: starch runs, nothing booted, nothing in OTP. -/
def bootReset : Boot :=
  { st := 0, fail := 0, srcPins := 0, tried := [], fails := [], running := none, prev := none, staged := none,
    stagedBody := [], dlFail := 0, flash := 0, flashSlot := 0, flashImg := none, mpUp := false, activating := false,
    reverted := none, watchdog := false, resetEvent := true, hostBoot := false, otpSvn := 0, otpRevoked := [], otpTarget := none,
    idState := 0, idTries := 0, idSeed := [], idPub := [], ident := [], cfgPending := false, cfgDigest := [],
    cfgDtime := 0, cfgLast := 0, attCnt := 0, attReport := [], attBusy := none, dbgUnlocked := false, dbgChal := [],
    dbgToken := [], tap := 1 }

/-- The block right after the release of power-on reset (R540, R543): every register at its reset value, every
on-chip memory zero, no ring enabled, no command waiting. -/
def State.reset : State :=
  { sys := sysReset, io := ioReset, regs := ⟨[], [], []⟩, chk := [],
    sti := ⟨[], [], [], [], [], [], [], [], []⟩, carA := carReset, carB := carReset, ciph := ⟨[], kaReset, kaReset⟩, seam := seamReset,
    cli := ⟨[], [], []⟩, tim := ⟨[], [], [], false⟩, mon := monReset, cal := [], mem := ⟨false, [], 0, [], []⟩,
    cxl := ⟨[], []⟩, boot := bootReset, retired := [], pending := [] }

end Sys2Proof.Machine
end

