-- ==== Sys2Proof/Machine/RegMap.lean ====
section
/-! DEFINITION. The register map (R498 to R500 and the register tables of every chapter): for each register its BAR0
offset, its array strides and its fields with access type (R4), reset value and commit boundary (R19, R23). -/

namespace Sys2Proof.Machine

/-- Access types of R4. -/
inductive Acc where
  | ro | rw | rwm | sqc | wp | cnt
deriving DecidableEq, Repr

/-- Which scope of R23 a staged field belongs to: `tx`/`rx` name the register's own carrier. -/
inductive ScopeSel where
  | tx | rx | txA | txB | cli | seam | tim | mon | memx
deriving DecidableEq, Repr

/-- One field of a register table row. -/
structure Fld where
  hi  : Nat
  lo  : Nat
  acc : Acc
  rst : Nat
  stg : Option (BKind × ScopeSel)
deriving DecidableEq, Repr

/-- One register: offset of its first instance, (count, stride) of each array index from the outermost in, fields. -/
structure RegDesc where
  base : Nat
  dims : List (Nat × Nat)
  flds : List Fld
deriving DecidableEq, Repr

/-- The register tables. PF1's HST window (R463, R485) repeats the HST registers for its own rings; see `resolve`. -/
def RegId.desc : RegId → RegDesc
  | .GLB_ID => ⟨0x0000000, [], [⟨31, 16, .ro, 9266, none⟩, ⟨15, 8, .ro, 1, none⟩, ⟨7, 0, .ro, 16, none⟩]⟩
  | .GLB_DTIME_LO => ⟨0x0000010, [], [⟨31, 0, .ro, 0, none⟩]⟩
  | .GLB_DTIME_HI => ⟨0x0000014, [], [⟨31, 0, .ro, 0, none⟩]⟩
  | .GLB_DTIME_FRAC => ⟨0x0000018, [], [⟨15, 0, .ro, 0, none⟩]⟩
  | .GLB_COMMIT_STAT => ⟨0x0000100, [], [⟨8, 0, .ro, 0, none⟩]⟩
  | .GLB_TX_MFC_LO => ⟨0x0000108, [], [⟨31, 0, .cnt, 0, none⟩]⟩
  | .GLB_TX_MFC_HI => ⟨0x000010C, [], [⟨23, 0, .cnt, 0, none⟩]⟩
  | .GLB_PRESS_POOL => ⟨0x0000200, [], [⟨29, 24, .ro, 0, none⟩, ⟨21, 16, .ro, 48, none⟩, ⟨13, 8, .ro, 0, none⟩,
      ⟨5, 0, .ro, 0, none⟩]⟩
  | .GLB_CAL_CTL => ⟨0x0001000, [], [⟨15, 0, .rw, 10, none⟩]⟩
  | .GLB_CAL_CMD => ⟨0x0001004, [], [⟨31, 31, .wp, 0, none⟩, ⟨4, 0, .wp, 0, none⟩]⟩
  | .GLB_CAL_EVT => ⟨0x0001008, [], [⟨31, 24, .sqc, 0, none⟩, ⟨5, 0, .sqc, 0, none⟩]⟩
  | .GLB_CAL_STAT => ⟨0x0001100, [(24, 0x10)], [⟨23, 16, .ro, 0, none⟩, ⟨7, 4, .ro, 0, none⟩, ⟨1, 0, .ro, 0, none⟩]⟩
  | .GLB_CAL_CNT => ⟨0x0001104, [(24, 0x10)], [⟨31, 0, .cnt, 0, none⟩]⟩
  | .GLB_CAL_TIME_LO => ⟨0x0001108, [(24, 0x10)], [⟨31, 0, .ro, 0, none⟩]⟩
  | .GLB_CAL_TIME_HI => ⟨0x000110C, [(24, 0x10)], [⟨31, 0, .ro, 0, none⟩]⟩
  | .GLB_RST_STAT => ⟨0x0002000, [], [⟨6, 4, .ro, 0, none⟩, ⟨3, 0, .ro, 0, none⟩]⟩
  | .GLB_RST_CMD => ⟨0x0002004, [], [⟨31, 16, .wp, 0, none⟩, ⟨0, 0, .wp, 0, none⟩]⟩
  | .GLB_THERM_CTL => ⟨0x0002010, [], [⟨31, 24, .rw, 105, none⟩, ⟨23, 16, .rw, 110, none⟩, ⟨15, 8, .rw, 5, none⟩,
      ⟨0, 0, .rw, 1, none⟩]⟩
  | .GLB_THERM_STAT => ⟨0x0002014, [], [⟨31, 24, .ro, 0, none⟩, ⟨15, 10, .ro, 0, none⟩, ⟨9, 9, .ro, 0, none⟩,
      ⟨8, 8, .ro, 0, none⟩, ⟨1, 0, .ro, 0, none⟩]⟩
  | .GLB_THERM_EVT => ⟨0x0002020, [], [⟨31, 24, .sqc, 0, none⟩, ⟨5, 0, .sqc, 0, none⟩]⟩
  | .GLB_LIFE_LO => ⟨0x0002030, [], [⟨31, 0, .cnt, 0, none⟩]⟩
  | .GLB_LIFE_HI => ⟨0x0002034, [], [⟨31, 0, .cnt, 0, none⟩]⟩
  | .GLB_LIFE_CTL => ⟨0x0002038, [], [⟨7, 0, .rw, 80, none⟩]⟩
  | .GLB_TJ_MAX => ⟨0x000203C, [], [⟨7, 0, .ro, 0, none⟩]⟩
  | .HST_RING_CTL => ⟨0x0100000, [(64, 0x40)], [⟨31, 31, .rw, 0, none⟩, ⟨30, 29, .rw, 0, none⟩,
      ⟨28, 24, .rw, 6, none⟩, ⟨23, 23, .wp, 0, none⟩, ⟨21, 16, .rw, 0, none⟩]⟩
  | .HST_RING_STAT => ⟨0x0100004, [(64, 0x40)], [⟨3, 2, .ro, 0, none⟩, ⟨1, 0, .ro, 0, none⟩]⟩
  | .HST_RING_BASE_LO => ⟨0x0100008, [(64, 0x40)], [⟨31, 0, .rw, 0, none⟩]⟩
  | .HST_RING_BASE_HI => ⟨0x010000C, [(64, 0x40)], [⟨31, 0, .rw, 0, none⟩]⟩
  | .HST_CPL_BASE_LO => ⟨0x0100010, [(64, 0x40)], [⟨31, 0, .rw, 0, none⟩]⟩
  | .HST_CPL_BASE_HI => ⟨0x0100014, [(64, 0x40)], [⟨31, 0, .rw, 0, none⟩]⟩
  | .HST_RING_ALIVE => ⟨0x0100018, [(64, 0x40)], [⟨15, 0, .rw, 0, none⟩]⟩
  | .HST_RING_CONS => ⟨0x010001C, [(64, 0x40)], [⟨31, 0, .ro, 0, none⟩]⟩
  | .HST_RING_HALT_CNT => ⟨0x0100020, [(64, 0x40)], [⟨31, 0, .cnt, 0, none⟩]⟩
  | .HST_ARB => ⟨0x0103000, [], [⟨23, 16, .rw, 1, none⟩, ⟨15, 8, .rw, 2, none⟩, ⟨7, 0, .rw, 8, none⟩]⟩
  | .HST_EVT => ⟨0x0103020, [], [⟨31, 24, .sqc, 0, none⟩, ⟨7, 0, .sqc, 0, none⟩]⟩
  | .HST_DB_BAD => ⟨0x0103030, [], [⟨31, 0, .cnt, 0, none⟩]⟩
  | .HST_DB => ⟨0x0140000, [(64, 0x1000)], [⟨31, 0, .rw, 0, none⟩]⟩
  | .EVT_EVR_CTL => ⟨0x0200000, [(4, 0x40)], [⟨31, 31, .rw, 0, none⟩, ⟨30, 30, .rw, 0, none⟩,
      ⟨28, 24, .rw, 6, none⟩, ⟨23, 18, .rw, 0, none⟩, ⟨17, 10, .rw, 1, none⟩, ⟨9, 0, .rw, 20, none⟩]⟩
  | .EVT_EVR_BASE_LO => ⟨0x0200008, [(4, 0x40)], [⟨31, 0, .rw, 0, none⟩]⟩
  | .EVT_EVR_BASE_HI => ⟨0x020000C, [(4, 0x40)], [⟨31, 0, .rw, 0, none⟩]⟩
  | .EVT_EVR_HEAD => ⟨0x0200010, [(4, 0x40)], [⟨31, 0, .rw, 0, none⟩]⟩
  | .EVT_EVR_TAIL => ⟨0x0200014, [(4, 0x40)], [⟨31, 0, .ro, 0, none⟩]⟩
  | .EVT_EVR_SEQ => ⟨0x0200018, [(4, 0x40)], [⟨31, 0, .ro, 0, none⟩]⟩
  | .EVT_EVR_LOST => ⟨0x020001C, [(4, 0x40)], [⟨31, 0, .cnt, 0, none⟩]⟩
  | .EVT_EVR_ROUTE0 => ⟨0x0200200, [], [⟨31, 0, .rw, 0, none⟩]⟩
  | .EVT_EVR_ROUTE1 => ⟨0x0200204, [], [⟨31, 0, .rw, 0, none⟩]⟩
  | .EVT_MSG_BASE_LO => ⟨0x0200300, [], [⟨31, 0, .rw, 0, none⟩]⟩
  | .EVT_MSG_BASE_HI => ⟨0x0200304, [], [⟨31, 0, .rw, 0, none⟩]⟩
  | .EVT_MSG_CTL => ⟨0x0200308, [], [⟨31, 31, .rw, 0, none⟩, ⟨3, 0, .rw, 4, none⟩]⟩
  | .EVT_MSG_HEAD => ⟨0x020030C, [], [⟨31, 0, .rw, 0, none⟩]⟩
  | .EVT_MSG_TAIL => ⟨0x0200310, [], [⟨31, 0, .ro, 0, none⟩]⟩
  | .EVT_MSG_DROP => ⟨0x0200314, [], [⟨31, 0, .cnt, 0, none⟩]⟩
  | .EVT_SUM => ⟨0x0200400, [], [⟨14, 0, .ro, 0, none⟩]⟩
  | .MEM_CTL => ⟨0x0300000, [], [⟨31, 16, .rw, 1024, some (.tf, .memx)⟩, ⟨11, 0, .rw, 1000, some (.tf, .memx)⟩]⟩
  | .MEM_STAT => ⟨0x0300004, [], [⟨15, 8, .ro, 0, none⟩, ⟨0, 0, .ro, 0, none⟩]⟩
  | .MEM_INJ => ⟨0x0300008, [], [⟨14, 8, .rw, 0, none⟩, ⟨3, 2, .rw, 0, none⟩, ⟨0, 0, .rw, 0, none⟩]⟩
  | .MEM_LAST => ⟨0x030000C, [], [⟨31, 30, .ro, 0, none⟩, ⟨29, 23, .ro, 0, none⟩, ⟨22, 0, .ro, 0, none⟩]⟩
  | .MEM_EVT => ⟨0x0300020, [], [⟨31, 24, .sqc, 0, none⟩, ⟨7, 0, .sqc, 0, none⟩]⟩
  | .MEM_HOST_PSN => ⟨0x0300030, [], [⟨31, 0, .cnt, 0, none⟩]⟩
  | .MEM_MEM_CE => ⟨0x0301000, [(256, 0x20)], [⟨31, 0, .cnt, 0, none⟩]⟩
  | .MEM_MEM_UE_TR => ⟨0x0301004, [(256, 0x20)], [⟨31, 0, .cnt, 0, none⟩]⟩
  | .MEM_MEM_UE_LAST => ⟨0x0301008, [(256, 0x20)], [⟨31, 0, .cnt, 0, none⟩]⟩
  | .MEM_MEM_PSN => ⟨0x030100C, [(256, 0x20)], [⟨31, 0, .cnt, 0, none⟩]⟩
  | .MEM_MEM_PATCH => ⟨0x0301010, [(256, 0x20)], [⟨31, 28, .ro, 0, none⟩, ⟨27, 27, .ro, 0, none⟩,
      ⟨19, 0, .ro, 0, none⟩]⟩
  | .CXL_PORT_CTL => ⟨0x0400000, [(2, 0x100)], [⟨0, 0, .rw, 1, some (.tf, .memx)⟩]⟩
  | .CXL_PORT_STAT => ⟨0x0400004, [(2, 0x100)], [⟨31, 21, .ro, 0, none⟩, ⟨20, 16, .ro, 0, none⟩,
      ⟨10, 8, .ro, 0, none⟩, ⟨1, 1, .ro, 0, none⟩, ⟨0, 0, .ro, 0, none⟩]⟩
  | .CXL_PORT_DOWN => ⟨0x0400008, [(2, 0x100)], [⟨31, 0, .cnt, 0, none⟩]⟩
  | .CXL_PORT_CE => ⟨0x040000C, [(2, 0x100)], [⟨31, 0, .cnt, 0, none⟩]⟩
  | .CXL_PORT_UE => ⟨0x0400010, [(2, 0x100)], [⟨31, 0, .cnt, 0, none⟩]⟩
  | .CXL_CTL => ⟨0x0400800, [], [⟨31, 16, .rw, 1024, some (.tf, .memx)⟩, ⟨5, 0, .rw, 63, some (.tf, .memx)⟩]⟩
  | .CXL_EVT => ⟨0x0400820, [], [⟨31, 24, .sqc, 0, none⟩, ⟨4, 0, .sqc, 0, none⟩]⟩
  | .CXL_RGN_CTL => ⟨0x0401000, [(32, 0x10)], [⟨31, 31, .rw, 0, some (.tf, .memx)⟩,
      ⟨27, 26, .rw, 0, some (.tf, .memx)⟩, ⟨19, 0, .rw, 0, some (.tf, .memx)⟩]⟩
  | .CXL_RGN_SIZE => ⟨0x0401004, [(32, 0x10)], [⟨21, 0, .rw, 0, some (.tf, .memx)⟩]⟩
  | .CXL_RGN_STAT => ⟨0x0401008, [(32, 0x10)], [⟨15, 8, .ro, 0, none⟩, ⟨5, 4, .ro, 0, none⟩, ⟨1, 0, .ro, 0, none⟩]⟩
  | .CXL_RGN_PSN => ⟨0x040100C, [(32, 0x10)], [⟨31, 0, .cnt, 0, none⟩]⟩
  | .STI_DIE_STAT => ⟨0x0500000, [(4, 0x10000)], [⟨15, 15, .ro, 1, none⟩, ⟨14, 14, .ro, 0, none⟩,
      ⟨13, 13, .ro, 0, none⟩, ⟨12, 8, .ro, 0, none⟩, ⟨7, 0, .ro, 0, none⟩]⟩
  | .STI_DIE_EVT => ⟨0x0500004, [(4, 0x10000)], [⟨31, 24, .sqc, 0, none⟩, ⟨5, 5, .sqc, 0, none⟩,
      ⟨4, 4, .sqc, 0, none⟩, ⟨3, 3, .sqc, 0, none⟩, ⟨2, 2, .sqc, 0, none⟩, ⟨1, 1, .sqc, 0, none⟩,
      ⟨0, 0, .sqc, 0, none⟩]⟩
  | .STI_ERASED => ⟨0x0500008, [(4, 0x10000)], [⟨31, 0, .cnt, 0, none⟩]⟩
  | .STI_CLIP_LO => ⟨0x0500010, [(2, 0x20000), (4, 0x8)], [⟨31, 0, .cnt, 0, none⟩]⟩
  | .STI_CLIP_HI => ⟨0x0500014, [(2, 0x20000), (4, 0x8)], [⟨31, 0, .cnt, 0, none⟩]⟩
  | .STI_MOD_STAT => ⟨0x0501300, [(4, 0x10000), (26, 0x400)], [⟨12, 12, .ro, 0, none⟩, ⟨11, 11, .ro, 0, none⟩,
      ⟨10, 10, .ro, 0, none⟩, ⟨9, 5, .ro, 31, none⟩, ⟨4, 0, .ro, 31, none⟩]⟩
  | .STI_MOD_CTL => ⟨0x0501304, [(4, 0x10000), (26, 0x400)], [⟨1, 1, .rw, 0, none⟩, ⟨0, 0, .wp, 0, none⟩]⟩
  | .STI_LANE_CTL => ⟨0x0501000, [(4, 0x10000), (26, 0x400), (18, 0x20)], [⟨15, 10, .rw, 0, none⟩,
      ⟨9, 8, .rw, 0, none⟩, ⟨3, 2, .rw, 3, none⟩, ⟨1, 1, .rw, 0, none⟩, ⟨0, 0, .rw, 0, none⟩]⟩
  | .STI_LANE_STAT => ⟨0x0501004, [(4, 0x10000), (26, 0x400), (18, 0x20)], [⟨10, 6, .ro, 31, none⟩,
      ⟨5, 4, .ro, 0, none⟩, ⟨2, 2, .ro, 0, none⟩, ⟨1, 1, .ro, 0, none⟩]⟩
  | .STI_LANE_PRBS_ERR => ⟨0x0501008, [(4, 0x10000), (26, 0x400), (18, 0x20)], [⟨31, 0, .cnt, 0, none⟩]⟩
  | .STI_LANE_HDR_ERR => ⟨0x050100C, [(4, 0x10000), (26, 0x400), (18, 0x20)], [⟨31, 0, .cnt, 0, none⟩]⟩
  | .TIM_SLOT_CFG => ⟨0x0600000, [(8, 0x20)], [⟨31, 24, .rw, 0, some (.tf, .tim)⟩,
      ⟨23, 20, .rw, 0, some (.tf, .tim)⟩, ⟨16, 16, .rw, 0, some (.tf, .tim)⟩]⟩
  | .TIM_SLOT_NOM => ⟨0x0600004, [(8, 0x20)], [⟨31, 0, .rw, 10000000, some (.tf, .tim)⟩]⟩
  | .TIM_SLOT_LIM => ⟨0x0600008, [(8, 0x20)], [⟨31, 16, .rw, 920, some (.tf, .tim)⟩,
      ⟨15, 0, .rw, 460, some (.tf, .tim)⟩]⟩
  | .TIM_SLOT_TIME => ⟨0x060000C, [(8, 0x20)], [⟨31, 16, .rw, 1000, some (.tf, .tim)⟩,
      ⟨15, 0, .rw, 10, some (.tf, .tim)⟩]⟩
  | .TIM_SLOT_STAT => ⟨0x0600010, [(8, 0x20)], [⟨3, 3, .ro, 0, none⟩, ⟨2, 0, .ro, 0, none⟩]⟩
  | .TIM_SLOT_FREQ => ⟨0x0600014, [(8, 0x20)], [⟨31, 0, .ro, 2147483648, none⟩]⟩
  | .TIM_SLOT_TS_LO => ⟨0x0600018, [(8, 0x20)], [⟨31, 0, .ro, 0, none⟩]⟩
  | .TIM_SLOT_TS_HI => ⟨0x060001C, [(8, 0x20)], [⟨31, 0, .ro, 0, none⟩]⟩
  | .TIM_SLOT_FAIL => ⟨0x0600100, [(8, 0x4)], [⟨31, 0, .cnt, 0, none⟩]⟩
  | .TIM_CFG => ⟨0x0600200, [], [⟨15, 0, .rw, 10, some (.tf, .tim)⟩]⟩
  | .TIM_EVT => ⟨0x0600204, [], [⟨31, 24, .sqc, 0, none⟩, ⟨11, 0, .sqc, 0, none⟩]⟩
  | .TIM_ROOT_STAT => ⟨0x0600208, [], [⟨0, 0, .ro, 0, none⟩]⟩
  | .TIM_DPLL_CTL => ⟨0x0601000, [(2, 0x100)], [⟨31, 24, .rw, 255, some (.tf, .tim)⟩,
      ⟨18, 16, .rw, 0, some (.tf, .tim)⟩, ⟨9, 8, .rw, 0, some (.tf, .tim)⟩, ⟨2, 0, .rw, 0, some (.tf, .tim)⟩]⟩
  | .TIM_DPLL_HO => ⟨0x0601004, [(2, 0x100)], [⟨31, 20, .rw, 60, some (.tf, .tim)⟩,
      ⟨19, 8, .rw, 10, some (.tf, .tim)⟩, ⟨0, 0, .rw, 0, some (.tf, .tim)⟩]⟩
  | .TIM_DPLL_HO_VAL => ⟨0x0601008, [(2, 0x100)], [⟨31, 0, .rw, 0, some (.tf, .tim)⟩]⟩
  | .TIM_DPLL_STAT => ⟨0x060100C, [(2, 0x100)], [⟨10, 10, .ro, 0, none⟩, ⟨9, 9, .ro, 0, none⟩, ⟨7, 7, .ro, 0, none⟩,
      ⟨6, 4, .ro, 0, none⟩, ⟨2, 0, .ro, 0, none⟩]⟩
  | .TIM_DPLL_FREQ => ⟨0x0601010, [(2, 0x100)], [⟨31, 0, .ro, 0, none⟩]⟩
  | .TIM_DPLL_HO_USED => ⟨0x0601014, [(2, 0x100)], [⟨31, 0, .ro, 2147483648, none⟩]⟩
  | .TIM_DPLL_PHASE => ⟨0x0601018, [(2, 0x100)], [⟨31, 0, .ro, 0, none⟩]⟩
  | .TIM_DPLL_HIST_IDX => ⟨0x060101C, [(2, 0x100)], [⟨27, 16, .ro, 0, none⟩, ⟨11, 0, .ro, 0, none⟩]⟩
  | .TIM_DPLL_SW => ⟨0x0601020, [(2, 0x100)], [⟨31, 0, .cnt, 0, none⟩]⟩
  | .TIM_DPLL_HO_CNT => ⟨0x0601024, [(2, 0x100)], [⟨31, 0, .cnt, 0, none⟩]⟩
  | .TIM_OUT_CTL => ⟨0x0602000, [(4, 0x10)], [⟨31, 31, .rw, 0, some (.tf, .tim)⟩,
      ⟨30, 30, .rw, 0, some (.tf, .tim)⟩, ⟨15, 0, .rw, 1000, some (.tf, .tim)⟩]⟩
  | .TIM_OUT_DIV => ⟨0x0602004, [(4, 0x10)], [⟨31, 0, .rw, 0, some (.tf, .tim)⟩]⟩
  | .TIM_OUT_PHASE => ⟨0x0602008, [(4, 0x10)], [⟨31, 0, .ro, 0, none⟩]⟩
  | .TIM_OUT_OFS => ⟨0x060200C, [(4, 0x10)], [⟨31, 0, .rw, 0, some (.tf, .tim)⟩]⟩
  | .TIM_OUT_CMD => ⟨0x0602040, [], [⟨8, 8, .wp, 0, none⟩, ⟨3, 3, .wp, 0, none⟩, ⟨2, 2, .wp, 0, none⟩]⟩
  | .TIM_DPLL_HIST => ⟨0x0610000, [(2, 0x4000), (4096, 0x4)], [⟨31, 4, .ro, 0, none⟩, ⟨1, 1, .ro, 0, none⟩,
      ⟨0, 0, .ro, 0, none⟩]⟩
  | .MON_CTL => ⟨0x0700000, [], [⟨31, 24, .rw, 16, some (.tf, .mon)⟩, ⟨23, 20, .rw, 1, some (.tf, .mon)⟩,
      ⟨19, 16, .rw, 0, some (.tf, .mon)⟩, ⟨15, 12, .rw, 4, some (.tf, .mon)⟩, ⟨11, 8, .rw, 6, some (.tf, .mon)⟩,
      ⟨0, 0, .rw, 1, some (.tf, .mon)⟩]⟩
  | .MON_OW_THR => ⟨0x0700004, [], [⟨23, 0, .rw, 65536, some (.tf, .mon)⟩]⟩
  | .MON_STAT => ⟨0x0700008, [], [⟨15, 11, .ro, 0, none⟩, ⟨10, 8, .ro, 0, none⟩, ⟨5, 4, .ro, 0, none⟩,
      ⟨2, 2, .ro, 0, none⟩, ⟨1, 1, .ro, 0, none⟩, ⟨0, 0, .ro, 0, none⟩]⟩
  | .MON_URGENT => ⟨0x070000C, [], [⟨31, 31, .wp, 0, none⟩, ⟨4, 0, .wp, 0, none⟩]⟩
  | .MON_CAL_OFS => ⟨0x0700010, [], [⟨23, 0, .rw, 0, none⟩]⟩
  | .MON_CAL_GAIN => ⟨0x0700014, [], [⟨23, 0, .rw, 4194304, none⟩]⟩
  | .MON_EVT => ⟨0x0700020, [], [⟨31, 24, .sqc, 0, none⟩, ⟨5, 0, .sqc, 0, none⟩]⟩
  | .MON_URG_CNT => ⟨0x0700030, [], [⟨31, 0, .cnt, 0, none⟩]⟩
  | .MON_SCAN_CNT => ⟨0x0700034, [], [⟨31, 0, .ro, 0, none⟩]⟩
  | .MON_IN_CFG => ⟨0x0700100, [(32, 0x4)], [⟨31, 24, .rw, 0, some (.tf, .mon)⟩,
      ⟨23, 19, .rw, 12, some (.tf, .mon)⟩, ⟨18, 18, .rw, 0, some (.tf, .mon)⟩, ⟨17, 17, .rw, 0, some (.tf, .mon)⟩,
      ⟨16, 16, .rw, 0, some (.tf, .mon)⟩, ⟨15, 14, .rw, 0, some (.tf, .mon)⟩, ⟨13, 12, .rw, 0, some (.tf, .mon)⟩,
      ⟨0, 0, .rw, 0, some (.tf, .mon)⟩]⟩
  | .MON_RES => ⟨0x0700200, [(32, 0x4)], [⟨31, 31, .ro, 0, none⟩, ⟨30, 30, .ro, 0, none⟩, ⟨29, 29, .ro, 0, none⟩,
      ⟨28, 28, .ro, 0, none⟩, ⟨27, 27, .ro, 0, none⟩, ⟨26, 26, .ro, 0, none⟩, ⟨25, 25, .ro, 0, none⟩,
      ⟨24, 24, .ro, 0, none⟩, ⟨23, 0, .ro, 0, none⟩]⟩
  | .MON_RES_TIME => ⟨0x0700280, [(32, 0x4)], [⟨31, 0, .ro, 0, none⟩]⟩
  | .MON_DCB_EST => ⟨0x0700300, [(32, 0x4)], [⟨23, 0, .rw, 0, none⟩]⟩
  | .MON_OVR_CNT => ⟨0x0700380, [(32, 0x4)], [⟨31, 0, .cnt, 0, none⟩]⟩
  | .MON_BIAS_CTL => ⟨0x0701000, [(16, 0x20)], [⟨31, 31, .rw, 0, some (.tf, .mon)⟩,
      ⟨30, 30, .rw, 0, some (.tf, .mon)⟩, ⟨29, 29, .rw, 0, some (.tf, .mon)⟩, ⟨28, 24, .rw, 0, some (.tf, .mon)⟩,
      ⟨23, 22, .rw, 1, some (.tf, .mon)⟩, ⟨19, 8, .rw, 0, some (.tf, .mon)⟩, ⟨7, 4, .rw, 8, some (.tf, .mon)⟩,
      ⟨0, 0, .rw, 0, some (.tf, .mon)⟩]⟩
  | .MON_BIAS_VAL => ⟨0x0701004, [(16, 0x20)], [⟨19, 0, .rw, 524288, none⟩]⟩
  | .MON_BIAS_LIM => ⟨0x0701008, [(16, 0x20)], [⟨31, 16, .rw, 65535, some (.tf, .mon)⟩,
      ⟨15, 0, .rw, 0, some (.tf, .mon)⟩]⟩
  | .MON_BIAS_STEP => ⟨0x070100C, [(16, 0x20)], [⟨31, 16, .rw, 0, some (.tf, .mon)⟩,
      ⟨15, 0, .rw, 64, some (.tf, .mon)⟩]⟩
  | .MON_BIAS_THR => ⟨0x0701010, [(16, 0x20)], [⟨23, 0, .rw, 256, some (.tf, .mon)⟩]⟩
  | .MON_BIAS_DEM => ⟨0x0701014, [(16, 0x20)], [⟨31, 16, .ro, 0, none⟩, ⟨15, 0, .ro, 0, none⟩]⟩
  | .MON_BIAS_STAT => ⟨0x0701018, [(16, 0x20)], [⟨3, 3, .ro, 0, none⟩, ⟨2, 2, .ro, 0, none⟩, ⟨1, 1, .ro, 0, none⟩,
      ⟨0, 0, .ro, 0, none⟩]⟩
  | .CHK_CTL => ⟨0x0800000, [(4, 0x100)], [⟨8, 8, .wp, 0, none⟩, ⟨1, 0, .rw, 0, none⟩]⟩
  | .CHK_DATA => ⟨0x0800004, [(4, 0x100)], [⟨31, 0, .wp, 0, none⟩]⟩
  | .CHK_VALUE_LO => ⟨0x0800008, [(4, 0x100)], [⟨31, 0, .rw, 0, none⟩]⟩
  | .CHK_VALUE_HI => ⟨0x080000C, [(4, 0x100)], [⟨31, 0, .rw, 0, none⟩]⟩
  | .CHK_RESULT_LO => ⟨0x0800010, [(4, 0x100)], [⟨31, 0, .ro, 0, none⟩]⟩
  | .CHK_RESULT_HI => ⟨0x0800014, [(4, 0x100)], [⟨31, 0, .ro, 0, none⟩]⟩
  | .CHK_STAT => ⟨0x0800018, [(4, 0x100)], [⟨4, 0, .ro, 0, none⟩]⟩
  | .PRF_CTL => ⟨0x0901000, [], [⟨0, 0, .rw, 0, none⟩]⟩
  | .PRF_RUN_LO => ⟨0x0901004, [], [⟨31, 16, .rwm, 0, none⟩, ⟨15, 0, .rwm, 0, none⟩]⟩
  | .PRF_RUN_HI => ⟨0x0901008, [], [⟨31, 16, .rwm, 0, none⟩, ⟨15, 0, .rwm, 0, none⟩]⟩
  | .PRF_BW_CTL => ⟨0x0901400, [], [⟨31, 31, .rw, 0, none⟩, ⟨19, 0, .rw, 1000, none⟩]⟩
  | .PRF_BW_SEQ => ⟨0x0901404, [], [⟨31, 0, .ro, 0, none⟩]⟩
  | .PRF_CNT_CFG => ⟨0x0901100, [(32, 0x4)], [⟨30, 30, .rw, 0, none⟩, ⟨29, 29, .rw, 0, none⟩,
      ⟨28, 27, .rw, 0, none⟩, ⟨26, 26, .rw, 1, none⟩, ⟨25, 16, .rw, 0, none⟩, ⟨15, 0, .rw, 0, none⟩]⟩
  | .PRF_CNT_LO => ⟨0x0901200, [(32, 0x8)], [⟨31, 0, .cnt, 0, none⟩]⟩
  | .PRF_CNT_HI => ⟨0x0901204, [(32, 0x8)], [⟨31, 0, .cnt, 0, none⟩]⟩
  | .PRF_BW => ⟨0x0901800, [(21, 0x8), (2, 0x4)], [⟨31, 0, .ro, 0, none⟩]⟩
  | .SEC_BOOT_STAT => ⟨0x0A00000, [], [⟨27, 24, .ro, 0, none⟩, ⟨21, 20, .ro, 0, none⟩, ⟨17, 16, .ro, 0, none⟩,
      ⟨15, 8, .ro, 0, none⟩, ⟨2, 0, .ro, 0, none⟩]⟩
  | .SEC_FW_BUILD => ⟨0x0A00004, [], [⟨31, 0, .ro, 0, none⟩]⟩
  | .SEC_OTP => ⟨0x0A00008, [], [⟨11, 8, .ro, 0, none⟩, ⟨6, 0, .ro, 0, none⟩]⟩
  | .SEC_BOOT_MBX_LO => ⟨0x0A00010, [], [⟨31, 0, .rw, 0, none⟩]⟩
  | .SEC_BOOT_MBX_HI => ⟨0x0A00014, [], [⟨31, 0, .rw, 0, none⟩]⟩
  | .SEC_BOOT_MBX_LEN => ⟨0x0A00018, [], [⟨31, 0, .rw, 0, none⟩]⟩
  | .SEC_BOOT_MBX_GO => ⟨0x0A0001C, [], [⟨0, 0, .wp, 0, none⟩]⟩
  | .SEC_FW_STAT => ⟨0x0A00020, [], [⟨31, 31, .ro, 0, none⟩, ⟨27, 24, .ro, 0, none⟩, ⟨23, 16, .ro, 0, none⟩,
      ⟨3, 2, .ro, 0, none⟩]⟩
  | .SEC_ID_STAT => ⟨0x0A00030, [], [⟨1, 0, .ro, 0, none⟩]⟩
  | .SEC_ID_IDENT_LO => ⟨0x0A00034, [], [⟨31, 0, .ro, 0, none⟩]⟩
  | .SEC_ID_IDENT_HI => ⟨0x0A00038, [], [⟨31, 0, .ro, 0, none⟩]⟩
  | .SEC_CFG_STAT => ⟨0x0A00040, [], [⟨0, 0, .ro, 0, none⟩]⟩
  | .SEC_CFG_DTIME_LO => ⟨0x0A00044, [], [⟨31, 0, .ro, 0, none⟩]⟩
  | .SEC_CFG_DTIME_HI => ⟨0x0A00048, [], [⟨31, 0, .ro, 0, none⟩]⟩
  | .SEC_ATT_CNT => ⟨0x0A0004C, [], [⟨31, 0, .ro, 0, none⟩]⟩
  | .SEC_DBG_STAT => ⟨0x0A00050, [], [⟨0, 0, .ro, 0, none⟩]⟩
  | .SEC_DBG_CMD => ⟨0x0A00054, [], [⟨1, 1, .wp, 0, none⟩, ⟨0, 0, .wp, 0, none⟩]⟩
  | .SEC_EVT => ⟨0x0A00060, [], [⟨31, 24, .sqc, 0, none⟩, ⟨7, 0, .sqc, 0, none⟩]⟩
  | .SEC_FW_ACT_CNT => ⟨0x0A00070, [], [⟨31, 0, .cnt, 0, none⟩]⟩
  | .SEC_CIPH_CTL => ⟨0x0A10000, [], [⟨31, 16, .rw, 2048, none⟩, ⟨15, 6, .rw, 200, none⟩, ⟨4, 4, .rw, 1, none⟩,
      ⟨3, 0, .rw, 2, none⟩]⟩
  | .SEC_CIPH_KA => ⟨0x0A10004, [(2, 0x4)], [⟨31, 16, .ro, 0, none⟩, ⟨15, 12, .ro, 0, none⟩, ⟨11, 8, .ro, 0, none⟩,
      ⟨0, 0, .ro, 0, none⟩]⟩
  | .SEC_CIPH_EVT => ⟨0x0A10020, [], [⟨31, 24, .sqc, 0, none⟩, ⟨7, 0, .sqc, 0, none⟩]⟩
  | .SEC_CIPH_UNCHK => ⟨0x0A10030, [(2, 0x4)], [⟨31, 0, .cnt, 0, none⟩]⟩
  | .SEC_CIPH_KA_FAIL => ⟨0x0A10038, [], [⟨31, 0, .cnt, 0, none⟩]⟩
  | .SEC_CIPH_CH_CTL => ⟨0x0A11000, [(1024, 0x10)], [⟨31, 16, .rw, 720, none⟩, ⟨3, 3, .rw, 1, none⟩,
      ⟨2, 2, .rw, 0, none⟩, ⟨1, 1, .rw, 0, none⟩, ⟨0, 0, .rw, 0, none⟩]⟩
  | .SEC_CIPH_CH_TX => ⟨0x0A11004, [(1024, 0x10)], [⟨31, 8, .ro, 0, none⟩, ⟨7, 7, .ro, 0, none⟩,
      ⟨6, 6, .ro, 0, none⟩, ⟨5, 5, .ro, 0, none⟩]⟩
  | .SEC_CIPH_CH_RX => ⟨0x0A11008, [(1024, 0x10)], [⟨31, 8, .ro, 0, none⟩, ⟨7, 7, .ro, 0, none⟩,
      ⟨6, 6, .ro, 0, none⟩, ⟨5, 5, .ro, 0, none⟩]⟩
  | .SEC_CIPH_CH_AUTH => ⟨0x0A1100C, [(1024, 0x10)], [⟨31, 0, .cnt, 0, none⟩]⟩
  | .SEC_CIPH_USE => ⟨0x0A15000, [(1024, 0x4)], [⟨31, 0, .cnt, 0, none⟩]⟩
  | .CLI_PORT_CTL => ⟨0x0B00000, [(16, 0x40)], [⟨31, 24, .rw, 16, some (.tf, .cli)⟩,
      ⟨9, 9, .rw, 0, some (.tf, .cli)⟩, ⟨8, 8, .rw, 0, some (.tf, .cli)⟩, ⟨6, 4, .rw, 0, some (.tf, .cli)⟩,
      ⟨3, 0, .rw, 0, some (.tf, .cli)⟩]⟩
  | .CLI_PORT_STAT => ⟨0x0B00004, [(16, 0x40)], [⟨5, 5, .ro, 0, none⟩, ⟨4, 4, .ro, 0, none⟩, ⟨3, 3, .ro, 0, none⟩,
      ⟨2, 2, .ro, 0, none⟩, ⟨1, 1, .ro, 0, none⟩]⟩
  | .CLI_PORT_FEC_CORR_LO => ⟨0x0B00010, [(16, 0x40)], [⟨31, 0, .cnt, 0, none⟩]⟩
  | .CLI_PORT_FEC_CORR_HI => ⟨0x0B00014, [(16, 0x40)], [⟨31, 0, .cnt, 0, none⟩]⟩
  | .CLI_PORT_FEC_UNC => ⟨0x0B00018, [(16, 0x40)], [⟨31, 0, .cnt, 0, none⟩]⟩
  | .CLI_LANE_POL => ⟨0x0B00400, [], [⟨31, 16, .rw, 0, some (.tf, .cli)⟩, ⟨15, 0, .rw, 0, some (.tf, .cli)⟩]⟩
  | .CLI_EVT => ⟨0x0B00410, [], [⟨31, 24, .sqc, 0, none⟩, ⟨9, 0, .sqc, 0, none⟩]⟩
  | .CLI_FLX_CTL => ⟨0x0B10000, [(8, 0x2000)], [⟨31, 12, .rw, 1, some (.tf, .cli)⟩, ⟨0, 0, .rw, 0, some (.tf, .cli)⟩]⟩
  | .CLI_FLX_STAT => ⟨0x0B10004, [(8, 0x2000)], [⟨2, 2, .ro, 0, none⟩, ⟨1, 1, .ro, 0, none⟩, ⟨0, 0, .ro, 0, none⟩]⟩
  | .CLI_FLX_CAL_A => ⟨0x0B10800, [(8, 0x2000), (640, 0x4)], [⟨15, 0, .rw, 0, some (.tf, .cli)⟩]⟩
  | .CLI_FLX_CAL_B => ⟨0x0B11400, [(8, 0x2000), (640, 0x4)], [⟨15, 0, .rw, 0, some (.tf, .cli)⟩]⟩
  | .CLI_CH_CFG => ⟨0x0B40000, [(1024, 0x20)], [⟨31, 31, .rw, 0, some (.tf, .cli)⟩,
      ⟨30, 28, .rw, 0, some (.tf, .cli)⟩, ⟨27, 24, .rw, 0, some (.tf, .cli)⟩, ⟨23, 16, .rw, 0, some (.tf, .cli)⟩,
      ⟨15, 13, .rw, 0, some (.tf, .cli)⟩, ⟨8, 0, .rw, 0, some (.tf, .cli)⟩]⟩
  | .CLI_CH_SLOTS => ⟨0x0B40004, [(1024, 0x20)], [⟨25, 25, .rw, 0, some (.mf, .seam)⟩,
      ⟨24, 16, .rw, 0, some (.mf, .txB)⟩, ⟨8, 0, .rw, 0, some (.mf, .txA)⟩]⟩
  | .CLI_CH_FLX => ⟨0x0B40008, [(1024, 0x20)], [⟨15, 0, .rw, 0, some (.tf, .cli)⟩]⟩
  | .CLI_CH_STAT => ⟨0x0B4000C, [(1024, 0x20)], [⟨7, 7, .ro, 0, none⟩, ⟨6, 6, .ro, 0, none⟩, ⟨5, 5, .ro, 0, none⟩,
      ⟨4, 4, .ro, 0, none⟩, ⟨3, 3, .ro, 0, none⟩, ⟨0, 0, .ro, 0, none⟩]⟩
  | .CLI_CH_REALIGN => ⟨0x0B40010, [(1024, 0x20)], [⟨31, 0, .cnt, 0, none⟩]⟩
  | .CLI_CH_REPL => ⟨0x0B40014, [(1024, 0x20)], [⟨31, 0, .cnt, 0, none⟩]⟩
  | .SEAM_CTL => ⟨0x0C00000, [], [⟨31, 24, .rw, 20, some (.mf, .seam)⟩, ⟨23, 20, .rw, 4, some (.mf, .seam)⟩,
      ⟨1, 1, .rw, 1, some (.mf, .seam)⟩, ⟨0, 0, .wp, 0, none⟩]⟩
  | .SEAM_RGN => ⟨0x0C00004, [], [⟨13, 8, .rw, 63, some (.mf, .seam)⟩, ⟨5, 0, .rw, 63, some (.mf, .seam)⟩]⟩
  | .SEAM_STAT => ⟨0x0C00008, [], [⟨15, 12, .ro, 0, none⟩, ⟨11, 11, .ro, 0, none⟩, ⟨10, 10, .ro, 0, none⟩,
      ⟨9, 8, .ro, 2, none⟩, ⟨1, 0, .ro, 0, none⟩]⟩
  | .SEAM_DELTA_MEAS => ⟨0x0C0000C, [], [⟨31, 0, .ro, 2147483648, none⟩]⟩
  | .SEAM_DELTA_USE => ⟨0x0C00010, [], [⟨31, 0, .ro, 0, none⟩]⟩
  | .SEAM_LOAD => ⟨0x0C00014, [], [⟨25, 16, .ro, 0, none⟩, ⟨9, 0, .ro, 0, none⟩]⟩
  | .SEAM_EVT => ⟨0x0C00020, [], [⟨31, 24, .sqc, 0, none⟩, ⟨7, 0, .sqc, 0, none⟩]⟩
  | .SEAM_REALIGN_CNT => ⟨0x0C00030, [], [⟨31, 0, .cnt, 0, none⟩]⟩
  | .SEAM_DSK_FAIL => ⟨0x0C00034, [], [⟨31, 0, .cnt, 0, none⟩]⟩
  | .SEAM_GRP_CTL => ⟨0x0C00100, [(64, 0x4)], [⟨31, 18, .rw, 0, some (.mf, .seam)⟩,
      ⟨17, 6, .rw, 300, some (.mf, .seam)⟩, ⟨3, 3, .rw, 1, some (.mf, .seam)⟩, ⟨2, 2, .rw, 1, some (.mf, .seam)⟩,
      ⟨1, 1, .rw, 1, some (.mf, .seam)⟩, ⟨0, 0, .rw, 0, some (.mf, .seam)⟩]⟩
  | .SEAM_CH_CFG => ⟨0x0C01000, [(1024, 0x20)], [⟨5, 0, .rw, 0, some (.mf, .seam)⟩]⟩
  | .SEAM_CH_STAT => ⟨0x0C01004, [(1024, 0x20)], [⟨16, 16, .ro, 0, none⟩, ⟨15, 12, .ro, 0, none⟩,
      ⟨11, 9, .ro, 0, none⟩, ⟨8, 8, .ro, 0, none⟩, ⟨7, 7, .ro, 0, none⟩, ⟨6, 6, .ro, 0, none⟩, ⟨5, 4, .ro, 0, none⟩,
      ⟨3, 2, .ro, 0, none⟩, ⟨1, 0, .ro, 0, none⟩]⟩
  | .SEAM_CH_SW => ⟨0x0C01008, [(1024, 0x20)], [⟨31, 0, .cnt, 0, none⟩]⟩
  | .SEAM_CH_SUBST => ⟨0x0C0100C, [(1024, 0x20)], [⟨31, 0, .cnt, 0, none⟩]⟩
  | .SEAM_CH_BAD => ⟨0x0C01010, [(1024, 0x20)], [⟨31, 0, .cnt, 0, none⟩]⟩
  | .CAR_FE_CTL => ⟨0x1100000, [(2, 0x800000)], [⟨15, 12, .rw, 6, some (.sf, .rx)⟩,
      ⟨11, 8, .rw, 8, some (.sf, .rx)⟩, ⟨5, 4, .rw, 0, some (.sf, .rx)⟩, ⟨3, 2, .rw, 0, some (.sf, .rx)⟩,
      ⟨1, 1, .rw, 1, some (.sf, .rx)⟩, ⟨0, 0, .rw, 0, some (.sf, .rx)⟩]⟩
  | .CAR_FE_DC => ⟨0x1100010, [(2, 0x800000), (4, 0x4)], [⟨11, 0, .rw, 0, some (.sf, .rx)⟩]⟩
  | .CAR_FE_SKEW => ⟨0x1100030, [(2, 0x800000), (4, 0x4)], [⟨15, 0, .rw, 0, some (.sf, .rx)⟩]⟩
  | .CAR_FE_IQ => ⟨0x1100020, [(2, 0x800000), (2, 0x4)], [⟨31, 16, .rw, 0, some (.sf, .rx)⟩,
      ⟨15, 0, .rw, 16384, some (.sf, .rx)⟩]⟩
  | .CAR_FE_ILV => ⟨0x1101000, [(2, 0x800000), (4, 0x100), (64, 0x4)], [⟨31, 20, .rw, 0, none⟩,
      ⟨19, 10, .rw, 0, none⟩, ⟨9, 0, .rw, 0, none⟩]⟩
  | .CAR_FE_EVT => ⟨0x1100040, [(2, 0x800000)], [⟨31, 24, .sqc, 0, none⟩, ⟨12, 0, .sqc, 0, none⟩]⟩
  | .CAR_CDE_CTL => ⟨0x1110000, [(2, 0x800000)], [⟨15, 8, .rw, 1, some (.tf, .rx)⟩, ⟨7, 7, .rw, 0, none⟩,
      ⟨5, 4, .rw, 0, some (.sf, .rx)⟩, ⟨3, 3, .rw, 0, some (.sf, .rx)⟩, ⟨0, 0, .wp, 0, none⟩]⟩
  | .CAR_CDE_VALUE => ⟨0x1110004, [(2, 0x800000)], [⟨31, 0, .rw, 0, some (.sf, .rx)⟩]⟩
  | .CAR_CDE_ACT => ⟨0x1110010, [(2, 0x800000)], [⟨31, 0, .ro, 0, none⟩]⟩
  | .CAR_CDE_EST => ⟨0x1110014, [(2, 0x800000)], [⟨31, 0, .ro, 0, none⟩]⟩
  | .CAR_CDE_SRCH_LO => ⟨0x111001C, [(2, 0x800000)], [⟨31, 0, .rw, 0, none⟩]⟩
  | .CAR_CDE_SRCH_HI => ⟨0x1110020, [(2, 0x800000)], [⟨31, 0, .rw, 0, none⟩]⟩
  | .CAR_CDE_TRIM => ⟨0x1110008, [(2, 0x800000)], [⟨23, 16, .rw, 8, some (.sf, .rx)⟩,
      ⟨15, 0, .rw, 0, some (.sf, .rx)⟩]⟩
  | .CAR_CDE_STAT => ⟨0x111000C, [(2, 0x800000)], [⟨31, 16, .ro, 0, none⟩, ⟨11, 8, .ro, 0, none⟩,
      ⟨0, 0, .ro, 0, none⟩]⟩
  | .CAR_CDE_EST_Q => ⟨0x1110018, [(2, 0x800000)], [⟨9, 9, .ro, 0, none⟩, ⟨8, 8, .ro, 0, none⟩, ⟨7, 0, .ro, 0, none⟩]⟩
  | .CAR_CDE_GRID => ⟨0x1110024, [(2, 0x800000)], [⟨15, 0, .rw, 0, some (.sf, .rx)⟩]⟩
  | .CAR_PRESS_CTL => ⟨0x1120000, [(2, 0x800000)], [⟨15, 15, .rw, 0, some (.sf, .rx)⟩,
      ⟨14, 14, .rw, 1, some (.sf, .rx)⟩, ⟨13, 13, .rw, 1, some (.sf, .rx)⟩, ⟨5, 0, .rw, 0, some (.sf, .rx)⟩]⟩
  | .CAR_PRESS_ACT => ⟨0x1120004, [(2, 0x800000)], [⟨31, 0, .rw, 4294967295, some (.sf, .rx)⟩]⟩
  | .CAR_PRESS_GUARD => ⟨0x1120008, [(2, 0x800000)], [⟨31, 24, .rw, 10, some (.tf, .rx)⟩,
      ⟨23, 16, .rw, 32, some (.tf, .rx)⟩, ⟨15, 0, .rw, 8, some (.tf, .rx)⟩]⟩
  | .CAR_PRESS_STAT => ⟨0x112000C, [(2, 0x800000)], [⟨31, 16, .ro, 32768, none⟩, ⟨15, 8, .ro, 0, none⟩,
      ⟨7, 7, .ro, 0, none⟩, ⟨6, 6, .ro, 0, none⟩, ⟨5, 0, .ro, 0, none⟩]⟩
  | .CAR_PRESS_XI => ⟨0x1120010, [(2, 0x800000)], [⟨15, 0, .rw, 16384, some (.sf, .rx)⟩]⟩
  | .CAR_PRESS_SEG => ⟨0x1120100, [(2, 0x800000), (32, 0x8)], [⟨31, 24, .ro, 0, none⟩, ⟨23, 16, .ro, 0, none⟩,
      ⟨15, 0, .ro, 32768, none⟩]⟩
  | .CAR_PRESS_DET => ⟨0x1120104, [(2, 0x800000), (32, 0x8)], [⟨31, 0, .ro, 0, none⟩]⟩
  | .CAR_RXC_CTL => ⟨0x1130000, [(2, 0x800000)], [⟨31, 28, .rw, 10, some (.sf, .rx)⟩,
      ⟨27, 26, .rw, 0, some (.sf, .rx)⟩, ⟨25, 21, .rw, 31, some (.sf, .rx)⟩, ⟨20, 16, .rw, 1, some (.sf, .rx)⟩,
      ⟨13, 12, .rw, 1, some (.mf, .rx)⟩, ⟨10, 8, .rw, 4, some (.sf, .rx)⟩, ⟨7, 4, .rw, 2, some (.sf, .rx)⟩,
      ⟨0, 0, .rw, 0, some (.sf, .rx)⟩]⟩
  | .CAR_RXC_STAT => ⟨0x1130004, [(2, 0x800000)], [⟨5, 5, .ro, 0, none⟩, ⟨4, 4, .ro, 0, none⟩, ⟨3, 0, .ro, 0, none⟩]⟩
  | .CAR_RXC_FREQ => ⟨0x1130008, [(2, 0x800000)], [⟨31, 0, .ro, 2147483648, none⟩]⟩
  | .CAR_RXC_CLK => ⟨0x113000C, [(2, 0x800000)], [⟨31, 0, .ro, 2147483648, none⟩]⟩
  | .CAR_RXC_LLR => ⟨0x1130010, [(2, 0x800000)], [⟨15, 8, .rw, 8, some (.sf, .rx)⟩, ⟨7, 0, .rw, 24, some (.sf, .rx)⟩]⟩
  | .CAR_RXC_THR => ⟨0x1130014, [(2, 0x800000)], [⟨31, 16, .rw, 32768, some (.tf, .rx)⟩,
      ⟨15, 0, .rw, 192, some (.tf, .rx)⟩]⟩
  | .CAR_RXC_MEAS => ⟨0x1130018, [(2, 0x800000)], [⟨4, 0, .rw, 16, some (.tf, .rx)⟩]⟩
  | .CAR_RXC_MEAN => ⟨0x113001C, [(2, 0x800000)], [⟨31, 16, .ro, 32768, none⟩, ⟨15, 0, .ro, 32768, none⟩]⟩
  | .CAR_RXC_RATE => ⟨0x1130024, [(2, 0x800000)], [⟨31, 0, .rw, 256000000, some (.sf, .rx)⟩]⟩
  | .CAR_RXC_EVT => ⟨0x1130020, [(2, 0x800000)], [⟨31, 24, .sqc, 0, none⟩, ⟨9, 0, .sqc, 0, none⟩]⟩
  | .CAR_RXC_SLIP => ⟨0x1130030, [(2, 0x800000)], [⟨31, 0, .cnt, 0, none⟩]⟩
  | .CAR_RXC_LOL => ⟨0x1130034, [(2, 0x800000)], [⟨31, 0, .cnt, 0, none⟩]⟩
  | .CAR_RXC_SFC_LO => ⟨0x1130038, [(2, 0x800000)], [⟨31, 0, .cnt, 0, none⟩]⟩
  | .CAR_RXC_SFC_HI => ⟨0x113003C, [(2, 0x800000)], [⟨31, 0, .cnt, 0, none⟩]⟩
  | .CAR_RXC_SNR => ⟨0x1130100, [(2, 0x800000), (16, 0x8)], [⟨31, 16, .ro, 32768, none⟩, ⟨15, 0, .ro, 32768, none⟩]⟩
  | .CAR_RXC_NOISE => ⟨0x1130104, [(2, 0x800000), (16, 0x8)], [⟨31, 16, .ro, 32768, none⟩, ⟨15, 0, .ro, 32768, none⟩]⟩
  | .CAR_FEC_CTL => ⟨0x1140000, [(2, 0x800000)], [⟨15, 8, .rw, 8, some (.tf, .rx)⟩,
      ⟨7, 4, .rw, 15, some (.tf, .rx)⟩, ⟨2, 0, .rw, 4, some (.mf, .rx)⟩]⟩
  | .CAR_FEC_TX => ⟨0x1140004, [(2, 0x800000)], [⟨2, 0, .rw, 4, some (.mf, .tx)⟩]⟩
  | .CAR_FEC_THR => ⟨0x1140008, [(2, 0x800000)], [⟨23, 16, .rw, 1, some (.tf, .rx)⟩,
      ⟨15, 0, .rw, 32, some (.tf, .rx)⟩]⟩
  | .CAR_FEC_STAT => ⟨0x114000C, [(2, 0x800000)], [⟨12, 10, .ro, 0, none⟩, ⟨9, 9, .ro, 0, none⟩,
      ⟨8, 8, .ro, 0, none⟩, ⟨6, 4, .ro, 4, none⟩, ⟨1, 0, .ro, 0, none⟩]⟩
  | .CAR_FEC_MEAS => ⟨0x1140010, [(2, 0x800000)], [⟨31, 16, .ro, 32768, none⟩, ⟨15, 0, .ro, 0, none⟩]⟩
  | .CAR_FEC_BER => ⟨0x1140014, [(2, 0x800000)], [⟨31, 0, .ro, 4294967295, none⟩]⟩
  | .CAR_FEC_EVT => ⟨0x1140020, [(2, 0x800000)], [⟨31, 24, .sqc, 0, none⟩, ⟨6, 0, .sqc, 0, none⟩]⟩
  | .CAR_FEC_BLK_LO => ⟨0x1140030, [(2, 0x800000)], [⟨31, 0, .cnt, 0, none⟩]⟩
  | .CAR_FEC_BLK_HI => ⟨0x1140034, [(2, 0x800000)], [⟨31, 0, .cnt, 0, none⟩]⟩
  | .CAR_FEC_CORR_LO => ⟨0x1140038, [(2, 0x800000)], [⟨31, 0, .cnt, 0, none⟩]⟩
  | .CAR_FEC_CORR_HI => ⟨0x114003C, [(2, 0x800000)], [⟨31, 0, .cnt, 0, none⟩]⟩
  | .CAR_FEC_UNC => ⟨0x1140040, [(2, 0x800000)], [⟨31, 0, .cnt, 0, none⟩]⟩
  | .CAR_FEC_ERASED => ⟨0x1140044, [(2, 0x800000)], [⟨31, 0, .cnt, 0, none⟩]⟩
  | .CAR_FEC_LOBL => ⟨0x1140048, [(2, 0x800000)], [⟨31, 0, .cnt, 0, none⟩]⟩
  | .CAR_TX_CTL => ⟨0x1150000, [(2, 0x800000)], [⟨23, 19, .rw, 1, some (.sf, .tx)⟩,
      ⟨18, 16, .rw, 4, some (.sf, .tx)⟩, ⟨15, 13, .rw, 0, some (.sf, .tx)⟩, ⟨12, 11, .rw, 1, some (.mf, .tx)⟩,
      ⟨10, 10, .rw, 0, some (.sf, .tx)⟩, ⟨1, 1, .rw, 0, none⟩, ⟨0, 0, .rw, 0, some (.sf, .tx)⟩]⟩
  | .CAR_TX_RATE => ⟨0x1150004, [(2, 0x800000)], [⟨31, 0, .rw, 256000000, some (.sf, .tx)⟩]⟩
  | .CAR_TX_PRECOMP => ⟨0x115001C, [(2, 0x800000)], [⟨31, 16, .rw, 0, some (.sf, .tx)⟩,
      ⟨15, 0, .rw, 0, some (.sf, .tx)⟩]⟩
  | .CAR_TX_RAMP => ⟨0x1150008, [(2, 0x800000)], [⟨25, 16, .rw, 100, some (.tf, .tx)⟩,
      ⟨9, 0, .rw, 100, some (.tf, .tx)⟩]⟩
  | .CAR_TX_SQ => ⟨0x115000C, [(2, 0x800000)], [⟨31, 24, .rw, 0, some (.tf, .tx)⟩,
      ⟨23, 16, .rw, 10, some (.tf, .tx)⟩, ⟨2, 2, .rw, 0, some (.tf, .tx)⟩, ⟨1, 1, .rw, 0, some (.tf, .tx)⟩,
      ⟨0, 0, .rw, 0, some (.tf, .tx)⟩]⟩
  | .CAR_TX_STAT => ⟨0x1150010, [(2, 0x800000)], [⟨15, 9, .ro, 0, none⟩, ⟨2, 0, .ro, 5, none⟩]⟩
  | .CAR_TX_LEVEL => ⟨0x1150014, [(2, 0x800000)], [⟨31, 16, .rw, 1024, some (.tf, .tx)⟩,
      ⟨15, 0, .rw, 704, some (.sf, .tx)⟩]⟩
  | .CAR_TX_TACK => ⟨0x1150018, [(2, 0x800000)], [⟨16, 16, .rw, 0, some (.tf, .tx)⟩,
      ⟨15, 0, .rw, 63232, some (.tf, .tx)⟩]⟩
  | .CAR_TX_EVT => ⟨0x1150020, [(2, 0x800000)], [⟨31, 24, .sqc, 0, none⟩, ⟨4, 0, .sqc, 0, none⟩]⟩
  | .CAR_TX_SKEW => ⟨0x1150030, [(2, 0x800000), (4, 0x4)], [⟨15, 0, .rw, 0, some (.sf, .tx)⟩]⟩
  | .CAR_TX_CLIP_LO => ⟨0x1150040, [(2, 0x800000), (4, 0x8)], [⟨31, 0, .cnt, 0, none⟩]⟩
  | .CAR_TX_CLIP_HI => ⟨0x1150044, [(2, 0x800000), (4, 0x8)], [⟨31, 0, .cnt, 0, none⟩]⟩
  | .CAR_TX_SQ_CNT => ⟨0x1150060, [(2, 0x800000)], [⟨31, 0, .cnt, 0, none⟩]⟩
  | .CAR_TX_SC => ⟨0x1150100, [(2, 0x800000), (16, 0x4)], [⟨31, 16, .rw, 0, some (.sf, .tx)⟩,
      ⟨15, 13, .ro, 3, none⟩, ⟨8, 0, .rw, 256, some (.mf, .tx)⟩]⟩
  | .CAR_TX_CDF => ⟨0x1150200, [(2, 0x800000), (16, 0x20), (7, 0x4)], [⟨16, 0, .ro, 0, none⟩]⟩
  | .CAR_TX_PE => ⟨0x1151000, [(2, 0x800000), (4, 0x100), (64, 0x4)], [⟨15, 0, .rw, 0, some (.sf, .tx)⟩]⟩
  | .CAR_PLAN_CTL => ⟨0x1160000, [(2, 0x800000)], [⟨31, 24, .rw, 64, none⟩, ⟨23, 14, .rw, 100, none⟩,
      ⟨13, 12, .rw, 0, none⟩, ⟨11, 11, .rw, 0, none⟩, ⟨10, 10, .rw, 1, none⟩, ⟨9, 9, .rw, 0, none⟩,
      ⟨8, 8, .rw, 1, none⟩, ⟨7, 0, .rw, 4, none⟩]⟩
  | .CAR_PLAN_PARAM => ⟨0x1160004, [(2, 0x800000)], [⟨31, 16, .rw, 64, none⟩, ⟨15, 8, .rw, 58, none⟩,
      ⟨7, 0, .rw, 60, none⟩]⟩
  | .CAR_PLAN_STAT => ⟨0x1160008, [(2, 0x800000)], [⟨31, 16, .ro, 0, none⟩, ⟨11, 8, .ro, 0, none⟩,
      ⟨5, 4, .ro, 0, none⟩, ⟨3, 0, .ro, 0, none⟩]⟩
  | .CAR_PLAN_EPOCH => ⟨0x116000C, [(2, 0x800000)], [⟨31, 16, .ro, 0, none⟩, ⟨15, 0, .ro, 0, none⟩]⟩
  | .CAR_PLAN_TX_TGT_LO => ⟨0x1160010, [(2, 0x800000)], [⟨31, 0, .ro, 0, none⟩]⟩
  | .CAR_PLAN_TX_TGT_HI => ⟨0x1160014, [(2, 0x800000)], [⟨23, 0, .ro, 0, none⟩]⟩
  | .CAR_PLAN_RX_TGT_LO => ⟨0x1160018, [(2, 0x800000)], [⟨31, 0, .ro, 0, none⟩]⟩
  | .CAR_PLAN_RX_TGT_HI => ⟨0x116001C, [(2, 0x800000)], [⟨23, 0, .ro, 0, none⟩]⟩
  | .CAR_PLAN_EVT => ⟨0x1160020, [(2, 0x800000)], [⟨31, 24, .sqc, 0, none⟩, ⟨11, 0, .sqc, 0, none⟩]⟩
  | .CAR_PLAN_APPLIED => ⟨0x1160030, [(2, 0x800000)], [⟨31, 0, .cnt, 0, none⟩]⟩
  | .CAR_PLAN_FAIL => ⟨0x1160034, [(2, 0x800000)], [⟨31, 0, .cnt, 0, none⟩]⟩
  | .CAR_PLAN_SHED_CNT => ⟨0x1160038, [(2, 0x800000)], [⟨31, 0, .cnt, 0, none⟩]⟩
  | .CAR_PLAN_REC_NEW => ⟨0x1160100, [(2, 0x800000), (12, 0x4)], [⟨31, 0, .ro, 0, none⟩]⟩
  | .CAR_PLAN_REC_TX => ⟨0x1160140, [(2, 0x800000), (12, 0x4)], [⟨31, 0, .ro, 0, none⟩]⟩
  | .CAR_PLAN_REC_RX => ⟨0x1160180, [(2, 0x800000), (12, 0x4)], [⟨31, 0, .ro, 0, none⟩]⟩
  | .CAR_PLAN_SHED_MAP => ⟨0x1160200, [(2, 0x800000), (32, 0x4)], [⟨31, 0, .ro, 0, none⟩]⟩
  | .CAR_TR_TX_CTL => ⟨0x1170000, [(2, 0x800000)], [⟨1, 1, .rw, 0, some (.tf, .tx)⟩, ⟨0, 0, .rw, 0, some (.tf, .tx)⟩]⟩
  | .CAR_TR_RX_CTL => ⟨0x1170004, [(2, 0x800000)], [⟨31, 24, .rw, 10, some (.tf, .rx)⟩,
      ⟨3, 3, .rw, 0, some (.tf, .rx)⟩, ⟨2, 2, .rw, 0, some (.tf, .rx)⟩, ⟨0, 0, .rw, 0, some (.tf, .rx)⟩]⟩
  | .CAR_TR_RX_DEG => ⟨0x1170008, [(2, 0x800000)], [⟨31, 16, .rw, 100, some (.tf, .rx)⟩,
      ⟨15, 0, .rw, 10, some (.tf, .rx)⟩]⟩
  | .CAR_TR_STAT => ⟨0x117000C, [(2, 0x800000)], [⟨14, 14, .ro, 0, none⟩, ⟨13, 13, .ro, 1, none⟩,
      ⟨12, 12, .ro, 0, none⟩, ⟨11, 11, .ro, 0, none⟩, ⟨10, 10, .ro, 0, none⟩, ⟨9, 9, .ro, 0, none⟩,
      ⟨8, 8, .ro, 0, none⟩, ⟨7, 7, .ro, 0, none⟩, ⟨6, 6, .ro, 0, none⟩, ⟨5, 3, .ro, 0, none⟩, ⟨1, 0, .ro, 0, none⟩]⟩
  | .CAR_TR_RX_MFC_LO => ⟨0x1170010, [(2, 0x800000)], [⟨31, 0, .ro, 0, none⟩]⟩
  | .CAR_TR_RX_MFC_HI => ⟨0x1170014, [(2, 0x800000)], [⟨23, 0, .ro, 0, none⟩]⟩
  | .CAR_TR_EVT => ⟨0x1170020, [(2, 0x800000)], [⟨31, 24, .sqc, 0, none⟩, ⟨10, 0, .sqc, 0, none⟩]⟩
  | .CAR_TR_SBIP => ⟨0x1170030, [(2, 0x800000)], [⟨31, 0, .cnt, 0, none⟩]⟩
  | .CAR_TR_SBEI => ⟨0x1170034, [(2, 0x800000)], [⟨31, 0, .cnt, 0, none⟩]⟩
  | .CAR_TR_ERRFRM => ⟨0x1170038, [(2, 0x800000)], [⟨31, 0, .cnt, 0, none⟩]⟩
  | .CAR_TR_OOF => ⟨0x117003C, [(2, 0x800000)], [⟨31, 0, .cnt, 0, none⟩]⟩
  | .CAR_TR_MSG_BAD => ⟨0x1170040, [(2, 0x800000)], [⟨31, 0, .cnt, 0, none⟩]⟩
  | .CAR_TR_MSG_RX_LO => ⟨0x1170048, [(2, 0x800000)], [⟨31, 0, .cnt, 0, none⟩]⟩
  | .CAR_TR_MSG_RX_HI => ⟨0x117004C, [(2, 0x800000)], [⟨31, 0, .cnt, 0, none⟩]⟩
  | .CAR_TR_STRACE_TX => ⟨0x1170100, [(2, 0x800000), (16, 0x4)], [⟨31, 0, .rw, 0, some (.tf, .tx)⟩]⟩
  | .CAR_TR_STRACE_EXP => ⟨0x1170140, [(2, 0x800000), (16, 0x4)], [⟨31, 0, .rw, 0, some (.tf, .rx)⟩]⟩
  | .CAR_TR_STRACE_ACC => ⟨0x1170180, [(2, 0x800000), (16, 0x4)], [⟨31, 0, .ro, 0, none⟩]⟩
  | .CAR_TR_SLOT_TX => ⟨0x1171000, [(2, 0x800000), (456, 0x4)], [⟨15, 15, .rw, 0, some (.mf, .tx)⟩,
      ⟨9, 0, .rw, 0, some (.mf, .tx)⟩]⟩
  | .CAR_TR_SLOT_RX => ⟨0x1172000, [(2, 0x800000), (456, 0x4)], [⟨15, 15, .rw, 0, some (.mf, .rx)⟩,
      ⟨9, 0, .rw, 0, some (.mf, .rx)⟩]⟩
  | .CAR_TR_PATH_STAT => ⟨0x1180000, [(2, 0x800000), (1024, 0x10)], [⟨5, 5, .ro, 0, none⟩, ⟨4, 4, .ro, 0, none⟩,
      ⟨3, 3, .ro, 0, none⟩, ⟨2, 2, .ro, 0, none⟩, ⟨1, 1, .ro, 0, none⟩, ⟨0, 0, .ro, 0, none⟩]⟩
  | .CAR_TR_PBIP => ⟨0x1180004, [(2, 0x800000), (1024, 0x10)], [⟨31, 0, .cnt, 0, none⟩]⟩
  | .CAR_TR_PBEI => ⟨0x1180008, [(2, 0x800000), (1024, 0x10)], [⟨31, 0, .cnt, 0, none⟩]⟩
  | .CAR_TR_CFE => ⟨0x118000C, [(2, 0x800000), (1024, 0x10)], [⟨31, 0, .cnt, 0, none⟩]⟩
  | .CAR_TR_PTRACE_TX => ⟨0x1190000, [(2, 0x800000), (1024, 0x10), (4, 0x4)], [⟨31, 0, .rw, 0, some (.tf, .tx)⟩]⟩
  | .CAR_TR_PTRACE_EXP => ⟨0x11A0000, [(2, 0x800000), (1024, 0x10), (4, 0x4)], [⟨31, 0, .rw, 0, some (.tf, .rx)⟩]⟩
  | .CAR_TR_PTRACE_ACC => ⟨0x11B0000, [(2, 0x800000), (1024, 0x10), (4, 0x4)], [⟨31, 0, .ro, 0, none⟩]⟩
  | .CAR_TK_TX_CTL => ⟨0x11C0000, [(2, 0x800000)], [⟨31, 24, .rw, 90, some (.tf, .tx)⟩,
      ⟨23, 17, .rw, 16, some (.tf, .tx)⟩, ⟨16, 12, .rw, 16, some (.tf, .tx)⟩, ⟨11, 8, .rw, 14, some (.tf, .tx)⟩,
      ⟨7, 6, .rw, 0, some (.tf, .tx)⟩, ⟨5, 4, .rw, 0, some (.tf, .tx)⟩, ⟨2, 2, .rw, 1, some (.tf, .tx)⟩,
      ⟨1, 1, .rw, 1, some (.tf, .tx)⟩, ⟨0, 0, .rw, 1, some (.tf, .tx)⟩]⟩
  | .CAR_TK_TX_TIME => ⟨0x11C0004, [(2, 0x800000)], [⟨31, 20, .rw, 100, some (.tf, .tx)⟩,
      ⟨19, 8, .rw, 10, some (.tf, .tx)⟩, ⟨7, 0, .rw, 10, some (.tf, .tx)⟩]⟩
  | .CAR_TK_TX_CMD => ⟨0x11C0008, [(2, 0x800000)], [⟨1, 1, .wp, 0, none⟩, ⟨0, 0, .wp, 0, none⟩]⟩
  | .CAR_TK_RX_CTL => ⟨0x11C0010, [(2, 0x800000)], [⟨31, 24, .rw, 90, some (.tf, .rx)⟩,
      ⟨16, 12, .rw, 16, some (.tf, .rx)⟩, ⟨11, 8, .rw, 14, some (.tf, .rx)⟩, ⟨7, 6, .rw, 0, some (.tf, .rx)⟩,
      ⟨5, 4, .rw, 0, some (.tf, .rx)⟩, ⟨1, 1, .rw, 1, some (.tf, .rx)⟩, ⟨0, 0, .rw, 1, some (.tf, .rx)⟩]⟩
  | .CAR_TK_RX_THR => ⟨0x11C0014, [(2, 0x800000)], [⟨31, 16, .rw, 384, some (.tf, .rx)⟩,
      ⟨15, 0, .rw, 768, some (.tf, .rx)⟩]⟩
  | .CAR_TK_RX_TIME => ⟨0x11C0018, [(2, 0x800000)], [⟨15, 0, .rw, 50, some (.tf, .rx)⟩]⟩
  | .CAR_TK_STAT => ⟨0x11C0020, [(2, 0x800000)], [⟨19, 18, .ro, 0, none⟩, ⟨17, 16, .ro, 0, none⟩,
      ⟨11, 8, .ro, 0, none⟩, ⟨7, 4, .ro, 0, none⟩, ⟨2, 2, .ro, 0, none⟩, ⟨1, 1, .ro, 0, none⟩, ⟨0, 0, .ro, 0, none⟩]⟩
  | .CAR_TK_FLOOR => ⟨0x11C0024, [(2, 0x800000)], [⟨31, 16, .ro, 32768, none⟩]⟩
  | .CAR_TK_LAST => ⟨0x11C0028, [(2, 0x800000)], [⟨31, 16, .ro, 32768, none⟩, ⟨15, 0, .ro, 32768, none⟩]⟩
  | .CAR_TK_EVT => ⟨0x11C0030, [(2, 0x800000)], [⟨31, 24, .sqc, 0, none⟩, ⟨7, 0, .sqc, 0, none⟩]⟩
  | .CAR_TK_TX_FRM_LO => ⟨0x11C0040, [(2, 0x800000)], [⟨31, 0, .cnt, 0, none⟩]⟩
  | .CAR_TK_TX_FRM_HI => ⟨0x11C0044, [(2, 0x800000)], [⟨31, 0, .cnt, 0, none⟩]⟩
  | .CAR_TK_RX_GOOD_LO => ⟨0x11C0048, [(2, 0x800000)], [⟨31, 0, .cnt, 0, none⟩]⟩
  | .CAR_TK_RX_GOOD_HI => ⟨0x11C004C, [(2, 0x800000)], [⟨31, 0, .cnt, 0, none⟩]⟩
  | .CAR_TK_HDR_BAD => ⟨0x11C0050, [(2, 0x800000)], [⟨31, 0, .cnt, 0, none⟩]⟩
  | .CAR_TK_CRC_BAD => ⟨0x11C0054, [(2, 0x800000)], [⟨31, 0, .cnt, 0, none⟩]⟩
  | .CAR_TK_CAPTURED => ⟨0x11C0058, [(2, 0x800000)], [⟨31, 0, .cnt, 0, none⟩]⟩
  | .CAR_TK_CUT => ⟨0x11C005C, [(2, 0x800000)], [⟨31, 0, .cnt, 0, none⟩]⟩
  | .CAR_TK_REASM_BAD => ⟨0x11C0060, [(2, 0x800000)], [⟨31, 0, .cnt, 0, none⟩]⟩
  | .CAR_TK_HELLO_RX => ⟨0x11C0100, [(2, 0x800000), (10, 0x4)], [⟨31, 0, .ro, 0, none⟩]⟩
  | .CAR_CM_CTL => ⟨0x11D0000, [(2, 0x800000)], [⟨31, 20, .rw, 60, some (.sf, .rx)⟩,
      ⟨19, 10, .rw, 25, some (.sf, .rx)⟩, ⟨9, 2, .rw, 128, some (.sf, .rx)⟩, ⟨1, 1, .rw, 1, some (.sf, .rx)⟩,
      ⟨0, 0, .rw, 1, some (.sf, .rx)⟩]⟩
  | .CAR_CM_THR => ⟨0x11D0004, [(2, 0x800000)], [⟨31, 16, .rw, 64, some (.tf, .rx)⟩,
      ⟨15, 0, .rw, 6, some (.tf, .rx)⟩]⟩
  | .CAR_CM_THR2 => ⟨0x11D0008, [(2, 0x800000)], [⟨31, 16, .rw, 64, some (.tf, .rx)⟩,
      ⟨15, 0, .rw, 192, some (.tf, .rx)⟩]⟩
  | .CAR_CM_FIBRE => ⟨0x11D000C, [(2, 0x800000)], [⟨31, 16, .rw, 1331, some (.sf, .rx)⟩,
      ⟨15, 0, .rw, 16800, some (.sf, .rx)⟩]⟩
  | .CAR_CM_SPANS => ⟨0x11D0028, [(2, 0x800000)], [⟨8, 0, .rw, 0, some (.sf, .rx)⟩]⟩
  | .CAR_CM_STAT => ⟨0x11D0010, [(2, 0x800000)], [⟨31, 23, .ro, 0, none⟩, ⟨15, 8, .ro, 0, none⟩,
      ⟨7, 7, .ro, 0, none⟩, ⟨6, 6, .ro, 0, none⟩, ⟨5, 5, .ro, 0, none⟩, ⟨4, 4, .ro, 0, none⟩, ⟨3, 3, .ro, 0, none⟩,
      ⟨2, 2, .ro, 0, none⟩, ⟨1, 0, .ro, 0, none⟩]⟩
  | .CAR_CM_SEQ => ⟨0x11D0014, [(2, 0x800000)], [⟨31, 0, .ro, 0, none⟩]⟩
  | .CAR_CM_TILT => ⟨0x11D0018, [(2, 0x800000)], [⟨15, 0, .ro, 32768, none⟩]⟩
  | .CAR_CM_HIST => ⟨0x11D001C, [(2, 0x800000)], [⟨5, 0, .rw, 63, some (.tf, .rx)⟩]⟩
  | .CAR_CM_HIST_DEPTH => ⟨0x11D0020, [(2, 0x800000)], [⟨31, 0, .ro, 0, none⟩]⟩
  | .CAR_CM_HIST_NEXT => ⟨0x11D0024, [(2, 0x800000)], [⟨31, 0, .ro, 0, none⟩]⟩
  | .CAR_CM_EVT => ⟨0x11D0030, [(2, 0x800000)], [⟨31, 24, .sqc, 0, none⟩, ⟨7, 0, .sqc, 0, none⟩]⟩
  | .CAR_CM_DISCARD => ⟨0x11D0040, [(2, 0x800000)], [⟨31, 0, .cnt, 0, none⟩]⟩
  | .CAR_CM_ANOM_CNT => ⟨0x11D0044, [(2, 0x800000)], [⟨31, 0, .cnt, 0, none⟩]⟩
  | .CAR_CM_SPAN0 => ⟨0x11D1000, [(2, 0x800000), (256, 0x10)], [⟨31, 24, .rw, 0, some (.sf, .rx)⟩,
      ⟨23, 0, .rw, 0, some (.sf, .rx)⟩]⟩
  | .CAR_CM_SPAN1 => ⟨0x11D1004, [(2, 0x800000), (256, 0x10)], [⟨31, 16, .rw, 0, some (.sf, .rx)⟩,
      ⟨15, 0, .rw, 0, some (.sf, .rx)⟩]⟩
  | .CAR_CM_SPAN2 => ⟨0x11D1008, [(2, 0x800000), (256, 0x10)], [⟨15, 0, .rw, 16800, some (.sf, .rx)⟩]⟩
  | .CAR_CM_FIT0 => ⟨0x11D2000, [(2, 0x800000), (256, 0x8)], [⟨31, 16, .ro, 32768, none⟩, ⟨15, 0, .ro, 32768, none⟩]⟩
  | .CAR_CM_FIT1 => ⟨0x11D2004, [(2, 0x800000), (256, 0x8)], [⟨15, 8, .ro, 0, none⟩, ⟨2, 2, .ro, 0, none⟩,
      ⟨1, 1, .ro, 0, none⟩, ⟨0, 0, .ro, 0, none⟩]⟩
  | .CAR_CM_ANOM0 => ⟨0x11D3000, [(2, 0x800000), (64, 0x8)], [⟨31, 24, .ro, 0, none⟩, ⟨16, 0, .ro, 0, none⟩]⟩
  | .CAR_CM_ANOM1 => ⟨0x11D3004, [(2, 0x800000), (64, 0x8)], [⟨31, 16, .ro, 32768, none⟩, ⟨15, 0, .ro, 0, none⟩]⟩
  | .HST_PF1_ROUTE0 => ⟨0x0160200, [], [⟨31, 0, .rw, 0, none⟩]⟩
  | .HST_PF1_ROUTE1 => ⟨0x0160204, [], [⟨31, 0, .rw, 0, none⟩]⟩
  | .HST_MSIX => ⟨0x0180000, [(64, 0x10), (4, 0x4)], [⟨31, 0, .rw, 0, none⟩]⟩
  | .HST_PBA => ⟨0x0181000, [(2, 0x4)], [⟨31, 0, .ro, 0, none⟩]⟩
  | .PRESS_FILT => ⟨0x8000000, [(2, 0x100000), (28, 0x1000), (120, 0x4)], [⟨31, 0, .rw, 0, some (.sf, .rx)⟩]⟩
  | .SNAP => ⟨0x00FF000, [], [⟨31, 1, .ro, 0, none⟩, ⟨0, 0, .ro, 0, none⟩]⟩
  | .SNAP_TIME_LO => ⟨0x00FF004, [], [⟨31, 0, .ro, 0, none⟩]⟩
  | .SNAP_TIME_HI => ⟨0x00FF008, [], [⟨31, 0, .ro, 0, none⟩]⟩
  | .SNAP_LIVE => ⟨0x00FF00C, [], [⟨0, 0, .wp, 0, none⟩]⟩

/-- The registers of block GLB. -/
def regsGlb : List RegId :=
  ([.GLB_ID, .GLB_DTIME_LO, .GLB_DTIME_HI, .GLB_DTIME_FRAC, .GLB_COMMIT_STAT, .GLB_TX_MFC_LO, .GLB_TX_MFC_HI,
    .GLB_PRESS_POOL, .GLB_CAL_CTL, .GLB_CAL_CMD, .GLB_CAL_EVT, .GLB_CAL_STAT, .GLB_CAL_CNT, .GLB_CAL_TIME_LO,
    .GLB_CAL_TIME_HI, .GLB_RST_STAT, .GLB_RST_CMD, .GLB_THERM_CTL, .GLB_THERM_STAT, .GLB_THERM_EVT, .GLB_LIFE_LO,
    .GLB_LIFE_HI, .GLB_LIFE_CTL, .GLB_TJ_MAX])

/-- The registers of block HST. -/
def regsHst : List RegId :=
  ([.HST_RING_CTL, .HST_RING_STAT, .HST_RING_BASE_LO, .HST_RING_BASE_HI, .HST_CPL_BASE_LO, .HST_CPL_BASE_HI,
    .HST_RING_ALIVE, .HST_RING_CONS, .HST_RING_HALT_CNT, .HST_ARB, .HST_EVT, .HST_DB_BAD, .HST_DB])

/-- The registers of block EVT. -/
def regsEvt : List RegId :=
  ([.EVT_EVR_CTL, .EVT_EVR_BASE_LO, .EVT_EVR_BASE_HI, .EVT_EVR_HEAD, .EVT_EVR_TAIL, .EVT_EVR_SEQ, .EVT_EVR_LOST,
    .EVT_EVR_ROUTE0, .EVT_EVR_ROUTE1, .EVT_MSG_BASE_LO, .EVT_MSG_BASE_HI, .EVT_MSG_CTL, .EVT_MSG_HEAD, .EVT_MSG_TAIL,
    .EVT_MSG_DROP, .EVT_SUM])

/-- The registers of block MEM. -/
def regsMem : List RegId :=
  ([.MEM_CTL, .MEM_STAT, .MEM_INJ, .MEM_LAST, .MEM_EVT, .MEM_HOST_PSN, .MEM_MEM_CE, .MEM_MEM_UE_TR, .MEM_MEM_UE_LAST,
    .MEM_MEM_PSN, .MEM_MEM_PATCH])

/-- The registers of block CXL. -/
def regsCxl : List RegId :=
  ([.CXL_PORT_CTL, .CXL_PORT_STAT, .CXL_PORT_DOWN, .CXL_PORT_CE, .CXL_PORT_UE, .CXL_CTL, .CXL_EVT, .CXL_RGN_CTL,
    .CXL_RGN_SIZE, .CXL_RGN_STAT, .CXL_RGN_PSN])

/-- The registers of block STI. -/
def regsSti : List RegId :=
  ([.STI_DIE_STAT, .STI_DIE_EVT, .STI_ERASED, .STI_CLIP_LO, .STI_CLIP_HI, .STI_MOD_STAT, .STI_MOD_CTL, .STI_LANE_CTL,
    .STI_LANE_STAT, .STI_LANE_PRBS_ERR, .STI_LANE_HDR_ERR])

/-- The registers of block TIM. -/
def regsTim : List RegId :=
  ([.TIM_SLOT_CFG, .TIM_SLOT_NOM, .TIM_SLOT_LIM, .TIM_SLOT_TIME, .TIM_SLOT_STAT, .TIM_SLOT_FREQ, .TIM_SLOT_TS_LO,
    .TIM_SLOT_TS_HI, .TIM_SLOT_FAIL, .TIM_CFG, .TIM_EVT, .TIM_ROOT_STAT, .TIM_DPLL_CTL, .TIM_DPLL_HO,
    .TIM_DPLL_HO_VAL, .TIM_DPLL_STAT, .TIM_DPLL_FREQ, .TIM_DPLL_HO_USED, .TIM_DPLL_PHASE, .TIM_DPLL_HIST_IDX,
    .TIM_DPLL_SW, .TIM_DPLL_HO_CNT, .TIM_OUT_CTL, .TIM_OUT_DIV, .TIM_OUT_PHASE, .TIM_OUT_OFS, .TIM_OUT_CMD,
    .TIM_DPLL_HIST])

/-- The registers of block MON. -/
def regsMon : List RegId :=
  ([.MON_CTL, .MON_OW_THR, .MON_STAT, .MON_URGENT, .MON_CAL_OFS, .MON_CAL_GAIN, .MON_EVT, .MON_URG_CNT,
    .MON_SCAN_CNT, .MON_IN_CFG, .MON_RES, .MON_RES_TIME, .MON_DCB_EST, .MON_OVR_CNT, .MON_BIAS_CTL, .MON_BIAS_VAL,
    .MON_BIAS_LIM, .MON_BIAS_STEP, .MON_BIAS_THR, .MON_BIAS_DEM, .MON_BIAS_STAT])

/-- The registers of block CHK. -/
def regsChk : List RegId :=
  ([.CHK_CTL, .CHK_DATA, .CHK_VALUE_LO, .CHK_VALUE_HI, .CHK_RESULT_LO, .CHK_RESULT_HI, .CHK_STAT])

/-- The registers of block PRF. -/
def regsPrf : List RegId :=
  ([.PRF_CTL, .PRF_RUN_LO, .PRF_RUN_HI, .PRF_BW_CTL, .PRF_BW_SEQ, .PRF_CNT_CFG, .PRF_CNT_LO, .PRF_CNT_HI, .PRF_BW])

/-- The registers of block SEC. -/
def regsSec : List RegId :=
  ([.SEC_BOOT_STAT, .SEC_FW_BUILD, .SEC_OTP, .SEC_BOOT_MBX_LO, .SEC_BOOT_MBX_HI, .SEC_BOOT_MBX_LEN, .SEC_BOOT_MBX_GO,
    .SEC_FW_STAT, .SEC_ID_STAT, .SEC_ID_IDENT_LO, .SEC_ID_IDENT_HI, .SEC_CFG_STAT, .SEC_CFG_DTIME_LO,
    .SEC_CFG_DTIME_HI, .SEC_ATT_CNT, .SEC_DBG_STAT, .SEC_DBG_CMD, .SEC_EVT, .SEC_FW_ACT_CNT, .SEC_CIPH_CTL,
    .SEC_CIPH_KA, .SEC_CIPH_EVT, .SEC_CIPH_UNCHK, .SEC_CIPH_KA_FAIL, .SEC_CIPH_CH_CTL, .SEC_CIPH_CH_TX,
    .SEC_CIPH_CH_RX, .SEC_CIPH_CH_AUTH, .SEC_CIPH_USE])

/-- The registers of block CLI. -/
def regsCli : List RegId :=
  ([.CLI_PORT_CTL, .CLI_PORT_STAT, .CLI_PORT_FEC_CORR_LO, .CLI_PORT_FEC_CORR_HI, .CLI_PORT_FEC_UNC, .CLI_LANE_POL,
    .CLI_EVT, .CLI_FLX_CTL, .CLI_FLX_STAT, .CLI_FLX_CAL_A, .CLI_FLX_CAL_B, .CLI_CH_CFG, .CLI_CH_SLOTS, .CLI_CH_FLX,
    .CLI_CH_STAT, .CLI_CH_REALIGN, .CLI_CH_REPL])

/-- The registers of block SEAM. -/
def regsSeam : List RegId :=
  ([.SEAM_CTL, .SEAM_RGN, .SEAM_STAT, .SEAM_DELTA_MEAS, .SEAM_DELTA_USE, .SEAM_LOAD, .SEAM_EVT, .SEAM_REALIGN_CNT,
    .SEAM_DSK_FAIL, .SEAM_GRP_CTL, .SEAM_CH_CFG, .SEAM_CH_STAT, .SEAM_CH_SW, .SEAM_CH_SUBST, .SEAM_CH_BAD])

/-- The registers of block CAR_A and CAR_B. -/
def regsCar : List RegId :=
  ([.CAR_FE_CTL, .CAR_FE_DC, .CAR_FE_SKEW, .CAR_FE_IQ, .CAR_FE_ILV, .CAR_FE_EVT, .CAR_CDE_CTL, .CAR_CDE_VALUE,
    .CAR_CDE_ACT, .CAR_CDE_EST, .CAR_CDE_SRCH_LO, .CAR_CDE_SRCH_HI, .CAR_CDE_TRIM, .CAR_CDE_STAT, .CAR_CDE_EST_Q,
    .CAR_CDE_GRID, .CAR_PRESS_CTL, .CAR_PRESS_ACT, .CAR_PRESS_GUARD, .CAR_PRESS_STAT, .CAR_PRESS_XI, .CAR_PRESS_SEG,
    .CAR_PRESS_DET, .CAR_RXC_CTL, .CAR_RXC_STAT, .CAR_RXC_FREQ, .CAR_RXC_CLK, .CAR_RXC_LLR, .CAR_RXC_THR,
    .CAR_RXC_MEAS, .CAR_RXC_MEAN, .CAR_RXC_RATE, .CAR_RXC_EVT, .CAR_RXC_SLIP, .CAR_RXC_LOL, .CAR_RXC_SFC_LO,
    .CAR_RXC_SFC_HI, .CAR_RXC_SNR, .CAR_RXC_NOISE, .CAR_FEC_CTL] ++
   [.CAR_FEC_TX, .CAR_FEC_THR, .CAR_FEC_STAT, .CAR_FEC_MEAS, .CAR_FEC_BER, .CAR_FEC_EVT, .CAR_FEC_BLK_LO,
    .CAR_FEC_BLK_HI, .CAR_FEC_CORR_LO, .CAR_FEC_CORR_HI, .CAR_FEC_UNC, .CAR_FEC_ERASED, .CAR_FEC_LOBL, .CAR_TX_CTL,
    .CAR_TX_RATE, .CAR_TX_PRECOMP, .CAR_TX_RAMP, .CAR_TX_SQ, .CAR_TX_STAT, .CAR_TX_LEVEL, .CAR_TX_TACK, .CAR_TX_EVT,
    .CAR_TX_SKEW, .CAR_TX_CLIP_LO, .CAR_TX_CLIP_HI, .CAR_TX_SQ_CNT, .CAR_TX_SC, .CAR_TX_CDF, .CAR_TX_PE,
    .CAR_PLAN_CTL, .CAR_PLAN_PARAM, .CAR_PLAN_STAT, .CAR_PLAN_EPOCH, .CAR_PLAN_TX_TGT_LO, .CAR_PLAN_TX_TGT_HI,
    .CAR_PLAN_RX_TGT_LO, .CAR_PLAN_RX_TGT_HI, .CAR_PLAN_EVT, .CAR_PLAN_APPLIED, .CAR_PLAN_FAIL] ++
   [.CAR_PLAN_SHED_CNT, .CAR_PLAN_REC_NEW, .CAR_PLAN_REC_TX, .CAR_PLAN_REC_RX, .CAR_PLAN_SHED_MAP, .CAR_TR_TX_CTL,
    .CAR_TR_RX_CTL, .CAR_TR_RX_DEG, .CAR_TR_STAT, .CAR_TR_RX_MFC_LO, .CAR_TR_RX_MFC_HI, .CAR_TR_EVT, .CAR_TR_SBIP,
    .CAR_TR_SBEI, .CAR_TR_ERRFRM, .CAR_TR_OOF, .CAR_TR_MSG_BAD, .CAR_TR_MSG_RX_LO, .CAR_TR_MSG_RX_HI,
    .CAR_TR_STRACE_TX, .CAR_TR_STRACE_EXP, .CAR_TR_STRACE_ACC, .CAR_TR_SLOT_TX, .CAR_TR_SLOT_RX, .CAR_TR_PATH_STAT,
    .CAR_TR_PBIP, .CAR_TR_PBEI, .CAR_TR_CFE, .CAR_TR_PTRACE_TX, .CAR_TR_PTRACE_EXP, .CAR_TR_PTRACE_ACC,
    .CAR_TK_TX_CTL, .CAR_TK_TX_TIME, .CAR_TK_TX_CMD, .CAR_TK_RX_CTL, .CAR_TK_RX_THR, .CAR_TK_RX_TIME, .CAR_TK_STAT,
    .CAR_TK_FLOOR, .CAR_TK_LAST] ++
   [.CAR_TK_EVT, .CAR_TK_TX_FRM_LO, .CAR_TK_TX_FRM_HI, .CAR_TK_RX_GOOD_LO, .CAR_TK_RX_GOOD_HI, .CAR_TK_HDR_BAD,
    .CAR_TK_CRC_BAD, .CAR_TK_CAPTURED, .CAR_TK_CUT, .CAR_TK_REASM_BAD, .CAR_TK_HELLO_RX, .CAR_CM_CTL, .CAR_CM_THR,
    .CAR_CM_THR2, .CAR_CM_FIBRE, .CAR_CM_SPANS, .CAR_CM_STAT, .CAR_CM_SEQ, .CAR_CM_TILT, .CAR_CM_HIST,
    .CAR_CM_HIST_DEPTH, .CAR_CM_HIST_NEXT, .CAR_CM_EVT, .CAR_CM_DISCARD, .CAR_CM_ANOM_CNT, .CAR_CM_SPAN0,
    .CAR_CM_SPAN1, .CAR_CM_SPAN2, .CAR_CM_FIT0, .CAR_CM_FIT1, .CAR_CM_ANOM0, .CAR_CM_ANOM1])

end Sys2Proof.Machine
end

