-- ==== Sys2Proof/Machine/RegFields.lean ====
section
/-! DEFINITION. Names for the writable fields of the register tables: `F.<REGISTER>_<FIELD>`. A field is read from a
register reader (active values, or staging copies in a commit check) at a register index. -/

namespace Sys2Proof.Machine

/-- A field of a register: the register and the field's bit range. -/
structure Fref where
  reg : RegId
  hi  : Nat
  lo  : Nat
deriving DecidableEq, Repr

namespace F

def GLB_CAL_CTL_RAMP_MS : Fref := ⟨.GLB_CAL_CTL, 15, 0⟩
def GLB_THERM_CTL_WARN : Fref := ⟨.GLB_THERM_CTL, 31, 24⟩
def GLB_THERM_CTL_SHED : Fref := ⟨.GLB_THERM_CTL, 23, 16⟩
def GLB_THERM_CTL_HYST : Fref := ⟨.GLB_THERM_CTL, 15, 8⟩
def GLB_THERM_CTL_SHED_EN : Fref := ⟨.GLB_THERM_CTL, 0, 0⟩
def GLB_LIFE_CTL_WARN_PCT : Fref := ⟨.GLB_LIFE_CTL, 7, 0⟩
def HST_RING_CTL_EN : Fref := ⟨.HST_RING_CTL, 31, 31⟩
def HST_RING_CTL_CLASS : Fref := ⟨.HST_RING_CTL, 30, 29⟩
def HST_RING_CTL_LOG2SIZE : Fref := ⟨.HST_RING_CTL, 28, 24⟩
def HST_RING_CTL_VECTOR : Fref := ⟨.HST_RING_CTL, 21, 16⟩
def HST_RING_BASE_LO_ADDR : Fref := ⟨.HST_RING_BASE_LO, 31, 0⟩
def HST_RING_BASE_HI_ADDR : Fref := ⟨.HST_RING_BASE_HI, 31, 0⟩
def HST_CPL_BASE_LO_ADDR : Fref := ⟨.HST_CPL_BASE_LO, 31, 0⟩
def HST_CPL_BASE_HI_ADDR : Fref := ⟨.HST_CPL_BASE_HI, 31, 0⟩
def HST_RING_ALIVE_NEXT : Fref := ⟨.HST_RING_ALIVE, 15, 0⟩
def HST_ARB_W3 : Fref := ⟨.HST_ARB, 23, 16⟩
def HST_ARB_W2 : Fref := ⟨.HST_ARB, 15, 8⟩
def HST_ARB_W1 : Fref := ⟨.HST_ARB, 7, 0⟩
def HST_DB_PROD : Fref := ⟨.HST_DB, 31, 0⟩
def EVT_EVR_CTL_EN : Fref := ⟨.EVT_EVR_CTL, 31, 31⟩
def EVT_EVR_CTL_URGENT : Fref := ⟨.EVT_EVR_CTL, 30, 30⟩
def EVT_EVR_CTL_LOG2SIZE : Fref := ⟨.EVT_EVR_CTL, 28, 24⟩
def EVT_EVR_CTL_VECTOR : Fref := ⟨.EVT_EVR_CTL, 23, 18⟩
def EVT_EVR_CTL_COAL_N : Fref := ⟨.EVT_EVR_CTL, 17, 10⟩
def EVT_EVR_CTL_COAL_US : Fref := ⟨.EVT_EVR_CTL, 9, 0⟩
def EVT_EVR_BASE_LO_ADDR : Fref := ⟨.EVT_EVR_BASE_LO, 31, 0⟩
def EVT_EVR_BASE_HI_ADDR : Fref := ⟨.EVT_EVR_BASE_HI, 31, 0⟩
def EVT_EVR_HEAD_INDEX : Fref := ⟨.EVT_EVR_HEAD, 31, 0⟩
def EVT_EVR_ROUTE0_RING : Fref := ⟨.EVT_EVR_ROUTE0, 31, 0⟩
def EVT_EVR_ROUTE1_RING : Fref := ⟨.EVT_EVR_ROUTE1, 31, 0⟩
def EVT_MSG_BASE_LO_ADDR : Fref := ⟨.EVT_MSG_BASE_LO, 31, 0⟩
def EVT_MSG_BASE_HI_ADDR : Fref := ⟨.EVT_MSG_BASE_HI, 31, 0⟩
def EVT_MSG_CTL_EN : Fref := ⟨.EVT_MSG_CTL, 31, 31⟩
def EVT_MSG_CTL_LOG2SLOTS : Fref := ⟨.EVT_MSG_CTL, 3, 0⟩
def EVT_MSG_HEAD_INDEX : Fref := ⟨.EVT_MSG_HEAD, 31, 0⟩
def MEM_CTL_CE_THR : Fref := ⟨.MEM_CTL, 31, 16⟩
def MEM_CTL_RINSE_MS : Fref := ⟨.MEM_CTL, 11, 0⟩
def MEM_INJ_MEM : Fref := ⟨.MEM_INJ, 14, 8⟩
def MEM_INJ_KIND : Fref := ⟨.MEM_INJ, 3, 2⟩
def MEM_INJ_ARM : Fref := ⟨.MEM_INJ, 0, 0⟩
def CXL_PORT_CTL_EN : Fref := ⟨.CXL_PORT_CTL, 0, 0⟩
def CXL_CTL_POISON_MAX : Fref := ⟨.CXL_CTL, 31, 16⟩
def CXL_CTL_OVF_REGION : Fref := ⟨.CXL_CTL, 5, 0⟩
def CXL_RGN_CTL_VALID : Fref := ⟨.CXL_RGN_CTL, 31, 31⟩
def CXL_RGN_CTL_MODE : Fref := ⟨.CXL_RGN_CTL, 27, 26⟩
def CXL_RGN_CTL_BASE : Fref := ⟨.CXL_RGN_CTL, 19, 0⟩
def CXL_RGN_SIZE_SIZE : Fref := ⟨.CXL_RGN_SIZE, 21, 0⟩
def STI_MOD_CTL_TEST : Fref := ⟨.STI_MOD_CTL, 1, 1⟩
def STI_LANE_CTL_INJ_RATE : Fref := ⟨.STI_LANE_CTL, 15, 10⟩
def STI_LANE_CTL_INJ_MODE : Fref := ⟨.STI_LANE_CTL, 9, 8⟩
def STI_LANE_CTL_PRBS_SEL : Fref := ⟨.STI_LANE_CTL, 3, 2⟩
def STI_LANE_CTL_CHK_EN : Fref := ⟨.STI_LANE_CTL, 1, 1⟩
def STI_LANE_CTL_GEN_EN : Fref := ⟨.STI_LANE_CTL, 0, 0⟩
def TIM_SLOT_CFG_SOURCE : Fref := ⟨.TIM_SLOT_CFG, 31, 24⟩
def TIM_SLOT_CFG_RANK : Fref := ⟨.TIM_SLOT_CFG, 23, 20⟩
def TIM_SLOT_CFG_TYPE : Fref := ⟨.TIM_SLOT_CFG, 16, 16⟩
def TIM_SLOT_NOM_HZ : Fref := ⟨.TIM_SLOT_NOM, 31, 0⟩
def TIM_SLOT_LIM_HARD_LIM : Fref := ⟨.TIM_SLOT_LIM, 31, 16⟩
def TIM_SLOT_LIM_SOFT_LIM : Fref := ⟨.TIM_SLOT_LIM, 15, 0⟩
def TIM_SLOT_TIME_HOLDOFF_MS : Fref := ⟨.TIM_SLOT_TIME, 31, 16⟩
def TIM_SLOT_TIME_QUAL_S : Fref := ⟨.TIM_SLOT_TIME, 15, 0⟩
def TIM_CFG_CONFLICT : Fref := ⟨.TIM_CFG, 15, 0⟩
def TIM_DPLL_CTL_MASK : Fref := ⟨.TIM_DPLL_CTL, 31, 24⟩
def TIM_DPLL_CTL_FORCE_SLOT : Fref := ⟨.TIM_DPLL_CTL, 18, 16⟩
def TIM_DPLL_CTL_BW : Fref := ⟨.TIM_DPLL_CTL, 9, 8⟩
def TIM_DPLL_CTL_MODE : Fref := ⟨.TIM_DPLL_CTL, 2, 0⟩
def TIM_DPLL_HO_WINDOW_S : Fref := ⟨.TIM_DPLL_HO, 31, 20⟩
def TIM_DPLL_HO_GUARD_S : Fref := ⟨.TIM_DPLL_HO, 19, 8⟩
def TIM_DPLL_HO_HO_SRC : Fref := ⟨.TIM_DPLL_HO, 0, 0⟩
def TIM_DPLL_HO_VAL_OFFSET : Fref := ⟨.TIM_DPLL_HO_VAL, 31, 0⟩
def TIM_OUT_CTL_EN : Fref := ⟨.TIM_OUT_CTL, 31, 31⟩
def TIM_OUT_CTL_BLEED : Fref := ⟨.TIM_OUT_CTL, 30, 30⟩
def TIM_OUT_CTL_SLOPE_PS : Fref := ⟨.TIM_OUT_CTL, 15, 0⟩
def TIM_OUT_DIV_VALUE : Fref := ⟨.TIM_OUT_DIV, 31, 0⟩
def TIM_OUT_OFS_NS : Fref := ⟨.TIM_OUT_OFS, 31, 0⟩
def MON_CTL_OW_SCANS : Fref := ⟨.MON_CTL, 31, 24⟩
def MON_CTL_SH_FIR : Fref := ⟨.MON_CTL, 23, 20⟩
def MON_CTL_SH_HB : Fref := ⟨.MON_CTL, 19, 16⟩
def MON_CTL_SH_SINC : Fref := ⟨.MON_CTL, 15, 12⟩
def MON_CTL_DEC : Fref := ⟨.MON_CTL, 11, 8⟩
def MON_CTL_EN : Fref := ⟨.MON_CTL, 0, 0⟩
def MON_OW_THR_THR : Fref := ⟨.MON_OW_THR, 23, 0⟩
def MON_CAL_OFS_VALUE : Fref := ⟨.MON_CAL_OFS, 23, 0⟩
def MON_CAL_GAIN_VALUE : Fref := ⟨.MON_CAL_GAIN, 23, 0⟩
def MON_IN_CFG_REPEAT : Fref := ⟨.MON_IN_CFG, 31, 24⟩
def MON_IN_CFG_DCB_K : Fref := ⟨.MON_IN_CFG, 23, 19⟩
def MON_IN_CFG_DCB_FRZ : Fref := ⟨.MON_IN_CFG, 18, 18⟩
def MON_IN_CFG_DCB_EN : Fref := ⟨.MON_IN_CFG, 17, 17⟩
def MON_IN_CFG_OW_MODE : Fref := ⟨.MON_IN_CFG, 16, 16⟩
def MON_IN_CFG_OW_I : Fref := ⟨.MON_IN_CFG, 15, 14⟩
def MON_IN_CFG_REF : Fref := ⟨.MON_IN_CFG, 13, 12⟩
def MON_IN_CFG_EN : Fref := ⟨.MON_IN_CFG, 0, 0⟩
def MON_DCB_EST_VALUE : Fref := ⟨.MON_DCB_EST, 23, 0⟩
def MON_BIAS_CTL_LOOP_EN : Fref := ⟨.MON_BIAS_CTL, 31, 31⟩
def MON_BIAS_CTL_SIGN : Fref := ⟨.MON_BIAS_CTL, 30, 30⟩
def MON_BIAS_CTL_H : Fref := ⟨.MON_BIAS_CTL, 29, 29⟩
def MON_BIAS_CTL_TAP : Fref := ⟨.MON_BIAS_CTL, 28, 24⟩
def MON_BIAS_CTL_DPER : Fref := ⟨.MON_BIAS_CTL, 23, 22⟩
def MON_BIAS_CTL_AMP : Fref := ⟨.MON_BIAS_CTL, 19, 8⟩
def MON_BIAS_CTL_LSHIFT : Fref := ⟨.MON_BIAS_CTL, 7, 4⟩
def MON_BIAS_CTL_DAC_EN : Fref := ⟨.MON_BIAS_CTL, 0, 0⟩
def MON_BIAS_VAL_VALUE : Fref := ⟨.MON_BIAS_VAL, 19, 0⟩
def MON_BIAS_LIM_LIM_HI : Fref := ⟨.MON_BIAS_LIM, 31, 16⟩
def MON_BIAS_LIM_LIM_LO : Fref := ⟨.MON_BIAS_LIM, 15, 0⟩
def MON_BIAS_STEP_PHASE_ADJ : Fref := ⟨.MON_BIAS_STEP, 31, 16⟩
def MON_BIAS_STEP_STEP_MAX : Fref := ⟨.MON_BIAS_STEP, 15, 0⟩
def MON_BIAS_THR_DITH_MIN : Fref := ⟨.MON_BIAS_THR, 23, 0⟩
def CHK_CTL_ALG : Fref := ⟨.CHK_CTL, 1, 0⟩
def CHK_VALUE_LO_CRC : Fref := ⟨.CHK_VALUE_LO, 31, 0⟩
def CHK_VALUE_HI_CRC : Fref := ⟨.CHK_VALUE_HI, 31, 0⟩
def PRF_CTL_USER_EN : Fref := ⟨.PRF_CTL, 0, 0⟩
def PRF_RUN_LO_MASK : Fref := ⟨.PRF_RUN_LO, 31, 16⟩
def PRF_RUN_LO_RUN : Fref := ⟨.PRF_RUN_LO, 15, 0⟩
def PRF_RUN_HI_MASK : Fref := ⟨.PRF_RUN_HI, 31, 16⟩
def PRF_RUN_HI_RUN : Fref := ⟨.PRF_RUN_HI, 15, 0⟩
def PRF_BW_CTL_EN : Fref := ⟨.PRF_BW_CTL, 31, 31⟩
def PRF_BW_CTL_WINDOW_US : Fref := ⟨.PRF_BW_CTL, 19, 0⟩
def PRF_CNT_CFG_MODE : Fref := ⟨.PRF_CNT_CFG, 30, 30⟩
def PRF_CNT_CFG_SRC : Fref := ⟨.PRF_CNT_CFG, 29, 29⟩
def PRF_CNT_CFG_CARRIER : Fref := ⟨.PRF_CNT_CFG, 28, 27⟩
def PRF_CNT_CFG_ANY : Fref := ⟨.PRF_CNT_CFG, 26, 26⟩
def PRF_CNT_CFG_INDEX : Fref := ⟨.PRF_CNT_CFG, 25, 16⟩
def PRF_CNT_CFG_SEL : Fref := ⟨.PRF_CNT_CFG, 15, 0⟩
def SEC_BOOT_MBX_LO_ADDR : Fref := ⟨.SEC_BOOT_MBX_LO, 31, 0⟩
def SEC_BOOT_MBX_HI_ADDR : Fref := ⟨.SEC_BOOT_MBX_HI, 31, 0⟩
def SEC_BOOT_MBX_LEN_BYTES : Fref := ⟨.SEC_BOOT_MBX_LEN, 31, 0⟩
def SEC_CIPH_CTL_LEAD : Fref := ⟨.SEC_CIPH_CTL, 31, 16⟩
def SEC_CIPH_CTL_RETRY_MS : Fref := ⟨.SEC_CIPH_CTL, 15, 6⟩
def SEC_CIPH_CTL_TACK_EN : Fref := ⟨.SEC_CIPH_CTL, 4, 4⟩
def SEC_CIPH_CTL_AUTH_N : Fref := ⟨.SEC_CIPH_CTL, 3, 0⟩
def SEC_CIPH_CH_CTL_ROLL_MIN : Fref := ⟨.SEC_CIPH_CH_CTL, 31, 16⟩
def SEC_CIPH_CH_CTL_AUTH_ACT : Fref := ⟨.SEC_CIPH_CH_CTL, 3, 3⟩
def SEC_CIPH_CH_CTL_INIT : Fref := ⟨.SEC_CIPH_CH_CTL, 2, 2⟩
def SEC_CIPH_CH_CTL_AGREE : Fref := ⟨.SEC_CIPH_CH_CTL, 1, 1⟩
def SEC_CIPH_CH_CTL_EN : Fref := ⟨.SEC_CIPH_CH_CTL, 0, 0⟩
def CLI_PORT_CTL_UNC_THR : Fref := ⟨.CLI_PORT_CTL, 31, 24⟩
def CLI_PORT_CTL_HISER_ACT : Fref := ⟨.CLI_PORT_CTL, 9, 9⟩
def CLI_PORT_CTL_REPL : Fref := ⟨.CLI_PORT_CTL, 8, 8⟩
def CLI_PORT_CTL_FLX_GRP : Fref := ⟨.CLI_PORT_CTL, 6, 4⟩
def CLI_PORT_CTL_MODE : Fref := ⟨.CLI_PORT_CTL, 3, 0⟩
def CLI_LANE_POL_TX : Fref := ⟨.CLI_LANE_POL, 31, 16⟩
def CLI_LANE_POL_RX : Fref := ⟨.CLI_LANE_POL, 15, 0⟩
def CLI_FLX_CTL_GROUP_NUM : Fref := ⟨.CLI_FLX_CTL, 31, 12⟩
def CLI_FLX_CTL_CAL_TX : Fref := ⟨.CLI_FLX_CTL, 0, 0⟩
def CLI_FLX_CAL_A_CLIENT : Fref := ⟨.CLI_FLX_CAL_A, 15, 0⟩
def CLI_FLX_CAL_B_CLIENT : Fref := ⟨.CLI_FLX_CAL_B, 15, 0⟩
def CLI_CH_CFG_EN : Fref := ⟨.CLI_CH_CFG, 31, 31⟩
def CLI_CH_CFG_TYPE : Fref := ⟨.CLI_CH_CFG, 30, 28⟩
def CLI_CH_CFG_PORT : Fref := ⟨.CLI_CH_CFG, 27, 24⟩
def CLI_CH_CFG_PRIO : Fref := ⟨.CLI_CH_CFG, 23, 16⟩
def CLI_CH_CFG_CLASS : Fref := ⟨.CLI_CH_CFG, 15, 13⟩
def CLI_CH_CFG_N : Fref := ⟨.CLI_CH_CFG, 8, 0⟩
def CLI_CH_SLOTS_BOND : Fref := ⟨.CLI_CH_SLOTS, 25, 25⟩
def CLI_CH_SLOTS_SLOTS_B : Fref := ⟨.CLI_CH_SLOTS, 24, 16⟩
def CLI_CH_SLOTS_SLOTS_A : Fref := ⟨.CLI_CH_SLOTS, 8, 0⟩
def CLI_CH_FLX_CLIENT : Fref := ⟨.CLI_CH_FLX, 15, 0⟩
def SEAM_CTL_WINDOW_MS : Fref := ⟨.SEAM_CTL, 31, 24⟩
def SEAM_CTL_GUARD_US : Fref := ⟨.SEAM_CTL, 23, 20⟩
def SEAM_CTL_REALIGN_AUTO : Fref := ⟨.SEAM_CTL, 1, 1⟩
def SEAM_RGN_FALLBACK : Fref := ⟨.SEAM_RGN, 13, 8⟩
def SEAM_RGN_DESKEW : Fref := ⟨.SEAM_RGN, 5, 0⟩
def SEAM_GRP_CTL_HOLD_OFF : Fref := ⟨.SEAM_GRP_CTL, 31, 18⟩
def SEAM_GRP_CTL_WTR_S : Fref := ⟨.SEAM_GRP_CTL, 17, 6⟩
def SEAM_GRP_CTL_SD_EN : Fref := ⟨.SEAM_GRP_CTL, 3, 3⟩
def SEAM_GRP_CTL_SUBST : Fref := ⟨.SEAM_GRP_CTL, 2, 2⟩
def SEAM_GRP_CTL_REVERT : Fref := ⟨.SEAM_GRP_CTL, 1, 1⟩
def SEAM_GRP_CTL_PREF : Fref := ⟨.SEAM_GRP_CTL, 0, 0⟩
def SEAM_CH_CFG_GROUP : Fref := ⟨.SEAM_CH_CFG, 5, 0⟩
def CAR_FE_CTL_IQ_TC : Fref := ⟨.CAR_FE_CTL, 15, 12⟩
def CAR_FE_CTL_DC_TC : Fref := ⟨.CAR_FE_CTL, 11, 8⟩
def CAR_FE_CTL_IQ_MODE : Fref := ⟨.CAR_FE_CTL, 5, 4⟩
def CAR_FE_CTL_DC_MODE : Fref := ⟨.CAR_FE_CTL, 3, 2⟩
def CAR_FE_CTL_ILV_EN : Fref := ⟨.CAR_FE_CTL, 1, 1⟩
def CAR_FE_CTL_BYPASS : Fref := ⟨.CAR_FE_CTL, 0, 0⟩
def CAR_FE_DC_VALUE : Fref := ⟨.CAR_FE_DC, 11, 0⟩
def CAR_FE_SKEW_VALUE : Fref := ⟨.CAR_FE_SKEW, 15, 0⟩
def CAR_FE_IQ_PHASE : Fref := ⟨.CAR_FE_IQ, 31, 16⟩
def CAR_FE_IQ_GAIN : Fref := ⟨.CAR_FE_IQ, 15, 0⟩
def CAR_FE_ILV_TIME : Fref := ⟨.CAR_FE_ILV, 31, 20⟩
def CAR_FE_ILV_GAIN : Fref := ⟨.CAR_FE_ILV, 19, 10⟩
def CAR_FE_ILV_OFFSET : Fref := ⟨.CAR_FE_ILV, 9, 0⟩
def CAR_CDE_CTL_TRACK_S : Fref := ⟨.CAR_CDE_CTL, 15, 8⟩
def CAR_CDE_CTL_LOAD_EN : Fref := ⟨.CAR_CDE_CTL, 7, 7⟩
def CAR_CDE_CTL_SOURCE : Fref := ⟨.CAR_CDE_CTL, 5, 4⟩
def CAR_CDE_CTL_TABLE_MODE : Fref := ⟨.CAR_CDE_CTL, 3, 3⟩
def CAR_CDE_VALUE_D : Fref := ⟨.CAR_CDE_VALUE, 31, 0⟩
def CAR_CDE_SRCH_LO_D : Fref := ⟨.CAR_CDE_SRCH_LO, 31, 0⟩
def CAR_CDE_SRCH_HI_D : Fref := ⟨.CAR_CDE_SRCH_HI, 31, 0⟩
def CAR_CDE_TRIM_SLEW : Fref := ⟨.CAR_CDE_TRIM, 23, 16⟩
def CAR_CDE_TRIM_TARGET : Fref := ⟨.CAR_CDE_TRIM, 15, 0⟩
def CAR_CDE_GRID_N : Fref := ⟨.CAR_CDE_GRID, 15, 0⟩
def CAR_PRESS_CTL_AUTO_OFF : Fref := ⟨.CAR_PRESS_CTL, 15, 15⟩
def CAR_PRESS_CTL_ADAPT : Fref := ⟨.CAR_PRESS_CTL, 14, 14⟩
def CAR_PRESS_CTL_FOLLOW : Fref := ⟨.CAR_PRESS_CTL, 13, 13⟩
def CAR_PRESS_CTL_STEPS : Fref := ⟨.CAR_PRESS_CTL, 5, 0⟩
def CAR_PRESS_ACT_ACTIVE : Fref := ⟨.CAR_PRESS_ACT, 31, 0⟩
def CAR_PRESS_GUARD_WINDOW : Fref := ⟨.CAR_PRESS_GUARD, 31, 24⟩
def CAR_PRESS_GUARD_SLEW : Fref := ⟨.CAR_PRESS_GUARD, 23, 16⟩
def CAR_PRESS_GUARD_DROP : Fref := ⟨.CAR_PRESS_GUARD, 15, 0⟩
def CAR_PRESS_XI_XI : Fref := ⟨.CAR_PRESS_XI, 15, 0⟩
def CAR_RXC_CTL_MU : Fref := ⟨.CAR_RXC_CTL, 31, 28⟩
def CAR_RXC_CTL_EQ_MODE : Fref := ⟨.CAR_RXC_CTL, 27, 26⟩
def CAR_RXC_CTL_TAPS : Fref := ⟨.CAR_RXC_CTL, 25, 21⟩
def CAR_RXC_CTL_ROLLOFF : Fref := ⟨.CAR_RXC_CTL, 20, 16⟩
def CAR_RXC_CTL_PILOT : Fref := ⟨.CAR_RXC_CTL, 13, 12⟩
def CAR_RXC_CTL_SC_LOG2 : Fref := ⟨.CAR_RXC_CTL, 10, 8⟩
def CAR_RXC_CTL_TIM_BW : Fref := ⟨.CAR_RXC_CTL, 7, 4⟩
def CAR_RXC_CTL_RX_EN : Fref := ⟨.CAR_RXC_CTL, 0, 0⟩
def CAR_RXC_LLR_ADAPT_ERASE : Fref := ⟨.CAR_RXC_LLR, 15, 8⟩
def CAR_RXC_LLR_STEP : Fref := ⟨.CAR_RXC_LLR, 7, 0⟩
def CAR_RXC_THR_SNR_DEG : Fref := ⟨.CAR_RXC_THR, 31, 16⟩
def CAR_RXC_THR_LOCK_SNR : Fref := ⟨.CAR_RXC_THR, 15, 0⟩
def CAR_RXC_MEAS_INT : Fref := ⟨.CAR_RXC_MEAS, 4, 0⟩
def CAR_RXC_RATE_KBD : Fref := ⟨.CAR_RXC_RATE, 31, 0⟩
def CAR_FEC_CTL_ERASE_WEIGHT : Fref := ⟨.CAR_FEC_CTL, 15, 8⟩
def CAR_FEC_CTL_MAX_PASS : Fref := ⟨.CAR_FEC_CTL, 7, 4⟩
def CAR_FEC_CTL_RATE : Fref := ⟨.CAR_FEC_CTL, 2, 0⟩
def CAR_FEC_TX_RATE : Fref := ⟨.CAR_FEC_TX, 2, 0⟩
def CAR_FEC_THR_UNC_N : Fref := ⟨.CAR_FEC_THR, 23, 16⟩
def CAR_FEC_THR_DEG_MARGIN : Fref := ⟨.CAR_FEC_THR, 15, 0⟩
def CAR_TX_CTL_ROLLOFF : Fref := ⟨.CAR_TX_CTL, 23, 19⟩
def CAR_TX_CTL_SC_LOG2 : Fref := ⟨.CAR_TX_CTL, 18, 16⟩
def CAR_TX_CTL_TEST : Fref := ⟨.CAR_TX_CTL, 15, 13⟩
def CAR_TX_CTL_PILOT : Fref := ⟨.CAR_TX_CTL, 12, 11⟩
def CAR_TX_CTL_PRECOMP_EN : Fref := ⟨.CAR_TX_CTL, 10, 10⟩
def CAR_TX_CTL_SQUELCH : Fref := ⟨.CAR_TX_CTL, 1, 1⟩
def CAR_TX_CTL_TX_EN : Fref := ⟨.CAR_TX_CTL, 0, 0⟩
def CAR_TX_RATE_KBD : Fref := ⟨.CAR_TX_RATE, 31, 0⟩
def CAR_TX_PRECOMP_GRID_N : Fref := ⟨.CAR_TX_PRECOMP, 31, 16⟩
def CAR_TX_PRECOMP_D : Fref := ⟨.CAR_TX_PRECOMP, 15, 0⟩
def CAR_TX_RAMP_DOWN_US : Fref := ⟨.CAR_TX_RAMP, 25, 16⟩
def CAR_TX_RAMP_UP_US : Fref := ⟨.CAR_TX_RAMP, 9, 0⟩
def CAR_TX_SQ_RESTART : Fref := ⟨.CAR_TX_SQ, 31, 24⟩
def CAR_TX_SQ_SQ_HOLD : Fref := ⟨.CAR_TX_SQ, 23, 16⟩
def CAR_TX_SQ_CLIP : Fref := ⟨.CAR_TX_SQ, 2, 2⟩
def CAR_TX_SQ_DPLL : Fref := ⟨.CAR_TX_SQ, 1, 1⟩
def CAR_TX_SQ_RX_LOL : Fref := ⟨.CAR_TX_SQ, 0, 0⟩
def CAR_TX_LEVEL_CLIP_THR : Fref := ⟨.CAR_TX_LEVEL, 31, 16⟩
def CAR_TX_LEVEL_BACKOFF : Fref := ⟨.CAR_TX_LEVEL, 15, 0⟩
def CAR_TX_TACK_ALONE : Fref := ⟨.CAR_TX_TACK, 16, 16⟩
def CAR_TX_TACK_LEVEL : Fref := ⟨.CAR_TX_TACK, 15, 0⟩
def CAR_TX_SKEW_VALUE : Fref := ⟨.CAR_TX_SKEW, 15, 0⟩
def CAR_TX_SC_GAIN : Fref := ⟨.CAR_TX_SC, 31, 16⟩
def CAR_TX_SC_E : Fref := ⟨.CAR_TX_SC, 8, 0⟩
def CAR_TX_PE_TAP : Fref := ⟨.CAR_TX_PE, 15, 0⟩
def CAR_PLAN_CTL_LEAD : Fref := ⟨.CAR_PLAN_CTL, 31, 24⟩
def CAR_PLAN_CTL_RETRY_MS : Fref := ⟨.CAR_PLAN_CTL, 23, 14⟩
def CAR_PLAN_CTL_MODE : Fref := ⟨.CAR_PLAN_CTL, 13, 12⟩
def CAR_PLAN_CTL_APPROVE : Fref := ⟨.CAR_PLAN_CTL, 11, 11⟩
def CAR_PLAN_CTL_SHED_EN : Fref := ⟨.CAR_PLAN_CTL, 10, 10⟩
def CAR_PLAN_CTL_RESTORE : Fref := ⟨.CAR_PLAN_CTL, 9, 9⟩
def CAR_PLAN_CTL_TACK_EN : Fref := ⟨.CAR_PLAN_CTL, 8, 8⟩
def CAR_PLAN_CTL_HYST : Fref := ⟨.CAR_PLAN_CTL, 7, 0⟩
def CAR_PLAN_PARAM_MARGIN : Fref := ⟨.CAR_PLAN_PARAM, 31, 16⟩
def CAR_PLAN_PARAM_GAP : Fref := ⟨.CAR_PLAN_PARAM, 15, 8⟩
def CAR_PLAN_PARAM_INTERVAL : Fref := ⟨.CAR_PLAN_PARAM, 7, 0⟩
def CAR_TR_TX_CTL_SBIP_INJ : Fref := ⟨.CAR_TR_TX_CTL, 1, 1⟩
def CAR_TR_TX_CTL_RDI_FORCE : Fref := ⟨.CAR_TR_TX_CTL, 0, 0⟩
def CAR_TR_RX_CTL_DEG_N : Fref := ⟨.CAR_TR_RX_CTL, 31, 24⟩
def CAR_TR_RX_CTL_PTIM_ACT : Fref := ⟨.CAR_TR_RX_CTL, 3, 3⟩
def CAR_TR_RX_CTL_STIM_ACT : Fref := ⟨.CAR_TR_RX_CTL, 2, 2⟩
def CAR_TR_RX_CTL_STIM_EN : Fref := ⟨.CAR_TR_RX_CTL, 0, 0⟩
def CAR_TR_RX_DEG_SDEG_THR : Fref := ⟨.CAR_TR_RX_DEG, 31, 16⟩
def CAR_TR_RX_DEG_PDEG_THR : Fref := ⟨.CAR_TR_RX_DEG, 15, 0⟩
def CAR_TR_STRACE_TX_DATA : Fref := ⟨.CAR_TR_STRACE_TX, 31, 0⟩
def CAR_TR_STRACE_EXP_DATA : Fref := ⟨.CAR_TR_STRACE_EXP, 31, 0⟩
def CAR_TR_SLOT_TX_USED : Fref := ⟨.CAR_TR_SLOT_TX, 15, 15⟩
def CAR_TR_SLOT_TX_CHANNEL : Fref := ⟨.CAR_TR_SLOT_TX, 9, 0⟩
def CAR_TR_SLOT_RX_USED : Fref := ⟨.CAR_TR_SLOT_RX, 15, 15⟩
def CAR_TR_SLOT_RX_CHANNEL : Fref := ⟨.CAR_TR_SLOT_RX, 9, 0⟩
def CAR_TR_PTRACE_TX_DATA : Fref := ⟨.CAR_TR_PTRACE_TX, 31, 0⟩
def CAR_TR_PTRACE_EXP_DATA : Fref := ⟨.CAR_TR_PTRACE_EXP, 31, 0⟩
def CAR_TK_TX_CTL_SYNC : Fref := ⟨.CAR_TK_TX_CTL, 31, 24⟩
def CAR_TK_TX_CTL_RAMP_US : Fref := ⟨.CAR_TK_TX_CTL, 23, 17⟩
def CAR_TK_TX_CTL_ALONE_SF : Fref := ⟨.CAR_TK_TX_CTL, 16, 12⟩
def CAR_TK_TX_CTL_LIVE_SF : Fref := ⟨.CAR_TK_TX_CTL, 11, 8⟩
def CAR_TK_TX_CTL_ALONE_REP : Fref := ⟨.CAR_TK_TX_CTL, 7, 6⟩
def CAR_TK_TX_CTL_LIVE_REP : Fref := ⟨.CAR_TK_TX_CTL, 5, 4⟩
def CAR_TK_TX_CTL_HELLO_EN : Fref := ⟨.CAR_TK_TX_CTL, 2, 2⟩
def CAR_TK_TX_CTL_RDI_EN : Fref := ⟨.CAR_TK_TX_CTL, 1, 1⟩
def CAR_TK_TX_CTL_EN : Fref := ⟨.CAR_TK_TX_CTL, 0, 0⟩
def CAR_TK_TX_TIME_HELLO_MS : Fref := ⟨.CAR_TK_TX_TIME, 31, 20⟩
def CAR_TK_TX_TIME_RDI_MS : Fref := ⟨.CAR_TK_TX_TIME, 19, 8⟩
def CAR_TK_TX_TIME_GAP_US : Fref := ⟨.CAR_TK_TX_TIME, 7, 0⟩
def CAR_TK_RX_CTL_SYNC : Fref := ⟨.CAR_TK_RX_CTL, 31, 24⟩
def CAR_TK_RX_CTL_ALONE_SF : Fref := ⟨.CAR_TK_RX_CTL, 16, 12⟩
def CAR_TK_RX_CTL_LIVE_SF : Fref := ⟨.CAR_TK_RX_CTL, 11, 8⟩
def CAR_TK_RX_CTL_ALONE_REP : Fref := ⟨.CAR_TK_RX_CTL, 7, 6⟩
def CAR_TK_RX_CTL_LIVE_REP : Fref := ⟨.CAR_TK_RX_CTL, 5, 4⟩
def CAR_TK_RX_CTL_CANCEL : Fref := ⟨.CAR_TK_RX_CTL, 1, 1⟩
def CAR_TK_RX_CTL_EN : Fref := ⟨.CAR_TK_RX_CTL, 0, 0⟩
def CAR_TK_RX_THR_CAPTURE : Fref := ⟨.CAR_TK_RX_THR, 31, 16⟩
def CAR_TK_RX_THR_DET_THR : Fref := ⟨.CAR_TK_RX_THR, 15, 0⟩
def CAR_TK_RX_TIME_RDI_CLR_MS : Fref := ⟨.CAR_TK_RX_TIME, 15, 0⟩
def CAR_CM_CTL_INT_S : Fref := ⟨.CAR_CM_CTL, 31, 20⟩
def CAR_CM_CTL_SPACING_M : Fref := ⟨.CAR_CM_CTL, 19, 10⟩
def CAR_CM_CTL_CONF_MIN : Fref := ⟨.CAR_CM_CTL, 9, 2⟩
def CAR_CM_CTL_HIST_EN : Fref := ⟨.CAR_CM_CTL, 1, 1⟩
def CAR_CM_CTL_EN : Fref := ⟨.CAR_CM_CTL, 0, 0⟩
def CAR_CM_THR_TILT_THR : Fref := ⟨.CAR_CM_THR, 31, 16⟩
def CAR_CM_THR_ANOM_THR : Fref := ⟨.CAR_CM_THR, 15, 0⟩
def CAR_CM_THR2_LAUNCH_THR : Fref := ⟨.CAR_CM_THR2, 31, 16⟩
def CAR_CM_THR2_MISMATCH_THR : Fref := ⟨.CAR_CM_THR2, 15, 0⟩
def CAR_CM_FIBRE_GAMMA : Fref := ⟨.CAR_CM_FIBRE, 31, 16⟩
def CAR_CM_FIBRE_DEF_DISP : Fref := ⟨.CAR_CM_FIBRE, 15, 0⟩
def CAR_CM_SPANS_COUNT : Fref := ⟨.CAR_CM_SPANS, 8, 0⟩
def CAR_CM_HIST_REGION : Fref := ⟨.CAR_CM_HIST, 5, 0⟩
def CAR_CM_SPAN0_FIBRE : Fref := ⟨.CAR_CM_SPAN0, 31, 24⟩
def CAR_CM_SPAN0_LENGTH_M : Fref := ⟨.CAR_CM_SPAN0, 23, 0⟩
def CAR_CM_SPAN1_LAUNCH : Fref := ⟨.CAR_CM_SPAN1, 31, 16⟩
def CAR_CM_SPAN1_LOSS : Fref := ⟨.CAR_CM_SPAN1, 15, 0⟩
def CAR_CM_SPAN2_DISP : Fref := ⟨.CAR_CM_SPAN2, 15, 0⟩

end F

end Sys2Proof.Machine
end

