-- ==== Sys2Proof/Machine/RegAddr.lean ====
section
/-! DEFINITION. Reset words, commit scopes of fields, and the register that an offset of a BAR0 window names (R463,
R485, R497 to R505). -/

namespace Sys2Proof.Machine

/-- Reset value of a field, where the register tables give it by index (TIM.DPLL_CTL.BW, TIM.OUT_DIV, MON.IN_CFG.EN,
CAR_x.TX_PE) and otherwise as listed. The MSI-X vector-control word is masked at reset (PRESUMED, log 10). -/
def fldReset (k : RegKey) (f : Fld) : Nat :=
  match k.reg with
  | .TIM_DPLL_CTL => if f.hi = 9 then (if k.idx = 0 then 2 else 1) else f.rst
  | .TIM_OUT_DIV => if k.idx < 2 then 16 else if k.idx = 2 then 1000000000 else 125000
  | .MON_IN_CFG => if f.hi = 0 then (if k.idx ≤ 23 then 0 else 1) else f.rst
  | .CAR_TX_PE => if k.idx % 64 = 8 then 0x4000 else 0
  | .HST_MSIX => if k.idx % 4 = 3 then 1 else 0
  | _ => f.rst

/-- Reset word of a register. -/
def resetWord (k : RegKey) : Word :=
  BitVec.ofNat 32 (k.reg.desc.flds.foldr (fun f a => fldReset k f * 2 ^ f.lo + a) 0)

/-- Number of instances of a register's inner arrays. -/
def count (ds : List (Nat × Nat)) : Nat := ds.foldr (fun d a => d.1 * a) 1

/-- The carrier number of a carrier register's index. -/
def RegKey.carNo (k : RegKey) : Nat := k.idx / max 1 (count k.reg.desc.dims.tail)

/-- The index of a carrier register of carrier `x`, at index `i` within the carrier. -/
def carIdx (r : RegId) (x : Carrier) (i : Nat) : Nat := x.num * count r.desc.dims.tail + i

/-- Commit scope number (R23) of a staged field. -/
def scopeOf (k : RegKey) (s : ScopeSel) : Nat :=
  match s with
  | .tx => 2 * k.carNo
  | .rx => 2 * k.carNo + 1
  | .txA => 0
  | .txB => 2
  | .cli => 4
  | .seam => 5
  | .tim => 6
  | .mon => 7
  | .memx => 8

/-- Bits of a register's staged fields that lie in one of `scopes`. -/
def scopeMask (k : RegKey) (scopes : List Nat) : Word :=
  k.reg.desc.flds.foldr (fun f a => match f.stg with
    | some (_, sel) => if scopes.contains (scopeOf k sel) then maskOf f.hi f.lo ||| a else a
    | none => a) 0

/-- Bits of a register's fields that satisfy `p`. -/
def fldMask (r : RegId) (p : Fld → Bool) : Word :=
  r.desc.flds.foldr (fun f a => if p f then maskOf f.hi f.lo ||| a else a) 0

/-- A register has a staged field. -/
def RegId.staged (r : RegId) : Bool := r.desc.flds.any (fun f => f.stg.isSome)

/-- Whether every field of a register is of access type CNT. -/
def RegId.isCnt (r : RegId) : Bool := r.desc.flds.any (fun f => f.acc == .cnt)

/-- Index of an offset within nested arrays, outermost first. -/
def dimIdx (ds : List (Nat × Nat)) (off : Nat) : Option Nat :=
  match ds with
  | [] => if off = 0 then some 0 else none
  | (n, st) :: r =>
    if off / st < n then (dimIdx r (off % st)).map (fun j => off / st * count r + j) else none

/-- The instance of a register at an offset, if the offset is one of its. -/
def RegId.at? (r : RegId) (off : Nat) : Option RegKey :=
  if off < r.desc.base then none else (dimIdx r.desc.dims (off - r.desc.base)).map (fun i => ⟨r, i⟩)

/-- The first register of a list at an offset. -/
def findReg (l : List RegId) (off : Nat) : Option RegKey :=
  match l with
  | [] => none
  | r :: t => match r.at? off with
    | some k => some k
    | none => findReg t off

/-- Offset of a register instance in PF0's window. -/
def dimOff (ds : List (Nat × Nat)) (i : Nat) : Nat :=
  match ds with
  | [] => 0
  | (_, st) :: r => i / count r * st + dimOff r (i % count r)

/-- BAR0 offset of a register (R498). -/
def RegKey.off (k : RegKey) : Nat := k.reg.desc.base + dimOff k.reg.desc.dims k.idx

/-- Block number in the order of R480, and base, of an offset. -/
def blockOf (off : Nat) : Option (Nat × Nat) :=
  if off / 0x100000 < 13 then some (off / 0x100000, off / 0x100000 * 0x100000)
  else if 0x1000000 ≤ off ∧ off < 0x1800000 then some (13, 0x1000000)
  else if 0x1800000 ≤ off ∧ off < 0x2000000 then some (14, 0x1800000)
  else none

/-- The registers of a block. -/
def blockRegs (n : Nat) : List RegId :=
  match n with
  | 0 => regsGlb | 1 => regsHst ++ [.HST_MSIX, .HST_PBA] | 2 => regsEvt | 3 => regsMem | 4 => regsCxl | 5 => regsSti
  | 6 => regsTim | 7 => regsMon | 8 => regsChk | 9 => regsPrf | 10 => regsSec | 11 => regsCli | 12 => regsSeam
  | _ => regsCar

/-- The registers of PF1's HST window: its 8 rings at indices 64 to 71, its event rings at 4 and 5, its MSI-X table
after PF0's (R463, R485). The other HST registers are those of PF0's window (log 11). -/
def pf1Hst (off : Nat) : Option RegKey :=
  if off < 0x100000 + 8 * 0x40 then
    (findReg [.HST_RING_CTL, .HST_RING_STAT, .HST_RING_BASE_LO, .HST_RING_BASE_HI, .HST_CPL_BASE_LO,
      .HST_CPL_BASE_HI, .HST_RING_ALIVE, .HST_RING_CONS, .HST_RING_HALT_CNT] off).map (fun k => ⟨k.reg, k.idx + 64⟩)
  else if 0x140000 ≤ off ∧ off < 0x148000 then (findReg [.HST_DB] off).map (fun k => ⟨k.reg, k.idx + 64⟩)
  else if 0x160000 ≤ off ∧ off < 0x160080 then
    (findReg [.EVT_EVR_CTL, .EVT_EVR_BASE_LO, .EVT_EVR_BASE_HI, .EVT_EVR_HEAD, .EVT_EVR_TAIL, .EVT_EVR_SEQ,
      .EVT_EVR_LOST] (off - 0x160000 + 0x200000)).map (fun k => ⟨k.reg, k.idx + 4⟩)
  else if off = 0x160200 then some ⟨.HST_PF1_ROUTE0, 0⟩
  else if off = 0x160204 then some ⟨.HST_PF1_ROUTE1, 0⟩
  else if 0x180000 ≤ off ∧ off < 0x180080 then (findReg [.HST_MSIX] off).map (fun k => ⟨k.reg, k.idx + 256⟩)
  else if off = 0x181000 then some ⟨.HST_PBA, 2⟩
  else findReg [.HST_ARB, .HST_EVT, .HST_DB_BAD] off

/-- The register that a word-aligned offset names in a function's window; none where it is reserved (R501). -/
def resolve (fn : Fn) (off : Nat) : Option RegKey :=
  match blockOf off with
  | none => none
  | some (n, b) =>
    if off - b = 0xFF000 then some ⟨.SNAP, n⟩
    else if off - b = 0xFF004 then some ⟨.SNAP_TIME_LO, n⟩
    else if off - b = 0xFF008 then some ⟨.SNAP_TIME_HI, n⟩
    else if off - b = 0xFF00C then some ⟨.SNAP_LIVE, n⟩
    else if n = 1 ∧ fn = .PF1 then pf1Hst off
    else findReg (blockRegs n) off

end Sys2Proof.Machine
end

