-- ==== Sys2Proof/Machine/Ops.lean ====
section
/-! DEFINITION. Shared operations: parts of the state, configuration fields, counters, the performance monitor's edge
counts, event records and their rings, standing defects. -/

namespace Sys2Proof.Machine

/-! ### Parts of the state -/

/-- The units of carrier `x`. -/
def State.car (s : State) (x : Carrier) : Car :=
  match x with
  | .A => s.carA
  | .B => s.carB

/-- Change carrier `x`'s units. -/
def State.modCar (s : State) (x : Carrier) (f : Car → Car) : State :=
  match x with
  | .A => { s with carA := f s.carA }
  | .B => { s with carB := f s.carB }

/-- Change carrier `x`'s front end. -/
def State.modFe (s : State) (x : Carrier) (f : Fe → Fe) : State := s.modCar x fun c => { c with fe := f c.fe }
/-- Change carrier `x`'s receive core. -/
def State.modRxc (s : State) (x : Carrier) (f : Rxc → Rxc) : State := s.modCar x fun c => { c with rxc := f c.rxc }
/-- Change carrier `x`'s line code. -/
def State.modFec (s : State) (x : Carrier) (f : Fec → Fec) : State := s.modCar x fun c => { c with fec := f c.fec }
/-- Change carrier `x`'s transmit chain. -/
def State.modTx (s : State) (x : Carrier) (f : TxCh → TxCh) : State := s.modCar x fun c => { c with tx := f c.tx }
/-- Change carrier `x`'s bit loading. -/
def State.modPlan (s : State) (x : Carrier) (f : Plan → Plan) : State :=
  s.modCar x fun c => { c with plan := f c.plan }
/-- Change carrier `x`'s framer. -/
def State.modTr (s : State) (x : Carrier) (f : Tr → Tr) : State := s.modCar x fun c => { c with tr := f c.tr }
/-- Change carrier `x`'s Tack. -/
def State.modTk (s : State) (x : Carrier) (f : Tack → Tack) : State := s.modCar x fun c => { c with tk := f c.tk }
/-- Change carrier `x`'s crease map. -/
def State.modCm (s : State) (x : Carrier) (f : Crease → Crease) : State := s.modCar x fun c => { c with cm := f c.cm }
/-- Change what power, reset and time hold. -/
def State.modSys (s : State) (f : Sys → Sys) : State := { s with sys := f s.sys }
/-- Change the boot state. -/
def State.modBoot (s : State) (f : Boot → Boot) : State := { s with boot := f s.boot }
/-- Change Seam. -/
def State.modSeam (s : State) (f : Seam → Seam) : State := { s with seam := f s.seam }
/-- Change the monitor. -/
def State.modMon (s : State) (f : Mon → Mon) : State := { s with mon := f s.mon }

/-- Device time in ns, 64 bits (R11). -/
def State.ns (s : State) : Nat := s.sys.dtime / 65536 % 2 ^ 64

/-- An on-chip memory of R436. -/
def State.memo (s : State) (m : Nat) : MemSt := agetD s.mem.mems m memReset
/-- Change it. -/
def State.modMem (s : State) (m : Nat) (f : MemSt → MemSt) : State :=
  { s with mem := { s.mem with mems := aset s.mem.mems m (f (s.memo m)) } }
/-- Word `w` of memory `m` is poisoned. -/
def State.poisoned (s : State) (m w : Nat) : Bool := (aget (s.memo m).poison w).isSome

/-- A command's effect while the block runs: in power-on reset (R540, R543) no command has one. -/
def live (s : State) (f : State → State) : Host.Outcome State Fault Refusal :=
  .next (if s.sys.held then s else f s)

/-- `f` when `c`, else nothing. -/
def when_ (c : Bool) (f : State → State) (s : State) : State := if c then f s else s

/-- The next free value: the state with its index advanced, and the index (see Config). -/
def State.draw (s : State) : State × Nat := (s.modSys fun y => { y with fresh := y.fresh + 1 }, s.sys.fresh)

/-! ### Configuration -/

/-- A reader of register words: active values, or those a commit would leave. -/
abbrev Rd := RegKey → Word

/-- Active register words (R20). -/
def State.rd (s : State) : Rd := fun k => agetD s.regs.active k (resetWord k)

/-- A field's value at index `i`. -/
def Fref.at (f : Fref) (r : Rd) (i : Nat) : Nat := bits (r ⟨f.reg, i⟩) f.hi f.lo

/-- A one-bit field is 1. -/
def Fref.on (f : Fref) (r : Rd) (i : Nat) : Bool := f.at r i == 1

/-- A field's value in a word of its register. -/
def Fref.of (f : Fref) (w : Word) : Nat := bits w f.hi f.lo

/-- A field's value as a signed number. -/
def Fref.int (f : Fref) (r : Rd) (i : Nat) : Int := sgn (f.hi + 1 - f.lo) (f.at r i)

/-- Active value of a field. -/
def State.cf (s : State) (f : Fref) (i : Nat) : Nat := f.at s.rd i

/-- Active value of a carrier register's field, at index `i` within the carrier. -/
def State.cfx (s : State) (f : Fref) (x : Carrier) (i : Nat := 0) : Nat := f.at s.rd (carIdx f.reg x i)

/-- The same, signed. -/
def State.cfxI (s : State) (f : Fref) (x : Carrier) (i : Nat := 0) : Int := f.int s.rd (carIdx f.reg x i)

/-- Set the active word of a register. -/
def State.setWord (s : State) (k : RegKey) (w : Word) : State :=
  { s with regs := { s.regs with active := aset s.regs.active k w } }

/-- Set the active value of a field at index `i`. -/
def State.setField (s : State) (f : Fref) (i v : Nat) : State :=
  s.setWord ⟨f.reg, i⟩ (setBits (s.rd ⟨f.reg, i⟩) f.hi f.lo v)

/-- Set the active value of a carrier register's field. -/
def State.setFieldx (s : State) (f : Fref) (x : Carrier) (i v : Nat) : State := s.setField f (carIdx f.reg x i) v

/-- The last pending value of a register's bits (R21, R27): at most one pending set holds each scope. -/
def pendWord (p : List Pend) (k : RegKey) (w : Word) : Word :=
  match p with
  | [] => w
  | c :: r => pendWord r k (match aget c.vals k with
    | some (v, m) => merge w v m
    | none => w)

/-- The staging copy of a register (R19, R41): what was written since, else the pending value, else the active one. -/
def State.stagedWord (s : State) (k : RegKey) : Word :=
  match aget s.regs.staged k with
  | some (v, m) => merge (pendWord s.regs.pend k (s.rd k)) v m
  | none => pendWord s.regs.pend k (s.rd k)

/-- The values that would be active after a commit of `scopes` (R315, R456): the staging copies of the scopes it
names, the active values of the others. -/
def State.rdAfter (s : State) (scopes : List Nat) : Rd :=
  fun k => merge (s.rd k) (s.stagedWord k) (scopeMask k scopes)

/-- Write bits of a staging copy. -/
def State.stage (s : State) (k : RegKey) (v m : Word) : State :=
  let old := (aget s.regs.staged k).getD (0, 0)
  { s with regs := { s.regs with staged := aset s.regs.staged k (merge old.1 v m, old.2 ||| m) } }

/-- Write values straight into the active words. -/
def State.applyVals (s : State) (v : Tab RegKey (Word × Word)) : State :=
  v.foldl (fun s e => s.setWord e.1 (merge (s.rd e.1) e.2.1 e.2.2)) s

/-- Whether a scope has a pending commit (R27, R34). -/
def State.pending? (s : State) (scope : Nat) : Bool := s.regs.pend.any (fun p => p.scopes.contains scope)

/-! ### Counters -/

/-- A 32-bit counter of type CNT advances, and holds at its largest value (R508). -/
def Io.bump (io : Io) (k : RegKey) (n : Nat := 1) : Io :=
  { io with cnt := aset io.cnt k (min 0xFFFFFFFF (agetD io.cnt k 0 + n)) }

/-- A 64-bit counter advances; `k` is its _LO register. -/
def Io.bump64 (io : Io) (k : RegKey) (n : Nat := 1) : Io :=
  { io with cnt := aset io.cnt k ((agetD io.cnt k 0 + n) % 2 ^ 64) }

/-- A 64-bit counter that counts in units of `u` advances by `n` parts, the remainder carried (R508). -/
def Io.bumpUnits (io : Io) (k : RegKey) (u n : Nat) : Io :=
  let t := agetD io.rem k 0 + n
  ({ io with rem := aset io.rem k (t % u) }).bump64 k (t / u)

/-- A counter of the block. -/
def State.bump (s : State) (r : RegId) (i : Nat) (n : Nat := 1) : State := { s with io := s.io.bump ⟨r, i⟩ n }
/-- A 64-bit counter of the block. -/
def State.bump64 (s : State) (r : RegId) (i : Nat) (n : Nat := 1) : State := { s with io := s.io.bump64 ⟨r, i⟩ n }
/-- A carrier's counter. -/
def State.bumpx (s : State) (r : RegId) (x : Carrier) (n : Nat := 1) (i : Nat := 0) : State :=
  s.bump r (carIdx r x i) n
/-- A carrier's 64-bit counter. -/
def State.bumpx64 (s : State) (r : RegId) (x : Carrier) (n : Nat := 1) (i : Nat := 0) : State :=
  s.bump64 r (carIdx r x i) n
/-- Live value of a counter. -/
def State.cnt (s : State) (r : RegId) (i : Nat) : Nat := agetD s.io.cnt ⟨r, i⟩ 0

/-! ### Performance monitor (R512, R513) -/

/-- Performance counter `i` runs. -/
def prfRuns (r : Rd) (i : Nat) : Bool :=
  if i < 16 then bit (r ⟨.PRF_RUN_LO, 0⟩).toNat i else bit (r ⟨.PRF_RUN_HI, 0⟩).toNat (i - 16)

/-- The configuration of counter `i` selects this event (`src` 0) or signal (`src` 1) in this mode. -/
def prfSel (w : Word) (mode src sel car idx : Nat) : Bool :=
  bits w 30 30 == mode && bits w 29 29 == src && bits w 15 0 == sel &&
  (bits w 28 27 == 0 || bits w 28 27 == car) && (bits w 26 26 == 1 || bits w 25 16 == idx)

/-- Advance every running counter that selects an edge of this event or signal. -/
def Io.prfEdge (io : Io) (r : Rd) (src sel car idx : Nat) (n : Nat := 1) : Io :=
  if r ⟨.PRF_RUN_LO, 0⟩ = 0 ∧ r ⟨.PRF_RUN_HI, 0⟩ = 0 then io else
  (List.range 32).foldl (fun io i => if prfRuns r i && prfSel (r ⟨.PRF_CNT_CFG, i⟩) 0 src sel car idx
    then io.bump64 ⟨.PRF_CNT_LO, i⟩ n else io) io

/-- An edge of an internal signal of R513. -/
def State.signal (s : State) (sel car idx : Nat) (n : Nat := 1) : State :=
  { s with io := s.io.prfEdge s.rd 1 sel car idx n }

/-! ### Event records -/

/-- The _EVT register and bit of an event code (R509); none where the tables give it none (0x0201, 0x080C). -/
def evtBit (e : Ev) : Option (RegKey × Nat) :=
  let i := e.code % 256 - 1
  let x := e.car - 1
  match e.code / 256 with
  | 0x01 => some (⟨.HST_EVT, 0⟩, i)
  | 0x02 =>
    let d := byteAt e.data 0
    match i with
    | 1 => some (⟨.STI_DIE_EVT, d⟩, 0)
    | 2 => some (⟨.STI_DIE_EVT, d⟩, 1)
    | 3 => some (⟨.STI_DIE_EVT, d⟩, 2)
    | 5 => some (⟨.STI_DIE_EVT, d⟩, 3)
    | 4 => some (⟨.STI_DIE_EVT, d⟩, 4)
    | 6 => some (⟨.STI_DIE_EVT, d⟩, 5)
    | _ => none
  | 0x03 => some (⟨.CAR_FE_EVT, x⟩, i)
  | 0x04 => some (⟨.CAR_RXC_EVT, x⟩, i)
  | 0x05 => some (⟨.CAR_FEC_EVT, x⟩, i)
  | 0x06 => some (⟨.CAR_TX_EVT, x⟩, i)
  | 0x07 => some (⟨.CAR_PLAN_EVT, x⟩, i)
  | 0x08 => if i < 11 then some (⟨.CAR_TR_EVT, x⟩, i) else none
  | 0x09 => some (⟨.SEC_CIPH_EVT, 0⟩, i)
  | 0x0A => some (⟨.SEAM_EVT, 0⟩, i)
  | 0x0B => some (⟨.CLI_EVT, 0⟩, i)
  | 0x0C => some (⟨.CAR_TK_EVT, x⟩, i)
  | 0x0D => some (⟨.CAR_CM_EVT, x⟩, i)
  | 0x0E => some (⟨.TIM_EVT, 0⟩, i)
  | 0x0F => some (⟨.MON_EVT, 0⟩, i)
  | 0x10 => some (⟨.GLB_CAL_EVT, 0⟩, i)
  | 0x11 => if i < 8 then some (⟨.MEM_EVT, 0⟩, i) else some (⟨.CXL_EVT, 0⟩, i - 8)
  | 0x12 => some (⟨.SEC_EVT, 0⟩, i)
  | 0x13 => some (⟨.GLB_THERM_EVT, 0⟩, i)
  | _ => none

/-- Set an EVENTS bit and advance SEQ (R509). -/
def evtSet (w : Word) (b : Nat) : Word :=
  setBits (w ||| BitVec.ofNat 32 (2 ^ b)) 31 24 (bits w 31 24 + 1)

/-- Set the EVENTS bit of a raised or occurrence record, or of a marker. -/
def Io.evtMark (io : Io) (e : Ev) : Io :=
  if e.kind = 2 then io else
  match evtBit e with
  | some (k, b) => { io with evtw := aset io.evtw k (evtSet (agetD io.evtw k 0) b) }
  | none => io

/-- The 32 bytes of a record with sequence number `q` (R482). -/
def Ev.bytes (e : Ev) (q : Nat) : Bytes :=
  let b := leBytes 4 q ++ leBytes 8 e.dtime ++ leBytes 2 e.code ++
    leBytes 2 (e.kind * 16384 + e.car * 4096 + e.index % 4096) ++ padTo 12 e.data
  b ++ leBytes 4 (crc32c b)

/-- Event rings 4 and 5 are PF1's; they are never class 0 (R485). -/
def evrUrgent (r : Rd) (e : Nat) : Bool := e < 4 && F.EVT_EVR_CTL_URGENT.on r e

/-- Records an event ring holds. -/
def evrSize (r : Rd) (e : Nat) : Nat := 2 ^ F.EVT_EVR_CTL_LOG2SIZE.at r e

/-- The PF0 ring of a code family (R484): its route, or ring 0 when that ring is disabled. -/
def evrRoute (r : Rd) (code : Nat) : Nat :=
  let f := code / 256 - 1
  let e := if f < 16 then bits (r ⟨.EVT_EVR_ROUTE0, 0⟩) (2 * f + 1) (2 * f)
    else bits (r ⟨.EVT_EVR_ROUTE1, 0⟩) (2 * (f - 16) + 1) (2 * (f - 16))
  if F.EVT_EVR_CTL_EN.on r e then e else 0

/-- The PF1 rings that take a copy (R485). -/
def evrCopies (r : Rd) (code : Nat) : List Nat :=
  let f := code / 256 - 1
  match (if f < 16 then bits (r ⟨.HST_PF1_ROUTE0, 0⟩) (2 * f + 1) (2 * f)
    else bits (r ⟨.HST_PF1_ROUTE1, 0⟩) (2 * (f - 16) + 1) (2 * (f - 16))) with
  | 0 => []
  | 1 => [4]
  | 2 => [5]
  | _ => [4, 5]

/-- Ring of a held record: a copy's PF1 ring, else its family's PF0 ring as routed now. -/
def HeldEv.ring (h : HeldEv) (r : Rd) : Nat := h.tgt.getD (evrRoute r h.ev.code)

/-- State of an event ring. -/
def Io.evring (io : Io) (e : Nat) : EvRing := agetD io.evr e evRingReset

/-- Send or pend an MSI-X vector (R461, R488): a masked vector sets its pending bit. -/
def Io.msix (io : Io) (r : Rd) (fn : Fn) (v : Nat) : Io :=
  if bits (r ⟨.HST_MSIX, fn.num * 256 + v * 4 + 3⟩) 0 0 = 1 then
    { io with pba := if io.pba.contains (fn, v) then io.pba else (fn, v) :: io.pba }
  else ({ io with out := .msix fn v :: io.out }).prfEdge r 1 0x0033 0 v

/-- A record can be written to ring `e` now (R484, R487). -/
def Io.canPost (io : Io) (r : Rd) (e : Nat) : Bool :=
  io.link && !io.perst && F.EVT_EVR_CTL_EN.on r e &&
  ((io.evring e).tail + 2 ^ 32 - F.EVT_EVR_HEAD_INDEX.at r e) % 2 ^ 32 < evrSize r e

/-- The function of an event ring. -/
def evrFn (e : Nat) : Fn := if e < 4 then .PF0 else .PF1

/-- Write a record to ring `e`, and send the vector where R488 or R476 has it sent. -/
def Io.postTo (io : Io) (r : Rd) (e : Nat) (v : Ev) : Io :=
  let q := io.evring e
  let base := F.EVT_EVR_BASE_LO_ADDR.at r e + 2 ^ 32 * F.EVT_EVR_BASE_HI_ADDR.at r e
  let n := q.unsig + 1
  let now := evrUrgent r e || decide (max 1 (F.EVT_EVR_CTL_COAL_N.at r e) ≤ n)
  let q' := { q with tail := (q.tail + 1) % 2 ^ 32, seq := (q.seq + 1) % 2 ^ 32, unsig := if now then 0 else n }
  let io := { io with
    evr := aset io.evr e q'
    out := .hostWrite (base + q.tail % evrSize r e * 32) (v.bytes q.seq) :: io.out }
  let io := io.prfEdge r 1 0x0032 0 e
  if now then io.msix r (evrFn e) (F.EVT_EVR_CTL_VECTOR.at r e) else io

/-- Where a held record for ring `e` finds room (R476, R487): the reserve for a class-0 ring, the shared entries, then
the overflow region of `cap` records. -/
def Io.room (io : Io) (r : Rd) (cap e : Nat) : Option HoldPlace :=
  let n (p : HoldPlace) := (io.heldEv.filter (fun h => h.place == p)).length
  if evrUrgent r e && n .reserve < 512 then some .reserve
  else if n .shared < 4096 && n .region = 0 then some .shared
  else if n .region < cap then some .region
  else none

/-- Post, hold or drop a record for one ring; `tgt` as in HeldEv. Answers false when it was dropped. -/
def Io.offer (io : Io) (r : Rd) (cap : Nat) (tgt : Option Nat) (v : Ev) : Io × Bool :=
  let e := tgt.getD (evrRoute r v.code)
  let q := io.evring e
  if io.canPost r e && q.lost == 0 && !(io.heldEv.any (fun h => h.ring r == e)) then (io.postTo r e v, true)
  else match io.room r cap e with
    | some p => ({ io with heldEv := io.heldEv ++ [⟨tgt, v, p⟩] }, true)
    | none => (({ io with evr := aset io.evr e { q with
        lost := q.lost + 1, firstLost := if q.lost = 0 then v.dtime else q.firstLost } }).bump
          ⟨.EVT_EVR_LOST, e⟩, false)

/-- A record: counted, posted, held or dropped in its PF0 ring and copied to PF1's rings; unless dropped it sets its
EVENTS bit (R484 to R487, R509, R512). -/
def Io.record (io : Io) (r : Rd) (cap : Nat) (v : Ev) : Io :=
  let io := if v.kind < 2 then io.prfEdge r 0 v.code v.car v.index else io
  let p := io.offer r cap none v
  let io := if p.2 then p.1.evtMark v else p.1
  (evrCopies r v.code).foldl (fun io e => (io.offer r cap (some e) v).1) io

/-- The marker of lost records (R487). -/
def marker (q : EvRing) (now : Nat) : Ev := ⟨0x0106, 3, 0, 0, leBytes 4 q.lost ++ leBytes 8 q.firstLost, now⟩

/-- Post the held records of ring `e` in order while there is room, then the marker of those lost (R487). -/
def Io.drainRing (io : Io) (r : Rd) (now e : Nat) : Io :=
  let step := fun (a : Io × List HeldEv) (h : HeldEv) =>
    if h.ring r == e && a.1.canPost r e && !(a.2.any (fun g => g.ring r == e)) then (a.1.postTo r e h.ev, a.2)
    else (a.1, a.2 ++ [h])
  let p := io.heldEv.foldl step (io, [])
  let io := { p.1 with heldEv := p.2 }
  let q := io.evring e
  if q.lost > 0 && io.canPost r e && !(io.heldEv.any (fun g => g.ring r == e)) then
    let m := marker q now
    let io := (io.postTo r e m).evtMark m
    { io with evr := aset io.evr e { io.evring e with lost := 0 } }
  else io

/-- Post what is held, class-0 rings first (R476, R487). -/
def Io.drain (io : Io) (r : Rd) (now : Nat) : Io :=
  if io.heldEv.isEmpty && !([0, 1, 2, 3, 4, 5].any (fun e => (io.evring e).lost > 0)) then io else
  ((List.range 6).filter (evrUrgent r) ++ (List.range 6).filter (fun e => !evrUrgent r e)).foldl
    (fun io e => io.drainRing r now e) io

/-- Records the overflow region holds: a READY region's bytes by 32 (R487, R457). -/
def State.ovfCap (s : State) : Nat :=
  let g := s.cf F.CXL_CTL_OVF_REGION 0
  if g < 32 ∧ (agetD s.cxl.rgns g rgnReset).st = .ready then s.cf F.CXL_RGN_SIZE_SIZE g * 2097152 / 32 else 0

/-- Post a record with the present device time. -/
def State.post (s : State) (code kind car index : Nat) (data : Bytes) : State :=
  { s with io := s.io.record s.rd s.ovfCap ⟨code, kind, car, index, data, s.ns⟩ }

/-- An occurrence record: code, carrier number (0 none, 1 A, 2 B), INDEX, DATA from byte 16. -/
def State.occ (s : State) (code car index : Nat) (data : Bytes := []) : State := s.post code 0 car index data

/-- Carrier number of an event (R482). -/
def Carrier.ev (x : Carrier) : Nat := x.num + 1

/-- A defect stands. -/
def State.stands (s : State) (code car index : Nat) (sub : Nat := 0) : Bool :=
  s.io.defects.contains ⟨code, car, index, sub⟩

/-- Raise a defect: a raised record when it did not stand (R482). -/
def State.raise (s : State) (code car index : Nat) (data : Bytes := []) (sub : Nat := 0) : State :=
  if s.stands code car index sub then s else
  ({ s with io := { s.io with defects := ⟨code, car, index, sub⟩ :: s.io.defects } }).post code 1 car index data

/-- Forget a defect without a record (R325). -/
def State.forget (s : State) (code car index : Nat) (sub : Nat := 0) : State :=
  { s with io := { s.io with defects := s.io.defects.filter (· ≠ ⟨code, car, index, sub⟩) } }

/-- Clear a defect: a cleared record when it stood. -/
def State.clear (s : State) (code car index : Nat) (data : Bytes := []) (sub : Nat := 0) : State :=
  if s.stands code car index sub then (s.forget code car index sub).post code 2 car index data else s

/-- Raise or clear a defect as a condition holds or not. -/
def State.defect (s : State) (on : Bool) (code car index : Nat) (data : Bytes := []) (sub : Nat := 0) : State :=
  if on then s.raise code car index data sub else s.clear code car index data sub

/-- A word of a memory becomes poisoned (R434, R441). -/
def State.memPoison (s : State) (m w : Nat) : State :=
  s.modMem m fun q => { q with poison := aset q.poison w 0, errs := q.errs.filter fun e => e.1 != w }

/-- A poisoned word of a memory is read: a dispersion table reports it (R86, R111). -/
def State.memSeen (s : State) (m : Nat) : State := if m < 2 then s.raise 0x0306 (m + 1) 0 [0xFF] else s

/-- An armed injection is made in word `w` of memory `m` as it is written (R448, R460). -/
def State.memInjectAt (s : State) (m w : Nat) : State :=
  if s.cf F.MEM_INJ_ARM 0 = 0 ∨ s.cf F.MEM_INJ_MEM 0 ≠ m then s else
  match s.cf F.MEM_INJ_KIND 0 with
  | 0 => s
  | 3 => (s.setField F.MEM_INJ_ARM 0 0).memPoison m w
  | k => (s.setField F.MEM_INJ_ARM 0 0).modMem m fun q => { q with errs := aset q.errs w k }

/-- A whole word of a memory is written: its poison and its errors go (R434). -/
def State.memFull (s : State) (m w : Nat) : State :=
  let s := s.modMem m fun q => { q with
    poison := q.poison.filter (fun e => e.1 != w), errs := q.errs.filter (fun e => e.1 != w),
    reread := q.reread.filter (· != w) }
  let s := if m < 2 ∧ (s.memo m).poison = [] then s.clear 0x0306 (m + 1) 0 [0xFF] else s
  s.memInjectAt m w

/-- Every word of a memory is written anew, the first word first (R434). -/
def State.memClean (s : State) (m : Nat) : State :=
  let s := s.modMem m fun q => { q with poison := [], errs := [], reread := [] }
  (if m < 2 then s.clear 0x0306 (m + 1) 0 [0xFF] else s).memInjectAt m 0

/-- Put something out. -/
def State.emit (s : State) (o : Out) : State := { s with io := { s.io with out := o :: s.io.out } }

/-- Apply `f` for each element of a list, in order. -/
def State.each {α : Type} (s : State) (l : List α) (f : State → α → State) : State := l.foldl f s

end Sys2Proof.Machine
end

