-- ==== Sys2Proof/Machine/Link.lean ====
section
/-! DEFINITION. What one unit's condition does to the units behind it: output squelch causes (R194, R195), receive-core,
aligner and framer losses (R134, R161, R239), section and path signal fail (R247), Seam's copy conditions and
selection (R291 to R300), the replacement signal (R324). -/

namespace Sys2Proof.Machine

/-! ### Channels -/

/-- Placement of a channel (R314). -/
inductive Place where
  | none | one (x : Carrier) | bonded | prot
deriving DecidableEq, Repr

/-- Slots of a channel on a carrier. -/
def slotsOf (r : Rd) (c : Nat) (x : Carrier) : Nat :=
  match x with
  | .A => F.CLI_CH_SLOTS_SLOTS_A.at r c
  | .B => F.CLI_CH_SLOTS_SLOTS_B.at r c

/-- Placement from the counts and BOND. -/
def placeOf (r : Rd) (c : Nat) : Place :=
  match slotsOf r c .A, slotsOf r c .B with
  | 0, 0 => .none
  | _ + 1, 0 => .one .A
  | 0, _ + 1 => .one .B
  | _ + 1, _ + 1 => if F.CLI_CH_SLOTS_BOND.on r c then .bonded else .prot

/-- Insert a number into an ascending list, once. -/
def insSorted (n : Nat) (l : List Nat) : List Nat :=
  match l with
  | [] => [n]
  | a :: t => if n < a then n :: a :: t else if n = a then a :: t else a :: insSorted n t

/-- Indices of a register that a table lists, ascending. -/
def idxsOf {α : Type} (t : Tab RegKey α) (p : RegId → Bool) : List Nat :=
  t.foldl (fun l e => if p e.1.reg then insSorted e.1.idx l else l) []

/-- The channels whose CH_CFG or CH_SLOTS is not at reset, ascending: every enabled or placed channel is among them. -/
def State.chans (s : State) : List Nat := idxsOf s.regs.active fun r => r == .CLI_CH_CFG || r == .CLI_CH_SLOTS

/-- Enabled channels, ascending. -/
def State.onChans (s : State) : List Nat := s.chans.filter (fun c => F.CLI_CH_CFG_EN.on s.rd c)

/-- State of a channel at the client block. -/
def State.chan (s : State) (c : Nat) : Chan := agetD s.cli.ch c chanReset
/-- Change it. -/
def State.modChan (s : State) (c : Nat) (f : Chan → Chan) : State :=
  { s with cli := { s.cli with ch := aset s.cli.ch c (f (s.chan c)) } }
/-- State of a channel at Seam. -/
def State.sch (s : State) (c : Nat) : SeamCh := agetD s.seam.chans c seamChReset
/-- Change it. -/
def State.modSch (s : State) (c : Nat) (f : SeamCh → SeamCh) : State :=
  { s with seam := { s.seam with chans := aset s.seam.chans c (f (s.sch c)) } }
/-- A channel copy's overhead state on a carrier. -/
def State.path (s : State) (x : Carrier) (c : Nat) : Path := agetD (s.car x).tr.paths c pathReset
/-- Change it. -/
def State.modPath (s : State) (x : Carrier) (c : Nat) (f : Path → Path) : State :=
  s.modTr x fun t => { t with paths := aset t.paths c (f (agetD t.paths c pathReset)) }

/-- Slot map entries of a carrier in ascending slot number, as (slot, channel) of the used ones; `reg` is TR_SLOT_TX
or TR_SLOT_RX (R235). -/
def State.slotMap (s : State) (reg : RegId) (x : Carrier) : List (Nat × Nat) :=
  (List.range 456).filterMap fun i =>
    let w := s.rd ⟨reg, carIdx reg x i⟩
    if bits w 15 15 = 1 then some (i, bits w 9 0) else none

/-- A channel owns a slot in a map. -/
def State.ownsSlot (s : State) (reg : RegId) (x : Carrier) (c : Nat) : Bool :=
  s.regs.active.any fun e => e.1.reg == reg && e.1.carNo == x.num && bits e.2 15 15 == 1 && bits e.2 9 0 == c

/-! ### Signal fail (R247) -/

/-- Section signal fail of a carrier's receive. -/
def State.ssf (s : State) (x : Carrier) : Bool :=
  (agetD s.sti.dies x.rxDie dieReset).fault || (s.car x).rxc.st != .locked || (s.car x).fec.st != .locked ||
  (s.car x).tr.st != .aligned || s.stands 0x0807 x.ev 0 ||
  (s.stands 0x0805 x.ev 0 && s.cfx F.CAR_TR_RX_CTL_STIM_ACT x == 1)

/-- Path signal fail of a channel copy. -/
def State.psf (s : State) (x : Carrier) (c : Nat) : Bool :=
  s.ssf x || (s.stands 0x0809 x.ev c && s.cfx F.CAR_TR_RX_CTL_PTIM_ACT x == 1)

/-- Path signal fail of a channel copy that is received there: one that owns receive slots (R248, R260). -/
def State.psfHere (s : State) (x : Carrier) (c : Nat) : Bool := s.ownsSlot .CAR_TR_SLOT_RX x c && s.psf x c

/-- Authentication fail that acts (R266). -/
def State.authAct (s : State) (x : Carrier) (c : Nat) : Bool :=
  s.stands 0x0901 x.ev c && s.cf F.SEC_CIPH_CH_CTL_AUTH_ACT c == 1

/-! ### Seam conditions and selection (R291 to R295) -/

/-- The lead carrier (R284). -/
def State.lead (s : State) : Carrier := if 0 ≤ s.seam.deltaUse then .A else .B

/-- G in ns (SEAM.CTL.GUARD_US: 0 acts as 1, above 8 as 8). -/
def State.guardNs (s : State) : Nat := min 8 (max 1 (s.cf F.SEAM_CTL_GUARD_US 0)) * 1000

/-- Group of a channel. -/
def State.grpOf (s : State) (c : Nat) : Nat := s.cf F.SEAM_CH_CFG_GROUP c

/-- A channel's copy at Seam. -/
def SeamCh.copy (h : SeamCh) (x : Carrier) : Copy :=
  match x with
  | .A => h.a
  | .B => h.b

/-- Change a copy. -/
def SeamCh.setCopy (h : SeamCh) (x : Carrier) (k : Copy) : SeamCh :=
  match x with
  | .A => { h with a := k }
  | .B => { h with b := k }

/-- Condition of a copy: 0 OK, 1 SD, 2 SF (R291). -/
def State.copyCond (s : State) (c : Nat) (x : Carrier) : Nat :=
  let k := (s.sch c).copy x
  if k.psfD || k.authD || k.absentD || k.late ||
      (x == s.lead && (s.seam.deskFail || k.winD || k.refill || (s.sch c).dropped)) then 2
  else if k.sdD && s.cf F.SEAM_GRP_CTL_SD_EN (s.grpOf c) == 1 then 1 else 0

/-- Bring a copy's causes up to date: a cause that arises applies at once (R287). -/
def State.copyUpdate (s : State) (c : Nat) (x : Carrier) : State :=
  let psf := s.psf x c
  let auth := s.authAct x c
  let sd := s.stands 0x080C x.ev c
  let gone := (s.chan c).shed || !(s.ownsSlot .CAR_TR_SLOT_RX x c)
  let win := s.stands 0x0A05 0 0
  s.modSch c fun h =>
    let k := h.copy x
    h.setCopy x { k with psf := psf, auth := auth, sd := sd, psfD := k.psfD || psf, authD := k.authD || auth,
                         sdD := k.sdD || sd, absent := gone, absentD := k.absentD || gone,
                         win := win, winD := k.winD || win }

/-- A request of rank 2 or above, and the copy it selects (R293). -/
def seamRequest (cmd a b : Nat) : Option (Nat × Carrier) :=
  let cond (x : Carrier) : Nat := match x with | .A => a | .B => b
  let who : Carrier := if cmd % 2 = 1 then .A else .B
  if cmd = 1 ∨ cmd = 2 then some (6, who)
  else if a = 2 ∧ b ≠ 2 then some (5, .B)
  else if b = 2 ∧ a ≠ 2 then some (5, .A)
  else if (cmd = 3 ∨ cmd = 4) ∧ cond who ≠ 2 then some (4, who)
  else if a = 1 ∧ b = 0 then some (3, .B)
  else if b = 1 ∧ a = 0 then some (3, .A)
  else if (cmd = 5 ∨ cmd = 6) ∧ cond who ≤ cond who.other then some (2, who)
  else none

/-- Carrier of a one-bit field. -/
def carOf (n : Nat) : Carrier := if n = 0 then .A else .B

/-- Evaluate a protected channel's requests, hold-off and wait-to-restore; `expired` when its hold-off has run out. A command
that stood when the preferred copy became OK does not stop the timer; a request that arises does (R293 to R295, R297,
R306). -/
def State.seamProt (s : State) (c : Nat) (expired : Bool) : State :=
  let h := s.sch c
  let g := s.grpOf c
  let a := s.copyCond c .A
  let b := s.copyCond c .B
  let pref := carOf (s.cf F.SEAM_GRP_CTL_PREF g)
  let rev := s.cf F.SEAM_GRP_CTL_REVERT g == 1
  let ok := (match pref with | .A => a | .B => b) == 0
  let rq := seamRequest h.cmd a b
  let arises := match rq with
    | some d => d.1 != h.req || d.2 != h.reqTo
    | none => false
  let wtr := rev && ok && !arises && h.sel != pref && (h.wtr || (!h.prefOk && s.cf F.SEAM_GRP_CTL_WTR_S g != 0))
  let d : Nat × Carrier := match rq with
    | some d => d
    | none => if wtr then (1, h.sel) else (0, if rev && ok then pref else h.sel)
  let hold := (d.1 == 5 || d.1 == 3) && d.2 != h.sel && (h.hold || s.cf F.SEAM_GRP_CTL_HOLD_OFF g != 0) && !expired
  let sel := if hold then h.sel else d.2
  let s := s.modSch c fun h => { h with sel := sel, req := d.1, reqTo := d.2, wtr := wtr, hold := hold, prefOk := ok }
  let dat : Bytes := [BitVec.ofNat 8 d.1, BitVec.ofNat 8 sel.num]
  let s := if sel != h.sel then (s.bump .SEAM_CH_SW c).occ 0x0A01 0 c dat else s
  let s := s.defect (a == 2 || b == 2) 0x0A02 0 c dat
  s.defect (a == 2 && b == 2) 0x0A03 0 c dat

/-- Evaluate a channel at Seam. -/
def State.seamEval (s : State) (c : Nat) (expired : Bool := false) : State :=
  match placeOf s.rd c with
  | .prot => ((s.copyUpdate c .A).copyUpdate c .B).seamProt c expired
  | .bonded =>
    let s := (s.copyUpdate c .A).copyUpdate c .B
    s.defect (s.copyCond c .A == 2 || s.copyCond c .B == 2) 0x0A03 0 c
  | _ => s

/-- The copies a channel uses. -/
def State.usedCopies (s : State) (c : Nat) : List Carrier :=
  match placeOf s.rd c with
  | .none => []
  | .one x => [x]
  | .bonded => [.A, .B]
  | .prot => [(s.sch c).sel]

/-- A cause of the replacement signal stands (R324). -/
def State.replCause (s : State) (c : Nat) : Bool :=
  let h := s.chan c
  (s.usedCopies c).any (fun x => s.psf x c || s.authAct x c) || s.stands 0x0A03 0 c || h.csfRx || !h.mapIn || h.shed

/-- The replacement signal is electrical idle: REPL of an Ethernet port (R324). -/
def State.replIdle (s : State) (c : Nat) : Bool :=
  s.cf F.CLI_CH_CFG_TYPE c != 6 && s.cf F.CLI_PORT_CTL_REPL (s.cf F.CLI_CH_CFG_PORT c) == 1

/-- Start or stop an enabled channel's replacement signal, or change its kind (R324, R327). -/
def State.replEval (s : State) (c : Nat) : State :=
  let on := s.cf F.CLI_CH_CFG_EN c == 1 && s.replCause c
  let was := (s.chan c).repl
  if on == was && !(on && s.replIdle c != (s.chan c).replI) then s else
  let s := (s.modChan c fun h => { h with repl := on, replI := s.replIdle c }).emit (.replace c on (s.replIdle c))
  if on == was then s
  else if on then (s.bump .CLI_CH_REPL c).raise 0x0B07 0 c else s.clear 0x0B07 0 c

/-- A demapper that left IN or did not reach it. -/
def Chan.mapOff (h : Chan) : Chan :=
  { h with mapIn := false, entry := 0, refM := none, zero := none, guessed := false, last := none, egress := [] }

/-- The demapper of a channel that is disabled, not placed or shed is OUT (R320). -/
def State.demapGone (s : State) (c : Nat) : Bool :=
  s.cf F.CLI_CH_CFG_EN c == 0 || placeOf s.rd c == .none || (s.chan c).shed

/-- Evaluate one channel at Seam and at the client block. -/
def State.chEval (s : State) (c : Nat) : State :=
  let s := s.seamEval c
  (if (s.chan c).mapIn && s.demapGone c then s.modChan c Chan.mapOff else s).replEval c

/-- Evaluate every channel. -/
def State.chEvalAll (s : State) : State := s.chans.foldl (fun s c => s.chEval c) s

/-! ### Framer, aligner, receive core -/

/-- Count and report a discarded message (R253): reason, type, length. -/
def State.msgBad (s : State) (x : Carrier) (reason : Nat) (typ len : Nat := 0) : State :=
  (s.bumpx .CAR_TR_MSG_BAD x).occ 0x080A x.ev 0 ([BitVec.ofNat 8 reason, BitVec.ofNat 8 typ] ++ leBytes 2 len)

/-- ALIGNED is left: the multiframe under way is unchecked, and so is the one whose tag has not come (R265). -/
def CiphIn.unchecked (i : CiphIn) : CiphIn :=
  { i with run := { i.run with bad := true }, done := if i.tag.isSome then i.done else none, told := true }

/-- How many multiframes of a copy that counts. -/
def CiphIn.uncheckedN (i : CiphIn) : Nat := b2n (i.done.isSome && i.tag.isNone) + b2n (i.own && !i.told)

/-- A receive direction on a carrier. -/
def CiphCh.inp (h : CiphCh) (x : Carrier) : CiphIn :=
  match x with
  | .A => h.inA
  | .B => h.inB
/-- Change it. -/
def CiphCh.modIn (h : CiphCh) (x : Carrier) (f : CiphIn → CiphIn) : CiphCh :=
  match x with
  | .A => { h with inA := f h.inA }
  | .B => { h with inB := f h.inB }

/-- ALIGNED is left on a carrier: its multiframes under way are unchecked. -/
def State.ciphUnaligned (s : State) (x : Carrier) : State :=
  let n := (s.ciph.ch.map fun e => (e.2.inp x).uncheckedN).sum
  let s := s.bump .SEC_CIPH_UNCHK x.num n
  { s with ciph := { s.ciph with ch := s.ciph.ch.map fun e => (e.1, e.2.modIn x CiphIn.unchecked) } }

/-- Seam's view of a carrier. -/
def Seam.rx (m : Seam) (x : Carrier) : SeamRx :=
  match x with
  | .A => m.rxA
  | .B => m.rxB
/-- Change it. -/
def Seam.setRx (m : Seam) (x : Carrier) (r : SeamRx) : Seam :=
  match x with
  | .A => { m with rxA := r }
  | .B => { m with rxB := r }

/-- ALIGNED is left: a message under way is discarded (R253), and no tag of what is under way is checked (R265). -/
def State.leaveAligned (s : State) (x : Carrier) : State :=
  let s := ((s.ciphUnaligned x).modTr x fun t => { t with whole := false }).modSeam fun m => m.setRx x { m.rx x with on := false }
  match (s.car x).tr.msg with
  | some _ => (s.msgBad x 4).modTr x fun t => { t with msg := none }
  | none => s

/-- Parity, traces and runs start afresh where frame alignment is lost, and in a frame in which the channel owns no slots: the
parity of no bytes (R244, R248 to R250). -/
def Path.restart (p : Path) : Path :=
  { p with bip := 0, rdiRun := 0, noRdi := 0, trace := { p.trace with cyc := none, same := 0 } }

/-- The framer returns to HUNT (R239, R258): OOF stands while the aligner is LOCKED. -/
def State.frHunt (s : State) (x : Carrier) : State :=
  let was := (s.car x).tr.st != .hunt
  let s := if (s.car x).tr.st = .aligned then s.leaveAligned x else s
  let s := s.modTr x fun t => { t with
    st := .hunt, cands := [], fails := 0, grp := none, good := [], ready := none, fnBad := 0, grpBad := 0,
    rdiRun := 0, noRdi := 0, trace := { t.trace with cyc := none, same := 0 }, shortRun := 0, longRun := 0,
    rbip := none, whole := false, held := 0, paths := t.paths.map fun e => (e.1, e.2.restart) }
  let s := s.modPlan x fun p => { p with
    annRun := 0, mismRun := 0, eqRun := 0, alignLost := p.alignLost || was }
  if (s.car x).fec.st = .locked && !s.stands 0x0801 x.ev 0 then (s.bumpx .CAR_TR_OOF x).raise 0x0801 x.ev 0 else s

/-- The block aligner leaves LOCKED (R161, R163): rate mismatch clears at once, information bits stop. -/
def State.fecUnlock (s : State) (x : Carrier) (st : FecSt) : State :=
  if (s.car x).fec.st = .locked then
    let s := s.clear 0x0503 x.ev 0
    let s := s.modFec x fun f => { f with
      st := st, huntN := 0, detRate := none, mis := [], actRun := 0, noneRun := 0, whole := false }
    s.frHunt x
  else s.modFec x fun f => { f with st := st, huntN := 0 }

/-- LLR input stops (R141, R161, R164): a LOCKED aligner enters IDLE after the flush of what the decoder holds whole, any
other one at once. -/
def State.llrStop (s : State) (x : Carrier) : State :=
  let f := (s.car x).fec
  let whole := f.llrs.take (f.llrs.length / 40320 * 40320)
  if f.st = .locked ∧ (f.win ≠ [] ∨ whole ≠ []) then
    s.modFec x fun f => { f with flush := some false, llrs := whole, whole := false }
  else (s.fecUnlock x .idle).modFec x fun f => { f with llrs := [] }

/-- The flush is over: IDLE, and HUNT when LLRs arrived again (R161). -/
def State.flushEnd (s : State) (x : Carrier) : State :=
  let again := (s.car x).fec.flush == some true
  (s.fecUnlock x (if again then .hunt else .idle)).modFec x fun f => { f with flush := none, win := [], llrs := [] }

/-- The receive core leaves LOCKED (R134, R141, R152). -/
def State.rxcLoss (s : State) (x : Carrier) : State :=
  let s := ((s.bumpx .CAR_RXC_LOL x).raise 0x0401 x.ev 0).modRxc x fun c => { c with
    winOk := false, mean10ok := false, cap := c.cap.map fun k => if k.st = .filling then
      { k with flags := k.flags ||| 2 } else k }
  s.llrStop x

/-- Equaliser taps after a reset (R126): the centre taps of h_XX and h_YY are one, all others zero. -/
def tapsReset (n t : Nat) : List (List (List Cx)) :=
  let z := List.replicate t cx0
  let one := z.set (t / 2) (fone, 0)
  List.replicate n [one, z, z, one]

/-- Another number of taps (R127): the centre taps stay, new outer taps are zero. -/
def tapsResize (t : Nat) (h : List Cx) : List Cx :=
  (List.range t).map fun (k : Nat) => ctapAt h ((k : Int) + (h.length / 2 : Nat) - (t / 2 : Nat))

/-- The receive core enters a state other than LOCKED; on entry to TRAIN in adaptive mode the taps are reset (R126). -/
def State.rxcTo (s : State) (x : Carrier) (st : RxSt) : State :=
  let s := if (s.car x).rxc.st = .locked then s.rxcLoss x else s
  let fresh := st == .train && s.cfx F.CAR_RXC_CTL_EQ_MODE x == 0
  let taps := tapsReset (2 ^ s.cfx F.CAR_RXC_CTL_SC_LOG2 x) (s.cfx F.CAR_RXC_CTL_TAPS x)
  s.modRxc x fun c => { c with
    st := st, det := [], good := 0, inTrain := 0, missed := 0, low := 0, inHunt := 0
    inp := if st == .disabled || st == .waitInput then [] else c.inp
    inpAt := if st == .disabled || st == .waitInput then 0 else c.inpAt
    taps := if fresh then taps else c.taps }

/-- Input valid (R134). -/
def State.rxValid (s : State) (x : Carrier) : Bool :=
  let d := agetD s.sti.dies x.rxDie dieReset
  d.clk && d.aligned && (s.car x).fe.cde == 2 && (s.car x).rxc.interrupted == 0

/-- The first rows of R134: RX_EN and the input. -/
def State.rxSettle (s : State) (x : Carrier) : State :=
  if s.cfx F.CAR_RXC_CTL_RX_EN x = 0 then
    if (s.car x).rxc.st = .disabled then s else s.rxcTo x .disabled
  else if !s.rxValid x then
    if (s.car x).rxc.st = .waitInput then s else s.rxcTo x .waitInput
  else if (s.car x).rxc.st = .disabled ∨ (s.car x).rxc.st = .waitInput then s.rxcTo x .hunt
  else s

/-! ### Transmit output -/

/-- The causes that act, as TX_STAT.CAUSE: bit 0 CMD, 1 PATH, 2 ROOT, 3 THERMAL, 4 RX_LOL, 5 DPLL, 6 CLIP (R195). -/
def State.txCauses (s : State) (x : Carrier) : List Bool :=
  [s.cfx F.CAR_TX_CTL_SQUELCH x == 1,
   (agetD s.sti.dies x.txDie dieReset).fault,
   !s.tim.root,
   s.sys.shutdown,
   s.cfx F.CAR_TX_SQ_RX_LOL x == 1 && (s.car x).tx.rxLol,
   s.cfx F.CAR_TX_SQ_DPLL x == 1 && (agetD s.tim.dplls 0 dpllReset).st == .freerun,
   s.cfx F.CAR_TX_SQ_CLIP x == 1 && s.stands 0x0603 x.ev 0]

/-- A forced cause is active. -/
def State.txForced (s : State) (x : Carrier) : Bool := bitsNat (s.txCauses x) / 2 % 8 != 0

/-- A squelch cause is active; a probe disregards RX_LOL (R197). -/
def State.txSquelch (s : State) (x : Carrier) : Bool :=
  let c := bitsNat (s.txCauses x)
  bit c 0 || (bit c 4 && !(s.car x).tx.probing) || bit c 5 || bit c 6

/-- Put a cut frame back at the head of its class (R334); from a full queue the last frame that was not cut goes back to its
source (R339; DESIGN CHOICE, log 57). -/
def Tack.putBack (t : Tack) (f : TkFrame) : Tack :=
  if t.queue.length < 15 then { t with queue := f :: t.queue }
  else match t.queue.reverse.find? (!·.again) with
    | some g => { t with queue := f :: t.queue.erase g, wait := (g.typ, g.body) :: t.wait }
    | none => { t with wait := (f.typ, f.body) :: t.wait }

/-- Cut the burst in progress: it is counted, and its frame is queued again once (R334, R355, R198). -/
def State.tkCut (s : State) (x : Carrier) : State :=
  match (s.car x).tk.burst with
  | none => s
  | some b => if b.cut then s else
    let s := s.modTk x fun t =>
      let t := { t with burst := some { b with cut := true } }
      if b.frame.again then t else t.putBack { b.frame with again := true }
    (s.bumpx .CAR_TK_CUT x).occ 0x0C06 x.ev 0

/-- A burst that is cut closes with its own down-ramp from now on (R198, R355). -/
def State.tkStop (s : State) (x : Carrier) : State :=
  let now := s.sys.dtime
  (s.tkCut x).modTk x fun t => { t with
    burst := t.burst.map fun b => { b with stop := min b.stop (now + b.ramp * 65536000) } }

/-- The burst is over: what waited for its end takes effect (R334, R188). -/
def State.tkEnd (s : State) (x : Carrier) : State :=
  let v := (s.car x).tk.waitVals
  (s.modTk x fun t => { t with burst := none, waitVals := [] }).applyVals v

/-- DATA of 0x0601: TX_STAT.CAUSE (R200). -/
def State.txCause (s : State) (x : Carrier) : Bytes := [BitVec.ofNat 8 (bitsNat (s.txCauses x))]

/-- Squelched event with the causes, at every entry that R200 names: an entry to FORCED raises it anew (R194). -/
def State.txEvent (s : State) (x : Carrier) : State :=
  ((s.bumpx .CAR_TX_SQ_CNT x).forget 0x0601 x.ev 0).raise 0x0601 x.ev 0 (s.txCause x)

/-- Position of the output in its ramp, from 0 to one (R194): a ramp that reverses starts from the amplitude reached. -/
def State.rampNow (s : State) (x : Carrier) : Int :=
  let t := (s.car x).tx
  let d := frat ((s.sys.dtime - t.rampAt : Nat) : Int) (65536000 * t.rampUs)
  match t.st with
  | .on => fone
  | .rampUp => min fone (t.rampPos + d)
  | .rampDown => max 0 (t.rampPos - d)
  | .off | .squelched | .forced => 0

/-- The output's amplitude: a raised cosine of the position (R194). -/
def rampAmp (p : Int) : Int := if p = 0 then 0 else if p = fone then fone else (fone - fcosTurn p (2 ^ 97)) / 2

/-- The DAC inputs of a carrier's transmit die are at code 0 at once (R44, R194): what waits at the sending end becomes
code 0, and so does what the DACs hold. -/
def State.dacZero (s : State) (x : Carrier) : State :=
  let s := s.modTx x fun t => { t with words := t.words.map fun e => (e.1, e.2.map fun _ => 0) }
  s.each (List.range 4) fun s c => s.emit (.dac x.txDie c 0)

/-- The chain stops: a message whose transmission has begun is abandoned, and no frame carries section RDI (R180, R252,
R259). The symbol frames that wait for its bits go through stages 4 to 8 without them. -/
def State.chainStop (s : State) (x : Carrier) : State :=
  (s.modTx x fun t => { t with
    chain := false, info := [], coded := [], frames := t.frames.map fun f => { f with run := false } }).modTr x fun t =>
  { t with
    cur := none
    rdiTx := false
    sending := match t.sending with
      | some (_, _, true) => none
      | m => m }

/-- Enter an output state (R194, R200): 0x0601 clears on RAMP_UP and OFF; the chain stops on OFF (R180); a live burst
is counted as cut on RAMP_DOWN (R334). A ramp keeps the length that it starts with (R196). -/
def State.txTo (s : State) (x : Carrier) (st : TxSt) : State :=
  let pos := s.rampNow x
  let us := max 1 (if st = .rampDown then s.cfx F.CAR_TX_RAMP_DOWN_US x else s.cfx F.CAR_TX_RAMP_UP_US x)
  let s := s.modTx x fun t => { t with
    st := st, resetForced := false, probing := t.probing && (st == .rampUp || st == .on)
    rampPos := pos, rampAt := s.sys.dtime, rampUs := us }
  let s := if st = .off ∧ (s.car x).tx.chain then s.chainStop x else s
  let s := if st = .rampDown then s.tkCut x else s
  if st = .rampUp ∨ st = .off then s.clear 0x0601 x.ev 0 (s.txCause x) else s

/-- Leave OFF, SQUELCHED or FORCED as R194 gives; a full-drive burst is cut and the ramp waits for its end (R198). -/
def State.txLeave (s : State) (x : Carrier) : State :=
  if s.cfx F.CAR_TX_CTL_TX_EN x = 0 then if (s.car x).tx.st = .off then s else s.txTo x .off
  else if s.txSquelch x then if (s.car x).tx.st = .squelched then s else s.txTo x .squelched
  else match (s.car x).tk.burst with
    | some b => if b.alone then s.tkStop x else s.txTo x .rampUp
    | none => s.txTo x .rampUp

/-- The rows of R194 that wait for no timer. -/
def State.txSettle (s : State) (x : Carrier) : State :=
  if s.txForced x then
    if (s.car x).tx.st = .forced then s else
    let s := (((s.tkCut x).txTo x .forced).modTk x fun t => { t with gasp := none }).tkEnd x
    (s.dacZero x).txEvent x
  else match (s.car x).tx.st with
    | .off | .squelched => s.txLeave x
    | .rampUp | .on =>
      if s.txSquelch x then (s.txTo x .rampDown).txEvent x
      else if s.cfx F.CAR_TX_CTL_TX_EN x = 0 then s.txTo x .rampDown
      else s
    | .rampDown => if !s.txSquelch x && s.cfx F.CAR_TX_CTL_TX_EN x == 1 then s.txTo x .rampUp else s
    | .forced => s

/-- Let a carrier's units follow what changed before them. -/
def State.settle (s : State) (x : Carrier) : State := ((s.rxSettle x).txSettle x).chEvalAll

/-- Both carriers. -/
def State.settleAll (s : State) : State := ((((s.rxSettle .A).txSettle .A).rxSettle .B).txSettle .B).chEvalAll

end Sys2Proof.Machine
end

