-- ==== Sys2Proof/Machine/Stitch.lean ====
section
/-! DEFINITION. Stitch links, lanes, darning, lane tests and converter clocks (chapter 02). -/

namespace Sys2Proof.Machine

/-! ### Parts -/

/-- A converter die. -/
def State.die (s : State) (d : Die) : DieSt := agetD s.sti.dies d dieReset
/-- Change it. -/
def State.modDie (s : State) (d : Die) (f : DieSt → DieSt) : State :=
  { s with sti := { s.sti with dies := aset s.sti.dies d (f (s.die d)) } }
/-- A stitch module. -/
def State.smod (s : State) (d : Die) (m : Nat) : Module := agetD s.sti.mods (d, m) moduleReset
/-- Change it. -/
def State.modSmod (s : State) (d : Die) (m : Nat) (f : Module → Module) : State :=
  { s with sti := { s.sti with mods := aset s.sti.mods (d, m) (f (s.smod d m)) } }
/-- A lane. -/
def State.lane (s : State) (d : Die) (m l : Nat) : Lane := agetD s.sti.lanes (d, m, l) (laneReset l)
/-- Change it. -/
def State.modLane (s : State) (d : Die) (m l : Nat) (f : Lane → Lane) : State :=
  { s with sti := { s.sti with lanes := aset s.sti.lanes (d, m, l) (f (s.lane d m l)) } }

/-- A lane at its sending end. -/
def State.send (s : State) (d : Die) (m l : Nat) : LaneTx := agetD s.sti.sends (d, m, l) laneTxReset
/-- Change it. -/
def State.modSend (s : State) (d : Die) (m l : Nat) (f : LaneTx → LaneTx) : State :=
  { s with sti := { s.sti with sends := aset s.sti.sends (d, m, l) (f (s.send d m l)) } }

/-- Index of a lane's registers. -/
def laneIdx (d : Die) (m l : Nat) : Nat := (d.num * 26 + m) * 18 + l
/-- Index of a module's registers. -/
def modIdx (d : Die) (m : Nat) : Nat := d.num * 26 + m

/-- DATA of a stitch event: die, lane or 0xFF (R483). -/
def stiData (d : Die) (l : Nat := 0xFF) : Bytes := [BitVec.ofNat 8 d.num, BitVec.ofNat 8 l]

/-- The spare that carries a logical lane, if one does. -/
def State.spareOf (s : State) (d : Die) (m n : Nat) : Option Nat :=
  [16, 17].find? (fun p => (s.lane d m p).carries == some n)

/-- A lane is not available: FAILED, or hunting after RETRAIN (R66). -/
def Lane.gone (x : Lane) : Bool := x.st == .failed || x.retr

/-- A lane carries traffic (STI.LANE_STAT.ROLE 0b00): it has a logical lane and is available (R55, R66). -/
def Lane.busy (x : Lane) : Bool := x.carries.isSome && !x.gone

/-- A logical lane has a LOCKED lane carrying it (R66). -/
def State.logicalUp (s : State) (d : Die) (m n : Nat) : Bool :=
  (List.range 18).any fun l => (s.lane d m l).st == .locked && (s.lane d m l).carries == some n

/-- Every logical lane of a module has a working lane. -/
def State.allUp (s : State) (d : Die) (m : Nat) : Bool := (List.range 16).all (s.logicalUp d m)

/-- A module is aligned: every lane that carries traffic is LOCKED and has passed a common marker (R55). -/
def State.modAligned (s : State) (d : Die) (m : Nat) : Bool :=
  (List.range 18).all fun l => let x := s.lane d m l; !x.busy || (x.st == .locked && x.algn)

/-- A lane's place in its stream by marker count: blocks since the marker of count 0 (R52). -/
def Lane.place (x : Lane) : Option Nat := x.mark.map fun c => (c * 4096 + x.since) % 2 ^ 44

/-- Two places lie within `k` blocks of one another. -/
def near (k a b : Nat) : Bool := decide ((a + 2 ^ 44 - b) % 2 ^ 44 ≤ k) || decide ((b + 2 ^ 44 - a) % 2 ^ 44 ≤ k)

/-- Lanes that carry traffic lie within 8 blocks of one another over the whole link (R52); one block more while the lanes of a
block period have not all had theirs. -/
def State.linkNear (s : State) (d : Die) : Bool :=
  let ps := (List.range 26).flatMap fun m => (List.range 18).filterMap fun l =>
    if (s.lane d m l).busy then (s.lane d m l).place else none
  match ps with
  | [] => true
  | p :: _ =>
    let ds := ps.map fun q => (q + 2 ^ 43 - p) % 2 ^ 44
    decide (ds.foldl max 0 ≤ ds.foldl min (2 ^ 44) + 9)

/-- Degraded modules of a die. -/
def State.degraded (s : State) (d : Die) : Nat :=
  ((List.range 26).filter fun m => (s.smod d m).deg).length

/-- Logical lanes of a die carried on spares. -/
def State.darned (s : State) (d : Die) : Nat :=
  ((List.range 26).map fun m =>
    ([16, 17].filter fun p => (s.lane d m p).busy).length).foldl (· + ·) 0

/-- Causes of the converter-path-faulty defect (R72). -/
def State.pathCause (s : State) (d : Die) : Bool :=
  !(s.die d).clk || s.degraded d != 0 || ((s.die d).ever && !(s.die d).aligned)

/-- Bring link alignment and the converter path up to date, and the units behind them (R52, R55, R72). -/
def State.stiSettle (s : State) (d : Die) : State :=
  let al := (List.range 26).all (s.modAligned d) && s.linkNear d
  let s := s.modDie d fun x => { x with aligned := al, ever := x.ever || al }
  let s := if s.pathCause d && !(s.die d).fault then
      (s.modDie d fun x => { x with fault := true }).raise 0x0206 d.car.ev 0 (stiData d) d.num
    else s
  s.settle d.car

/-- A module becomes degraded (R64). -/
def State.degrade (s : State) (d : Die) (m : Nat) : State :=
  if (s.smod d m).deg then s else
  (s.modSmod d m fun x => { x with deg := true }).raise 0x0204 d.car.ev m (stiData d) d.num

/-- A module stops being degraded when every logical lane works, and after a test when it is aligned again (R66, R68). -/
def State.undegrade (s : State) (d : Die) (m : Nat) : State :=
  let x := s.smod d m
  if x.deg && !x.test && s.allUp d m && (!x.again || s.modAligned d m) then
    (s.modSmod d m fun x => { x with deg := false, again := false }).clear 0x0204 d.car.ev m (stiData d) d.num
  else s

/-- Count `n` erased words of a link (R54, R508, R513). -/
def State.erased (s : State) (d : Die) (m n : Nat) : State :=
  let k : RegKey := ⟨.STI_ERASED, 4 + d.num * 32 + m⟩
  let t := agetD s.io.rem k 0 + n
  let s := (s.bump .STI_ERASED d.num n).signal 0x0020 0 (d.num * 32 + m) (t / 64)
  { s with io := { s.io with rem := aset s.io.rem k (t % 64) } }

/-- A sideband message with its CRC (R57). -/
def sbMsg (typ m fr dst arg : Nat) : Nat :=
  let b : Bytes := [BitVec.ofNat 8 typ, BitVec.ofNat 8 m, BitVec.ofNat 8 fr, BitVec.ofNat 8 dst] ++ beBytes 3 arg
  beNat (b ++ [BitVec.ofNat 8 (crc8 7 0 b)])

/-- Byte `i` of a sideband message. -/
def sbByte (msg : BitVec 64) (i : Nat) : Nat := msg.toNat / 256 ^ (7 - i) % 256

/-- The CRC of a sideband message is good. -/
def sbGood (msg : BitVec 64) : Bool := crc8 7 0 (beBytes 7 (msg.toNat / 256)) == sbByte msg 7

/-- Count a sideband message's CRC (R57). -/
def State.sbCount (s : State) (d : Die) (m : Nat) (msg : BitVec 64) : State :=
  s.modSmod d m fun x => if sbGood msg then { x with sbGood := x.sbGood + 1, sbBad := 0 }
    else { x with sbGood := 0, sbBad := x.sbBad + 1 }

/-- A lane is under test: its generator or checker is enabled (R68). -/
def State.laneTest (s : State) (d : Die) (m l : Nat) : Bool :=
  s.cf F.STI_LANE_CTL_GEN_EN (laneIdx d m l) == 1 || s.cf F.STI_LANE_CTL_CHK_EN (laneIdx d m l) == 1

/-- A lane's generator starts anew, with ones, when it is enabled or its pattern changes (DESIGN CHOICE, log 39). -/
def LaneTx.seed (x : LaneTx) (old new : Nat) : LaneTx :=
  if bit new 0 && (!bit old 0 || old / 4 % 4 != new / 4 % 4) then { x with gen := 0x7FFFFFFF, flip := false } else x

/-- A lane's checker starts anew when it is enabled or disabled. -/
def Lane.recheck (x : Lane) (old new : Nat) : Lane :=
  if bit new 1 == bit old 1 then x else { x with sync := false, crun := 0, pbits := 0, perr := 0 }

/-- Send a lane's setting to the converter-die end (R46): ARG holds the lane number, then LANE_CTL 15:0 (DESIGN CHOICE,
log 39). -/
def State.sendSetting (s : State) (d : Die) (m l : Nat) : State :=
  s.emit (.sideband d m (sbMsg 2 m 0 0 (l * 65536 + bits (s.rd ⟨.STI_LANE_CTL, laneIdx d m l⟩) 15 0)))

/-- A spare carries nothing and is not promised to a darning. -/
def State.spareIdle (s : State) (d : Die) (m p : Nat) : Bool :=
  (s.lane d m p).carries.isNone && !((s.smod d m).darns.any (·.spare == p))

/-- A spare that can take a logical lane over: LOCKED and not under test, else one under test (R58, R69). -/
def State.spareFor (s : State) (d : Die) (m : Nat) : Option Nat :=
  match [16, 17].find? (fun p => s.spareIdle d m p && (s.lane d m p).st == .locked && !s.laneTest d m p) with
  | some p => some p
  | none => [16, 17].find? (fun p => s.spareIdle d m p && s.laneTest d m p)

/-- Return a spare under test to blocks (R69). -/
def State.testAbort (s : State) (d : Die) (m p : Nat) : State :=
  if s.laneTest d m p then
    let s := s.setWord ⟨.STI_LANE_CTL, laneIdx d m p⟩
      (s.rd ⟨.STI_LANE_CTL, laneIdx d m p⟩ &&& ~~~(3 : Word))
    let s := s.modLane d m p fun x => { x with st := .hunt, run := 0, retr := false, sync := false, algn := false }
    (s.sendSetting d m p).occ 0x0207 d.car.ev m (stiData d p)
  else s

/-- Send a darn request for a logical lane from a failed lane, or degrade the module (R58, R64, R65). -/
def State.darn (s : State) (d : Die) (m l n : Nat) : State :=
  if !(s.smod d m).sbLock then s.degrade d m else
  match s.spareFor d m with
  | none => s.degrade d m
  | some p =>
    let s := (s.testAbort d m p).modLane d m p fun x => { x with markL := none }
    let s := s.modSmod d m fun x => { x with darns := x.darns ++ [⟨n, l, p, 1⟩] }
    s.emit (.sideband d m (sbMsg 1 m l p 0))

/-! ### Words (R43, R44, R49, R54, R60, R61) -/

/-- Number of a word: the `j`-th that logical lane `g` of a link carries (R49). -/
def wordNo (g j : Nat) : Nat := 4 * (g + 416 * (j / 4)) + j % 4

/-- Clipped samples of a word of 32 (R43). -/
def clipped (p : BitVec 256) : Nat :=
  ((List.range 32).filter fun i => p.toNat / 256 ^ (31 - i) % 256 == 0x80 || p.toNat / 256 ^ (31 - i) % 256 == 0x7F).length

/-- Word `j` of logical lane `n` of a module is delivered, erased when `w` is none or its module is degraded (R64): to the
front end of the receive die's carrier, or to the transmit die's DAC, where an erased word is mid-scale (R61), and every word
while the output is FORCED (R194). -/
def State.wordOut (s : State) (d : Die) (m n j : Nat) (w : Option (BitVec 256)) : State :=
  let w := if (s.smod d m).deg then none else w
  let s := match w with
    | some _ => s
    | none => s.erased d m 1
  if d.isRx then
    let s := match w with
      | some p => { s with io := s.io.bumpUnits ⟨.STI_CLIP_LO, d.car.num * 4 + j % 4⟩ 128 (clipped p) }
      | none => s
    s.modFe d.car fun f => { f with inq := aset f.inq (wordNo (16 * m + n) j) w }
  else s.emit (.dac d (j % 4) (if (s.car d.car).tx.st = .forced then 0 else w.getD 0))

/-- A block of logical lane `n` of a module enters the alignment buffer, which holds 16 blocks; what it pushes out is
delivered (R60). -/
def State.blkIn (s : State) (d : Die) (m n : Nat) (e : Option (Nat × Option (BitVec 256))) : State :=
  let k := (d, 16 * m + n)
  let b := e :: agetD s.sti.buf k []
  let s := { s with sti := { s.sti with buf := aset s.sti.buf k (b.take 16) } }
  match (b.drop 16).head? with
  | some (some (j, w)) => s.wordOut d m n j w
  | _ => s

/-- A block of logical lane `n` of a module brings a word, erased when `w` is none. With `first` its number is the next one of
an XI word, since a word that follows an idle block is the first of its span (R49, R51; DEDUCED, log 39). While the sample
clock is unlocked nothing is delivered (R44). -/
def State.wordIn (s : State) (d : Die) (m n : Nat) (first : Bool) (w : Option (BitVec 256)) : State :=
  if !(s.die d).clk then s else
  let g := 16 * m + n
  let r := agetD s.sti.rxn (d, g) 0
  let j := if first then r - r % 4 else r
  { s with sti := { s.sti with rxn := aset s.sti.rxn (d, g) (j + 1) } }.blkIn d m n (some (j, w))

/-- A block of logical lane `n` of a module brings no word. -/
def State.wordNone (s : State) (d : Die) (m n : Nat) : State :=
  if !(s.die d).clk then s else s.blkIn d m n none

/-- The words in a logical lane's alignment buffer become erased (R60). -/
def State.eraseBuf (s : State) (d : Die) (g : Nat) : State :=
  let b := (agetD s.sti.buf (d, g) []).map fun e => e.map fun w => (w.1, (none : Option (BitVec 256)))
  { s with sti := { s.sti with buf := aset s.sti.buf (d, g) b } }

/-- Groups of four words that logical lane `h` of a link had taken by the marker of a count, if it passed that marker. -/
def State.groupAt (s : State) (d : Die) (count h : Nat) : Option Nat :=
  match aget s.sti.grp (d, h) with
  | some (c, i) => if c = count then some i else none
  | none => none

/-- The groups that logical lane `h` should have taken by a marker, where the lanes 16 before and after it in the order of R49
agree on it: lane 416 is lane 0 one group on (R49, R52; DESIGN CHOICE, log 39). -/
def State.groupDue (s : State) (d : Die) (count h : Nat) : Option Nat :=
  let lo := if h < 16 then (s.groupAt d count (h + 400)).map (· + 1) else s.groupAt d count (h - 16)
  let hi := if h < 400 then s.groupAt d count (h + 16) else (s.groupAt d count (h - 400)).map (· - 1)
  if lo = hi then lo else none

/-- A logical lane that lost count of its words takes it up again at a marker (R52). -/
def State.groupFix (s : State) (d : Die) (count h : Nat) : State :=
  match s.groupAt d count h, s.groupDue d count h with
  | some o, some i =>
    let r := agetD s.sti.rxn (d, h) 0
    if o = i then s else { s with sti := { s.sti with
      rxn := aset s.sti.rxn (d, h) (r + 4 * i - 4 * o), grp := aset s.sti.grp (d, h) (count, i) } }
  | _, _ => s

/-- Logical lane `g` of a link passes the marker of a count. -/
def State.groupMark (s : State) (d : Die) (count g : Nat) : State :=
  let s := { s with sti := { s.sti with grp := aset s.sti.grp (d, g) (count, agetD s.sti.rxn (d, g) 0 / 4) } }
  [(g + 400) % 416, g, (g + 16) % 416].foldl (fun s h => s.groupFix d count h) s

/-- A lane enters FAILED (R53, R58, R60, R64): it keeps its logical lane until a spare has taken that over. `clock`: its
forwarded clock is lost. -/
def State.laneFail (s : State) (d : Die) (m l : Nat) (clock : Bool) : State :=
  let x := s.lane d m l
  let s := s.modLane d m l fun x => { x with st := .failed, retr := false, algn := false, win := [] }
  let s := s.raise 0x0201 d.car.ev m (stiData d l) (d.num * 32 + l)
  let s := match x.carries with
    | some n => s.eraseBuf d (16 * m + n)
    | none => s
  if clock then s.degrade d m
  else match x.carries with
    | some n => if l < 16 then s.darn d m l n else s.degrade d m
    | none => s

/-! ### Blocks -/

/-- Descramble a block's payload with the 58 bits received before it (R48). -/
def descramble (scr : BitVec 58) (p : BitVec 256) : BitVec 256 :=
  let w := scr.toNat * 2 ^ 256 + p.toNat
  p ^^^ BitVec.ofNat 256 (w / 2 ^ 39) ^^^ BitVec.ofNat 256 (w / 2 ^ 58)

/-- Byte `i` of a block. -/
def blkByte (p : BitVec 256) (i : Nat) : Nat := p.toNat / 256 ^ (31 - i) % 256

/-- Feedback bit of the PRBS of PRBS_SEL over the last bits sent, newest least significant (R67). -/
def prbsNext (sel w : Nat) : Bool :=
  match sel with
  | 0 => (bit w 6) != (bit w 5)
  | 1 => (bit w 14) != (bit w 13)
  | 2 => (bit w 22) != (bit w 17)
  | _ => (bit w 30) != (bit w 27)

/-- One received bit at a PRBS checker (R67, R71): out of sync it seeds itself and counts error-free bits, in sync it
counts errors. Answers the lane and the new errors. -/
def prbsBit (sel : Nat) (a : Lane × Nat) (b : Bool) : Lane × Nat :=
  let x := a.1
  let e := prbsNext sel x.chk.toNat
  let bad := e != b
  let inn := if x.sync then e else b
  let x := { x with chk := BitVec.ofNat 31 (x.chk.toNat * 2 + b2n inn) }
  if x.sync then
    let x := if x.pbits = 1023 ∧ x.perr + b2n bad < 256 then { x with pbits := 0, perr := 0 }
      else { x with pbits := x.pbits + 1, perr := x.perr + b2n bad }
    (x, a.2 + b2n bad)
  else ({ x with crun := if bad then 0 else x.crun + 1 }, a.2)

/-- The 258 bits of a block in the order received. -/
def blkBits (hdr : BitVec 2) (p : BitVec 256) : List Bool :=
  (List.range 258).map fun i => if i < 2 then bit hdr.toNat (1 - i) else bit p.toNat (257 - i)

/-- A block of the lane is a marker with this lane's MODULE and PHYSICAL (R50). -/
def ownMarker (q : BitVec 256) (m l : Nat) : Bool := blkByte q 1 == m && blkByte q 3 == l

/-- A marker of a spare that a darning names is taken for the extra marker of R51 where another lane of the module has passed
one of its count: the lane's place is then that lane's (log 39). -/
def State.extraOf (s : State) (d : Die) (m l count : Nat) : Option Nat :=
  if (s.smod d m).darns.any (·.spare == l) then
    ((List.range 18).find? fun i => i != l && (s.lane d m i).st == .locked && (s.lane d m i).mark == some count).map
      fun i => (s.lane d m i).since
  else none

/-- A marker is passed (R50 to R52, R55): it is common to the module when every lane that carries traffic is LOCKED and passed
one of its count, all within 8 blocks. -/
def State.marked (s : State) (d : Die) (m l : Nat) (q : BitVec 256) : State :=
  let count := q.toNat / 256 ^ 24 % 2 ^ 32
  let ext := s.extraOf d m l count
  let s := s.modLane d m l fun x => { x with
    mark := some count, since := ext.getD 0, algn := x.algn || (s.smod d m).common == some count
    markL := if ownMarker q m l then some (blkByte q 2) else x.markL }
  let s := match (s.lane d m l).carries, ext with
    | some n, none => s.groupMark d count (16 * m + n)
    | _, _ => s
  let here := (s.lane d m l).place.getD 0
  let passed (i : Nat) : Bool := let x := s.lane d m i
    x.st == .locked && x.mark == some count && near 8 (x.place.getD 0) here
  if (List.range 18).all fun i => !(s.lane d m i).busy || passed i then
    let s := ((List.range 18).filter passed).foldl (fun s i => s.modLane d m i fun x => { x with algn := true }) s
    ((s.modSmod d m fun x => { x with common := some count }).undegrade d m).stiSettle d
  else s

/-- A block whose header says data or whose header or TYPE is invalid stands for a word; a valid idle or marker block
stands for none (R50, R54), nor does a block at a marker instant (R51). -/
def Lane.wordAt (x : Lane) (hdr : BitVec 2) (q : BitVec 256) : Bool :=
  !(hdr == 2 && (blkByte q 0 == 0 || blkByte q 0 == 0x4D)) &&
  (hdr == 1 || !(x.mark.isSome && decide (x.since % 4096 = 0)))

/-- A block in LOCKED (R54, R60). -/
def State.blkLocked (s : State) (d : Die) (m l : Nat) (hdr : BitVec 2) (q : BitVec 256) : State :=
  let x := s.lane d m l
  let typ := blkByte q 0
  let good := hdr == 1 || (hdr == 2 && (typ == 0 || typ == 0x4D))
  let s := if good then s else s.bump .STI_LANE_HDR_ERR (laneIdx d m l)
  let s := s.modLane d m l fun x => { x with
    win := ((hdr == 0 || hdr == 3) :: x.win).take 64
    idle := hdr == 2 && (typ == 0 || (typ == 0x4D && x.idle)) }
  let s := match x.carries with
    | some n => if x.wordAt hdr q then s.wordIn d m n (x.idle && hdr == 1) (if hdr == 1 then some q else none)
      else s.wordNone d m n
    | none => s
  if hdr == 2 && typ == 0x4D then s.marked d m l q else s

/-- The lane setting that acts at the receiving end: a transmit die's lanes have it from the sideband (R46). -/
def State.recvCtl (s : State) (d : Die) (m l : Nat) : Nat :=
  if d.isRx then bits (s.rd ⟨.STI_LANE_CTL, laneIdx d m l⟩) 15 0 else (s.send d m l).ctl

/-- The receiving end of a lane takes a block (R47, R48, R53, R54, R67): the PRBS checker its bits, the state machine its
header. A lane that is not available delivers its logical lane's words as erased (R60, R64, R66). -/
def State.takeBlock (s : State) (d : Die) (m l : Nat) (hdr : BitVec 2) (payload : BitVec 256) : State :=
  let i := laneIdx d m l
  let ctl := s.recvCtl d m l
  let s := if bit ctl 1 then
      let r := (blkBits hdr payload).foldl (prbsBit (ctl / 4 % 4)) (s.lane d m l, 0)
      (s.modLane d m l fun _ => r.1).bump .STI_LANE_PRBS_ERR i r.2
    else s
  let bad := hdr == 0 || hdr == 3
  let q := descramble (s.lane d m l).scr payload
  let s := s.modLane d m l fun x => { x with scr := payload.setWidth 58, since := x.since + 1 }
  let lost (s : State) : State := match (s.lane d m l).carries with
    | some n => if !(s.lane d m l).gone then s
      else if (s.lane d m l).wordAt hdr q then s.wordIn d m n false none else s.wordNone d m n
    | none => s
  match (s.lane d m l).st with
  | .hunt =>
    lost (if bad then
      (s.modLane d m l fun x => { x with run := 0, pos := (x.pos + 1) % 258 }).bump .STI_LANE_HDR_ERR i
    else s.modLane d m l fun x => { x with run := min 64 (x.run + 1) })
  | .locked => s.blkLocked d m l hdr q
  | .failed => lost (if bad then s.bump .STI_LANE_HDR_ERR i else s)

/-! ### The sending end (R48 to R51, R58, R67, R70) -/

/-- Scramble a block's payload, most significant bit first, after the 58 bits sent before it (R48). -/
def scrambleBits (p : BitVec 256) (n : Nat) (scr : BitVec 58) : BitVec 58 × Nat :=
  match n with
  | 0 => (scr, 0)
  | n + 1 =>
    let b := xor (p.getLsbD n) (xor (scr.getLsbD 38) (scr.getLsbD 57))
    let r := scrambleBits p n ((scr <<< 1) ||| BitVec.ofNat 58 (b2n b))
    (r.1, b2n b * 2 ^ n + r.2)

/-- The payload of a control block (R50). -/
def ctlBlock (typ m logical l count : Nat) : BitVec 256 :=
  BitVec.ofNat 256 (beNat ([BitVec.ofNat 8 typ, BitVec.ofNat 8 m, BitVec.ofNat 8 logical, BitVec.ofNat 8 l] ++
    beBytes 4 count) * 256 ^ 24)

/-- The logical lane that the sending end puts on a lane: its own, unless that was moved, or the one moved to it (R58). -/
def Module.sends (x : Module) (l : Nat) : Option Nat :=
  match x.sendOn.find? fun e => e.2 == l with
  | some e => some e.1
  | none => if l < 16 ∧ (aget x.sendOn l).isNone then some l else none

/-- The lane setting that acts at the sending end: a receive die's lanes have it from the sideband (R46). -/
def State.sendCtl (s : State) (d : Die) (m l : Nat) : Nat :=
  if d.isRx then (s.send d m l).ctl else bits (s.rd ⟨.STI_LANE_CTL, laneIdx d m l⟩) 15 0

/-- `n` bits of a PRBS generator, the first one most significant; an injected error flips the first (R67, R70). -/
def prbsRun (sel : Nat) (gen : BitVec 31) (n : Nat) : BitVec 31 × Nat :=
  match n with
  | 0 => (gen, 0)
  | n + 1 =>
    let b := prbsNext sel gen.toNat
    let r := prbsRun sel ((gen <<< 1) ||| BitVec.ofNat 31 (b2n b)) n
    (r.1, b2n b * 2 ^ n + r.2)

/-- A scrambled block goes out on a lane. -/
def State.sendBlock (s : State) (d : Die) (m l : Nat) (hdr : BitVec 2) (p : BitVec 256) : State :=
  let r := scrambleBits p 256 (s.send d m l).scr
  (s.modSend d m l fun x => { x with scr := r.1 }).emit (.stitch d m l hdr (BitVec.ofNat 256 r.2))

/-- Deal sample words, in the order of the converters, out to the logical lanes of a link whose die's sample clock is
locked (R44, R49). -/
def State.dealWords (s : State) (d : Die) (ws : List (BitVec 256)) : State :=
  if !(s.die d).clk then s else
  ws.foldl (fun s w =>
    let n := agetD s.sti.txn d 0
    let k := n / 4 % 416
    let s := { s with sti := { s.sti with txn := aset s.sti.txn d (n + 1) } }
    if d.isRx then { s with sti := { s.sti with words := aset s.sti.words (d, k) (agetD s.sti.words (d, k) [] ++ [w]) } }
    else s.modTx d.car fun t => { t with words := aset t.words k (agetD t.words k [] ++ [w]) }) s

/-- The sending end of a link takes a word of a logical lane off its queue. -/
def State.wordTake (s : State) (d : Die) (k : Nat) (r : List (BitVec 256)) : State :=
  if d.isRx then { s with sti := { s.sti with words := aset s.sti.words (d, k) r } }
  else s.modTx d.car fun t => { t with words := aset t.words k r }

/-- The sending end of a lane sends its next block (R44, R49 to R51, R58, R67): the raw pattern while its generator is
enabled; a marker at each 4,096th block and before the first word on a spare, the latter with the count of the last marker
instant (DESIGN CHOICE, log 39); a word when one is ready, else an idle block. With its sample clock unlocked a receive die
sends idle blocks only. -/
def State.giveBlock (s : State) (d : Die) (m l : Nat) : State :=
  let x := s.send d m l
  let ctl := s.sendCtl d m l
  let turn := decide (x.sent = 0)
  let s := s.modSend d m l fun x => { x with
    sent := (x.sent + 1) % 4096, count := if turn then (x.count + 1) % 2 ^ 32 else x.count }
  let logical := (s.smod d m).sends l
  if bit ctl 0 then
    let r := prbsRun (ctl / 4 % 4) x.gen 258
    let v := BitVec.ofNat 258 (if x.flip then r.2 ^^^ 2 ^ 257 else r.2)
    (s.modSend d m l fun x => { x with gen := r.1, flip := false }).emit
      (.stitch d m l (v.extractLsb' 256 2) (v.setWidth 256))
  else if d.isRx && !(s.die d).clk then s.sendBlock d m l 2 (ctlBlock 0 0 0 0 0)
  else if turn || x.extra then
    (s.modSend d m l fun x => { x with extra := false }).sendBlock d m l 2
      (ctlBlock 0x4D m (logical.getD 0xFF) l (if turn then x.count else x.count + 2 ^ 32 - 1))
  else match logical with
    | none => s.sendBlock d m l 2 (ctlBlock 0 0 0 0 0)
    | some n =>
      let k := 16 * m + n
      match (if d.isRx then agetD s.sti.words (d, k) [] else agetD (s.car d.car).tx.words k []) with
      | [] => s.sendBlock d m l 2 (ctlBlock 0 0 0 0 0)
      | w :: r => (s.wordTake d k r).sendBlock d m l 1 w

/-- STITCH_BLOCK_RECEIVED (R47 to R54, R67): in one block period of a lane its receiving end takes a 258-bit block at its
search position, and its sending end sends its next one. `adc` is the next sample word of a receive die's converters, where
the period brings one. -/
def execStitchBlockReceived (d : Die) (m : Fin 26) (l : Fin 18) (hdr : BitVec 2) (payload : BitVec 256)
    (adc : Option (BitVec 256)) (s : State) : Host.Outcome State Fault Refusal := live s fun s =>
  ((s.takeBlock d m l hdr payload).dealWords d (if d.isRx then adc.toList else [])).giveBlock d m l

/-! ### Lanes and darning -/

/-- LANE_LOCKED (R53, R66): a lane whose logical lane was never taken over carries it again. -/
def execLaneLocked (d : Die) (m : Fin 26) (l : Fin 18) (s : State) : Host.Outcome State Fault Refusal := live s fun s =>
  let x := s.lane d m l
  if x.st = .hunt ∧ 64 ≤ x.run then
    let s := s.modLane d m l fun x => { x with st := .locked, win := [], idle := false, retr := false, mark := none, algn := false }
    let s := s.clear 0x0201 d.car.ev m (stiData d l) (d.num * 32 + l)
    (s.undegrade d m).stiSettle d
  else s

/-- A LOCKED lane had 16 invalid headers in its last 64 blocks (R53). -/
def Lane.failDue (x : Lane) : Bool := x.st == .locked && decide (16 ≤ (x.win.filter id).length)

/-- LANE_FAILED (R53, R58, R63): the lanes of the module that fail in this cycle fail together, in ascending order. -/
def execLaneFailed (d : Die) (m : Fin 26) (l : Fin 18) (s : State) : Host.Outcome State Fault Refusal := live s fun s =>
  if (s.lane d m l).failDue then
    (((List.range 18).filter fun i => (s.lane d m i).failDue).foldl (fun s i => s.laneFail d m i false) s).stiSettle d
  else s

/-- FORWARDED_CLOCK_LOST (R53, R64). -/
def execForwardedClockLost (d : Die) (m : Fin 26) (s : State) : Host.Outcome State Fault Refusal := live s fun s =>
  let s := (List.range 18).foldl (fun s l => if (s.lane d m l).st = .locked then s.laneFail d m l true else s) s
  (s.degrade d m).stiSettle d

/-- A lane is in HUNT as its lock time runs out (R56). -/
def Lane.lockDue (x : Lane) : Bool := x.st == .hunt && !x.retr

/-- LANE_LOCK_TIMEOUT (R56, R63): one timer runs for the lanes of a die, so the module's lanes that have not locked fail
together, in ascending order. -/
def execLaneLockTimeout (d : Die) (m : Fin 26) (l : Fin 18) (s : State) : Host.Outcome State Fault Refusal :=
  live s fun s =>
  if (s.die d).clk ∧ (s.lane d m l).lockDue then
    (((List.range 18).filter fun i => (s.lane d m i).lockDue).foldl (fun s i => s.laneFail d m i false) s).stiSettle d
  else s

/-- DARN_REQUEST (R58, R62): the sending end moves the logical lane onto the spare, extra marker first. A repeated request
finds the lane moved, and another extra marker goes out (DESIGN CHOICE, log 39). -/
def execDarnRequest (d : Die) (m : Fin 26) (msg : BitVec 64) (s : State) : Host.Outcome State Fault Refusal :=
  live s fun s =>
  let s := s.sbCount d m msg
  let l := sbByte msg 2
  let p := sbByte msg 3
  if sbGood msg && sbByte msg 0 == 1 && sbByte msg 1 == m.val && (p == 16 || p == 17) then
    match (if l < 16 then some l else (s.smod d m).sends l) with
    | some n => (s.modSmod d m fun x => { x with sendOn := aset x.sendOn n p }).modSend d m p fun x => { x with
        extra := true }
    | none => s
  else s

/-- DARN_COMPLETE (R59): the spare's marker names the logical lane, which is delivered from the spare again. Event 0x0202
names the spare (DESIGN CHOICE, log 39). -/
def execDarnComplete (d : Die) (m : Fin 26) (spare : Fin 18) (s : State) : Host.Outcome State Fault Refusal :=
  live s fun s =>
  match (s.smod d m).darns.find? (·.spare == spare.val) with
  | some k =>
    let x := s.lane d m spare
    if x.st = .locked ∧ x.markL = some k.logical then
      let s := s.modLane d m k.fromL fun x => { x with carries := none }
      let s := s.modLane d m spare fun x => { x with carries := some k.logical }
      let s := s.modSmod d m fun x => { x with darns := x.darns.filter (· ≠ k) }
      let s := (s.forget 0x0202 d.car.ev m (d.num * 32 + k.logical)).raise 0x0202 d.car.ev m (stiData d spare)
        (d.num * 32 + k.logical)
      (s.undegrade d m).stiSettle d
    else s
  | none => s

/-- DARN_RETRY (R62): without a marker from the spare the request is repeated once. -/
def execDarnRetry (d : Die) (m : Fin 26) (logical : Fin 16) (s : State) : Host.Outcome State Fault Refusal :=
  live s fun s =>
  match (s.smod d m).darns.find? (·.logical == logical.val) with
  | some k => if k.sends = 1 ∧ (s.lane d m k.spare).markL = none then
      (s.modSmod d m fun x => { x with darns := x.darns.map fun y => if y = k then { y with sends := 2 } else y }).emit
        (.sideband d m (sbMsg 1 m k.fromL k.spare 0))
    else s
  | none => s

/-- DARN_TIMEOUT (R62): the module is degraded, and the darning is given up (DESIGN CHOICE, log 39). -/
def execDarnTimeout (d : Die) (m : Fin 26) (logical : Fin 16) (s : State) : Host.Outcome State Fault Refusal :=
  live s fun s =>
  match (s.smod d m).darns.find? (·.logical == logical.val) with
  | some k =>
    ((s.modSmod d m fun x => { x with darns := x.darns.filter (· ≠ k) }).degrade d m).stiSettle d
  | none => s

/-! ### Sideband -/

/-- SIDEBAND_KEEP_ALIVE (R57). -/
def execSidebandKeepAlive (d : Die) (m : Fin 26) (msg : BitVec 64) (s : State) : Host.Outcome State Fault Refusal :=
  live s fun s => s.sbCount d m msg

/-- SIDEBAND_TEST_CONTROL (R46, R57): the converter-die end takes the lane setting, or TEST where the lane is 31. -/
def execSidebandTestControl (d : Die) (m : Fin 26) (msg : BitVec 64) (s : State) : Host.Outcome State Fault Refusal :=
  live s fun s =>
  let s := s.sbCount d m msg
  if sbGood msg && sbByte msg 0 == 2 && sbByte msg 1 == m.val then
    let v := msg.toNat / 256 % 65536
    if sbByte msg 4 = 31 then s.modSmod d m fun x => { x with farTest := bit v 0 }
    else
      let l := sbByte msg 4
      let old := (s.send d m l).ctl
      let s := s.modSend d m l fun x => { (if d.isRx then x.seed old v else x) with ctl := v }
      if d.isRx then s else s.modLane d m l fun x => x.recheck old v
  else s

/-- SIDEBAND_LOCKED (R57, R72). -/
def execSidebandLocked (d : Die) (m : Fin 26) (s : State) : Host.Outcome State Fault Refusal := live s fun s =>
  if 8 ≤ (s.smod d m).sbGood ∧ (s.smod d m).sbLock = false then
    (s.modSmod d m fun x => { x with sbLock := true }).clear 0x0203 d.car.ev m (stiData d) d.num
  else s

/-- SIDEBAND_LOST (R57, R65, R72). -/
def execSidebandLost (d : Die) (m : Fin 26) (s : State) : Host.Outcome State Fault Refusal := live s fun s =>
  if 4 ≤ (s.smod d m).sbBad ∧ (s.smod d m).sbLock = true then
    (s.modSmod d m fun x => { x with sbLock := false }).raise 0x0203 d.car.ev m (stiData d) d.num
  else s

/-! ### Retrain and lane tests -/

/-- Return the FAILED lanes of a module to HUNT (R66). -/
def State.retrain (s : State) (d : Die) (m : Nat) : State :=
  (List.range 18).foldl (fun s l => if (s.lane d m l).st = .failed then
    s.modLane d m l fun x => { x with st := .hunt, run := 0, retr := true } else s) s

/-- RETRAIN (R66). -/
def execRetrain (d : Die) (m : Fin 26) (s : State) : Host.Outcome State Fault Refusal := live s fun s =>
  (s.retrain d m).stiSettle d

/-- Write MOD_CTL.TEST (R68): out of test the module waits for a marker that aligns it again. -/
def State.modTest (s : State) (d : Die) (m : Nat) (v : Bool) : State :=
  let s := s.setField F.STI_MOD_CTL_TEST (modIdx d m) (b2n v)
  let s := s.modSmod d m fun x => { x with test := v, again := x.again || v }
  let s := if v then
      ((List.range 18).foldl (fun s l => s.modLane d m l fun x => { x with algn := false }) s).degrade d m
    else s.undegrade d m
  (s.emit (.sideband d m (sbMsg 2 m 0 0 (31 * 65536 + b2n v)))).stiSettle d

/-- MOD_TEST_WRITE (R68). -/
def execModTestWrite (d : Die) (m : Fin 26) (v : Bool) (s : State) : Host.Outcome State Fault Refusal :=
  live s fun s => s.modTest d m v

/-- GEN_EN or CHK_EN may become 1 on a lane (R68). A data lane that is a free spare at its own position (R66) is no spare lane
here (DESIGN CHOICE, log 39). -/
def State.testAllowed (s : State) (d : Die) (m l : Nat) : Bool :=
  (s.smod d m).test || (16 ≤ l && s.spareIdle d m l)

/-- Write bits `msk` of LANE_CTL (R46, R67 to R70): a 1 in GEN_EN or CHK_EN that R68 does not allow is ignored, and the
setting goes to the end of the lane that it concerns. -/
def State.laneCtlWrite (s : State) (d : Die) (m l : Nat) (w msk : Word) : State :=
  let k : RegKey := ⟨.STI_LANE_CTL, laneIdx d m l⟩
  let old := s.rd k
  let deny : Word := if s.testAllowed d m l then 0 else w &&& 3
  let new := merge old w (msk &&& 0xFF0F &&& ~~~deny)
  let s := s.setWord k new
  let s := if d.isRx then s.modLane d m l fun x => x.recheck old.toNat new.toNat
    else s.modSend d m l fun x => x.seed old.toNat new.toNat
  s.sendSetting d m l

/-- LANE_TEST_ENABLE (R68). -/
def execLaneTestEnable (d : Die) (m : Fin 26) (l : Fin 18) (gen chk : Bool) (s : State) :
    Host.Outcome State Fault Refusal := live s fun s =>
  s.laneCtlWrite d m l (BitVec.ofNat 32 (b2n gen + 2 * b2n chk)) 3

/-- One bit of the generator's output is flipped (R70). -/
def State.flip (s : State) (d : Die) (m l : Nat) : State := s.modSend d m l fun x => { x with flip := true }

/-- INJECT_SINGLE (R70): at the sending end. -/
def execInjectSingle (d : Die) (m : Fin 26) (l : Fin 18) (s : State) : Host.Outcome State Fault Refusal :=
  live s fun s =>
  let c := s.sendCtl d m l
  if bit c 0 ∧ c / 256 % 4 = 1 then
    ((s.flip d m l).modSend d m l fun x => { x with ctl := (setBits (BitVec.ofNat 32 x.ctl) 9 8 0).toNat }).setField
      F.STI_LANE_CTL_INJ_MODE (laneIdx d m l) 0
  else s

/-- INJECT_RATE_TICK (R70). -/
def execInjectRateTick (d : Die) (m : Fin 26) (l : Fin 18) (s : State) : Host.Outcome State Fault Refusal :=
  live s fun s =>
  let c := s.sendCtl d m l
  if bit c 0 ∧ c / 256 % 4 = 2 ∧ 10 ≤ c / 1024 % 64 ∧ c / 1024 % 64 ≤ 40 then s.flip d m l else s

/-- PRBS_SYNC (R67): at the receiving end. -/
def execPrbsSync (d : Die) (m : Fin 26) (l : Fin 18) (s : State) : Host.Outcome State Fault Refusal := live s fun s =>
  let x := s.lane d m l
  if bit (s.recvCtl d m l) 1 ∧ x.sync = false ∧ 1024 ≤ x.crun then
    s.modLane d m l fun x => { x with sync := true, pbits := 0, perr := 0 }
  else s

/-- PRBS_SYNC_LOSS (R67). -/
def execPrbsSyncLoss (d : Die) (m : Fin 26) (l : Fin 18) (s : State) : Host.Outcome State Fault Refusal :=
  live s fun s =>
  let x := s.lane d m l
  if bit (s.recvCtl d m l) 1 ∧ x.sync = true ∧ 256 ≤ x.perr then
    s.modLane d m l fun x => { x with sync := false, crun := 0, pbits := 0, perr := 0 }
  else s

/-! ### Converter clocks and paths -/

/-- SAMPLE_CLOCK_LOCK (R42, R55). -/
def execSampleClockLock (d : Die) (s : State) : Host.Outcome State Fault Refusal := live s fun s =>
  (s.modDie d fun x => { x with clk := true }).stiSettle d

/-- A die's sample clock loses lock (R44, R72): the counts of words start anew with its link (R49). -/
def State.clkUnlock (s : State) (d : Die) : State :=
  let s := { s with sti := { s.sti with
    rxn := s.sti.rxn.filter fun e => e.1.1 != d, txn := adel s.sti.txn d
    buf := s.sti.buf.filter fun e => e.1.1 != d, words := s.sti.words.filter fun e => e.1.1 != d
    grp := s.sti.grp.filter fun e => e.1.1 != d } }
  let s := if d.isRx then s.modFe d.car fun f => { f with inq := [], inNext := 0, eqIn := [], ilTail := [], skTail := [] }
    else (s.modTx d.car fun t => { t with words := [] }).dacZero d.car
  ((s.modDie d fun x => { x with clk := false }).raise 0x0205 d.car.ev 0 (stiData d) d.num).stiSettle d

/-- SAMPLE_CLOCK_UNLOCK (R44, R72). -/
def execSampleClockUnlock (d : Die) (s : State) : Host.Outcome State Fault Refusal := live s fun s =>
  if (s.die d).clk then s.clkUnlock d else s

/-- PATH_FAULT_CLEAR (R72). -/
def execPathFaultClear (d : Die) (s : State) : Host.Outcome State Fault Refusal := live s fun s =>
  if (s.die d).fault ∧ s.pathCause d = false ∧ (s.die d).aligned then
    ((s.modDie d fun x => { x with fault := false }).clear 0x0206 d.car.ev 0 (stiData d) d.num).settle d.car
  else s

/-- SAMPLE_CLOCK_LOCK_HELD (R72). -/
def execSampleClockLockHeld (d : Die) (s : State) : Host.Outcome State Fault Refusal := live s fun s =>
  if (s.die d).clk then s.clear 0x0205 d.car.ev 0 (stiData d) d.num else s

end Sys2Proof.Machine
end

