-- ==== Sys2Proof/Machine/Rings.lean ====
section
/-! DEFINITION. Command rings: enable, doorbells, descriptors and their checks, dispatch and completions (chapter 18). -/

namespace Sys2Proof.Machine

/-! ### Rings and descriptors -/

/-- A ring's state. -/
def State.ring (s : State) (fn : Fn) (r : Nat) : CmdRing := agetD s.io.rings (fn, r) ringReset
/-- Change it. -/
def State.modRing (s : State) (fn : Fn) (r : Nat) (f : CmdRing → CmdRing) : State :=
  { s with io := { s.io with rings := aset s.io.rings (fn, r) (f (s.ring fn r)) } }
/-- Rings of a function (R464). -/
def ringCount (fn : Fn) : Nat :=
  match fn with
  | .PF0 => 64
  | .PF1 => 8
/-- Index of a ring's registers, and its number in the signals of R513. -/
def ringIdx (fn : Fn) (r : Nat) : Nat :=
  match fn with
  | .PF0 => r
  | .PF1 => r + 64
/-- A ring's slots. -/
def State.ringSize (s : State) (fn : Fn) (r : Nat) : Nat := 2 ^ s.cf F.HST_RING_CTL_LOG2SIZE (ringIdx fn r)

/-- Opcode of a descriptor (R470). -/
def descOp (d : Bytes) : Nat := leAt d 0 2

/-- A row of R493: opcode, class, needs the management processor, PF1 only. -/
structure OpRow where
  op   : Nat
  cls  : Nat
  mp   : Bool
  pf1  : Bool
deriving DecidableEq, Repr

/-- The command catalogue (R493). -/
def opTable : List OpRow :=
  [⟨0x0001, 0, false, false⟩, ⟨0x0002, 0, false, false⟩, ⟨0x0003, 0, false, false⟩, ⟨0x0004, 0, false, false⟩,
   ⟨0x0005, 0, false, false⟩, ⟨0x0101, 1, false, false⟩, ⟨0x0102, 1, false, false⟩, ⟨0x0103, 1, true, false⟩,
   ⟨0x0104, 1, true, false⟩, ⟨0x0105, 1, true, false⟩, ⟨0x0106, 1, true, false⟩, ⟨0x0107, 1, true, false⟩,
   ⟨0x0108, 1, false, false⟩, ⟨0x0109, 1, true, false⟩, ⟨0x010A, 1, true, false⟩, ⟨0x0201, 2, true, false⟩,
   ⟨0x0301, 3, false, false⟩, ⟨0x0302, 1, false, false⟩, ⟨0x0401, 1, true, true⟩, ⟨0x0402, 1, true, true⟩,
   ⟨0x0403, 2, true, true⟩, ⟨0x0404, 1, true, true⟩, ⟨0x0405, 1, true, true⟩]

/-- The row of an opcode. -/
def opRow (op : Nat) : Option OpRow := opTable.find? (·.op == op)

/-- A field of a command: offset, size, and whether a value is in range. -/
abbrev PField := Nat × Nat × (Nat → Bool)

/-- A carrier field. -/
def carF (o : Nat) : PField := (o, 1, fun v => v < 2)
/-- Any value. -/
def anyF (o n : Nat) : PField := (o, n, fun _ => true)

/-- An offset is a register's: word aligned, inside the window, and in no table window (R446, R479, R500). -/
def stagedReadOk (off : Nat) : Bool :=
  off % 4 == 0 && off < 0x4000000 && !((0x2000000 ≤ off && off < 0x2200000) || (0x2400000 ≤ off && off < 0x2C00000))

/-- The fields of a command in ascending offset (R494, R527, R528, R533); some depend on the descriptor itself. -/
def opFields (d : Bytes) : List PField :=
  match descOp d with
  | 0x0002 => [(16, 2, fun v => v < 512)]
  | 0x0003 => [(16, 2, fun v => if byteAt d 18 = 1 then v < 64 else v < 1024), (18, 1, fun v => v < 2),
               (19, 1, fun v => v < 7)]
  | 0x0004 => [(16, 4, fun v => v < 2 ^ 15)]
  | 0x0005 => [carF 16, (17, 1, fun v => v == 1 || v == 2), anyF 18 2]
  | 0x0101 => [(16, 2, fun v => 0 < v && v < 512), (18, 1, fun v => 1 ≤ v && v ≤ 3),
               (19, 1, fun v => v == 0 || (v == 1 && byteAt d 18 == 3)),
               (20, 7, fun v => v == 0 || byteAt d 19 == 1)]
  | 0x0102 => [(16, 4, stagedReadOk)]
  | 0x0103 => [(16, 1, fun v => v < 3), (17, 1, fun v => 1 ≤ v && v ≤ 3)]
  | 0x0104 => [carF 16, (17, 1, fun v => v < 3 || v == 0xFF)]
  | 0x0105 | 0x0106 => [carF 16, (17, 1, fun v => v < 2), (24, 8, fun v => byteAt d 17 == 1 || v == 0)]
  | 0x0107 => [carF 16, (17, 1, fun v => v < 2), (18, 1, fun v => 1 ≤ v && v ≤ 3),
               (24, 8, fun v => byteAt d 17 == 1 || v == 0), anyF 32 7]
  | 0x0108 => [carF 16, (18, 2, fun v => 4 ≤ v && v ≤ 8192), anyF 24 8]
  | 0x0109 => [carF 16, anyF 24 8]
  | 0x010A => [anyF 16 1]
  | 0x0201 => [(16, 1, fun v => v == 1), (17, 1, fun v => v < 4), (18, 1, fun v => v < 7),
               (20, 4, fun v => v == 500), anyF 24 8]
  | 0x0301 => [carF 16, (17, 1, fun v => v < 4), anyF 18 2,
               (20, 4, fun v => v ≤ (if byteAt d 17 = 3 then 1984 else 524288)), (24, 1, fun v => v < 3),
               (25, 1, fun v => v < 32), anyF 26 2, anyF 28 8, (36, 8, fun v => v % 64 == 0)]
  | 0x0302 => [carF 16]
  | 0x0401 => [(16, 2, fun v => v < 1024), anyF 18 3, anyF 24 8, anyF 32 7, anyF 39 7]
  | 0x0402 => [carF 16, anyF 24 8]
  | 0x0403 => [(16, 1, fun v => v < 3), anyF 20 4, anyF 24 8]
  | 0x0404 => [(16, 1, fun v => v < 2), (17, 1, fun v => v < 2)]
  | 0x0405 => [anyF 16 32]
  | _ => []

/-- First bad byte of a descriptor from offset `o` on (R494, R495), `n` bytes left to look at. -/
def badFrom (d : Bytes) (fs : List PField) (o n : Nat) : Option Nat :=
  match n with
  | 0 => none
  | n + 1 =>
    match fs.find? (fun f => f.1 ≤ o && o < f.1 + f.2.1) with
    | some f => if o = f.1 && !f.2.2 (leAt d f.1 f.2.1) then some o else badFrom d fs (o + 1) n
    | none => if byteAt d o ≠ 0 then some o else badFrom d fs (o + 1) n

/-- First bad field of a descriptor: FLAGS, the zero bytes of R470, then the parameters. -/
def paramBad (d : Bytes) : Option Nat :=
  if 2 ≤ byteAt d 8 then some 8 else if byteAt d 9 ≠ 0 then some 9
  else badFrom d (opFields d) 12 48

/-- Size of the host buffer a descriptor names; none where it names none (R492, R494). -/
def bufLen (d : Bytes) : Option Nat :=
  match descOp d with
  | 0x0105 | 0x0106 | 0x0107 => if byteAt d 17 = 1 then some 52 else none
  | 0x0108 => some (leAt d 18 2 + 4)
  | 0x0109 => some 132
  | 0x0201 => some 500
  | 0x0401 => some 68
  | 0x0402 => some 2596
  | 0x0403 => some (leAt d 20 4)
  | _ => none

/-- Status and result of the first failing check of a fetched descriptor (R474, R493 to R495). -/
def State.descStatus (s : State) (fn : Fn) (r : Nat) (d : Bytes) : Option (Nat × Nat) :=
  match opRow (descOp d) with
  | none => some (4, 0)
  | some o =>
    let c := s.cf F.HST_RING_CTL_CLASS (ringIdx fn r)
    if o.pf1 && fn == .PF0 then some (6, 0)
    else if c < o.cls then some (5, c)
    else (paramBad d).map fun b => (3, b)

/-! ### Completions -/

/-- The 16 bytes of a completion (R473). -/
def cplBytes (tag slot status phase result alive : Nat) : Bytes :=
  let b := leBytes 4 tag ++ leBytes 2 slot ++ leBytes 1 status ++ leBytes 1 phase ++ leBytes 4 result ++ leBytes 2 alive
  b ++ leBytes 2 (crc16 b)

/-- The host port can write (R468, R487). -/
def Io.up (io : Io) : Bool := io.link && !io.perst

/-- Write a completion and its interrupt (R468, R470). -/
def State.cplOut (s : State) (fn : Fn) (r : Nat) (h : HeldCpl) : State :=
  let s := (s.emit (.hostWrite h.addr h.data)).signal 0x0031 0 (ringIdx fn r)
  match h.irq with
  | some v => { s with io := s.io.msix s.rd fn v }
  | none => s

/-- Complete the descriptor at the consumer index (R468, R469, R473): written at once, or held while the link is down. -/
def State.cplWrite (s : State) (fn : Fn) (r : Nat) (d : Bytes) (status result : Nat) : State :=
  let q := s.ring fn r
  let i := ringIdx fn r
  let n := s.ringSize fn r
  let slot := q.cons % n
  let base := s.cf F.HST_CPL_BASE_LO_ADDR i + 2 ^ 32 * s.cf F.HST_CPL_BASE_HI_ADDR i
  let h : HeldCpl := ⟨base + slot * 16,
    cplBytes (leAt d 4 4) slot status (1 - q.cons / n % 2) (result % 2 ^ 32) (leAt d 2 2),
    if bit (byteAt d 8) 0 then some (s.cf F.HST_RING_CTL_VECTOR i) else none⟩
  let now := s.io.up && q.heldCpl.isEmpty
  let s := s.modRing fn r fun q => { q with
    cons := (q.cons + 1) % 2 ^ 32, exec := none
    st := if q.st = .stopping then .disabled else q.st
    heldCpl := if now then q.heldCpl else q.heldCpl ++ [h] }
  if now then s.cplOut fn r h else s

/-- Halt a ring at its consumer index (R471): cause 1 ALIVE, 2 CRC, 3 host read error. -/
def State.ringHalt (s : State) (fn : Fn) (r cause : Nat) (d : Bytes) : State :=
  let q := s.ring fn r
  let s := s.modRing fn r fun q => { q with st := .halted, cause := cause, fetched := [], reread := false }
  (s.bump .HST_RING_HALT_CNT (ringIdx fn r)).raise 0x0104 0 r
    ([BitVec.ofNat 8 cause, BitVec.ofNat 8 fn.num] ++ leBytes 2 (q.cons % s.ringSize fn r) ++ leBytes 2 q.alive ++
      leBytes 2 (if cause = 3 then 0 else leAt d 2 2)) fn.num

/-- A halt ends: the cleared record of 0x0104 (R472). -/
def State.haltClear (s : State) (fn : Fn) (r : Nat) : State := s.clear 0x0104 0 r [0, BitVec.ofNat 8 fn.num] fn.num

/-- What fails in a descriptor (R471): 0 nothing, 1 ALIVE, 2 CRC, 3 the read. An empty descriptor is a failed read. -/
def descBad (d : Bytes) (alive : Nat) : Nat :=
  if d.length ≠ 64 then 3
  else if leAt d 60 4 ≠ crc32c (d.take 60) then 2
  else if leAt d 2 2 ≠ alive then 1
  else 0

/-- Put a passed descriptor in execution, or complete it with the status of the check it fails. -/
def State.accept (s : State) (fn : Fn) (r : Nat) (d : Bytes) : State :=
  let s := s.modRing fn r fun q => { q with alive := (q.alive + 1) % 65536, reread := false }
  match s.descStatus fn r d with
  | some (st, res) => s.cplWrite fn r d st res
  | none => s.modRing fn r fun q => { q with
      exec := some ⟨d, if (bufLen d).isSome then BufSt.wait else BufSt.none, false⟩ }

/-- Take the next fetched descriptors while none is in execution (R467, R471). -/
def State.dispatch (s : State) (fn : Fn) (r fuel : Nat) : State :=
  match fuel with
  | 0 => s
  | fuel + 1 =>
    let q := s.ring fn r
    match q.fetched with
    | [] => s
    | d :: rest =>
      if q.st ≠ .running ∨ q.exec.isSome ∨ q.reread then s else
      match descBad d q.alive with
      | 0 => ((s.modRing fn r fun q => { q with fetched := rest }).accept fn r d).dispatch fn r fuel
      | 3 => s.ringHalt fn r 3 d
      | _ => s.modRing fn r fun q => { q with fetched := [], reread := true }

/-! ### Arbitration among the rings of PF0 (R474) -/

/-- A ring of PF0 has a command that can run now: its buffer is read, and the processor it needs is up (R16). -/
def State.arbReady (s : State) (r : Nat) : Bool :=
  match (s.ring .PF0 r).exec with
  | some c => !c.accepted && c.buf != .wait && (s.boot.mpUp || !((opRow (descOp c.desc)).map (·.mp)).getD false)
  | none => false

/-- The rings of a class that can be served, in ascending order. -/
def State.arbRings (s : State) (k : Nat) : List Nat :=
  (List.range 64).filter fun r => s.arbReady r && s.cf F.HST_RING_CTL_CLASS r == k

/-- Weight of a class (HST.ARB). -/
def State.arbWeight (s : State) (k : Nat) : Nat :=
  max 1 (match k with
    | 1 => s.cf F.HST_ARB_W1 0
    | 2 => s.cf F.HST_ARB_W2 0
    | _ => s.cf F.HST_ARB_W3 0)

/-- The class after `k` in the round of 1 to 3. -/
def nextClass (k : Nat) : Nat := if k = 3 then 1 else k + 1

/-- The class to serve: class 0 first; then the class whose turn it is, up to its weight, and the next that waits. -/
def State.arbClass (s : State) : Nat :=
  if s.arbRings 0 ≠ [] then 0 else
  let k := s.io.arb.cls
  let n := nextClass k
  let m := nextClass n
  let order := if s.io.arb.used < s.arbWeight k then [k, n, m] else [n, m, k]
  (order.find? fun k => s.arbRings k != []).getD k

/-- The ring of PF0 to serve next: rings of one class go round robin. -/
def State.arbPick (s : State) : Option Nat :=
  let k := s.arbClass
  let l := s.arbRings k
  match aget s.io.arb.last k with
  | some p => (l.find? (p < ·)).orElse fun _ => l.head?
  | none => l.head?

/-- A command of the ring has been served. -/
def State.arbServe (s : State) (fn : Fn) (r : Nat) : State :=
  match fn with
  | .PF1 => s
  | .PF0 =>
    let k := s.cf F.HST_RING_CTL_CLASS r
    let a := s.io.arb
    let last := aset a.last k r
    { s with io := { s.io with arb :=
        if k = 0 then { a with last := last }
        else if k = a.cls ∧ a.used < s.arbWeight k then { a with used := a.used + 1, last := last }
        else ⟨k, 1, last⟩ } }

/-- Complete the command in execution and take the next. -/
def State.finish (s : State) (fn : Fn) (r status result : Nat) : State :=
  match (s.ring fn r).exec with
  | some c => ((s.arbServe fn r).cplWrite fn r c.desc status result).dispatch fn r 9
  | none => s

/-! ### Running a command -/

/-- A class-0 descriptor waits on a PF0 class-0 ring (R474). -/
def State.class0Waits (s : State) : Bool :=
  s.io.rings.any fun e => e.1.1 == .PF0 && e.2.exec.isSome && s.cf F.HST_RING_CTL_CLASS (ringIdx .PF0 e.1.2) == 0

/-- The command that a ring has in execution, when it has this opcode and can run now: its buffer is read, the
processor it needs is up (R16), and, on PF0, it is the ring's turn (R474). -/
def State.running (s : State) (fn : Fn) (r op : Nat) : Option ExecCmd :=
  match (s.ring fn r).exec with
  | some c =>
    let mp := fn == .PF1 || ((opRow op).map (·.mp)).getD false
    let turn := fn == .PF1 || s.arbPick == some r
    if descOp c.desc = op ∧ c.accepted = false ∧ c.buf ≠ .wait ∧ (mp = false ∨ s.boot.mpUp) ∧ turn then some c
    else none
  | none => none

/-- Bytes of the buffer a command read, without the CRC-32C. -/
def ExecCmd.data (c : ExecCmd) : Bytes :=
  match c.buf with
  | .ready b => b.take (b.length - 4)
  | _ => []

/-- A command: if it runs on ring `r`, its completion is written and then its effect follows (R490); `f` gives status,
result and effect. -/
def command (fn : Fn) (r op : Nat) (s : State) (f : Bytes → Bytes → State → Nat × Nat × (State → State)) :
    Host.Outcome State Fault Refusal :=
  live s fun s =>
    match s.running fn r op with
    | some c =>
      let a := f c.desc c.data s
      a.2.2 (s.finish fn r a.1 a.2.1)
    | none => s

/-- A refused command: a status and result, no effect. -/
def stop (status result : Nat) : Nat × Nat × (State → State) := (status, result, id)

/-! ### Control of a ring -/

/-- Write RING_CTL (R465, R469, R472): `w` the value, `m` the mask of the bytes written. -/
def State.ringCtl (s : State) (fn : Fn) (r : Nat) (w m : Word) : State :=
  let i := ringIdx fn r
  let k : RegKey := ⟨.HST_RING_CTL, i⟩
  let old := s.rd k
  let q := s.ring fn r
  let v := merge old w (m &&& fldMask .HST_RING_CTL fun f => f.acc == .rw)
  if bits old 31 31 = 1 then
    let s := if bits (w &&& m) 23 23 = 1 ∧ q.st = .halted then
        (s.modRing fn r fun q => { q with st := .running, fetched := [], reread := false }).haltClear fn r
      else s
    if bits v 31 31 = 0 then
      let s := s.setWord k (setBits old 31 31 0)
      let h := (s.ring fn r).st == .halted
      let s := s.modRing fn r fun q => { q with
        st := if q.exec.isSome then .stopping else .disabled, fetched := [], reread := false }
      if h then s.haltClear fn r else s
    else s
  else
    let s := s.setWord k (setBits v 31 31 0)
    let n := bits v 28 24
    let ok := bits v 31 31 = 1 ∧ q.st = .disabled ∧ 6 ≤ n ∧ n ≤ 16 ∧
      s.cf F.HST_RING_BASE_LO_ADDR i % 4096 = 0 ∧ s.cf F.HST_CPL_BASE_LO_ADDR i % 4096 = 0
    if ok then
      (s.setField F.HST_RING_CTL_EN i 1).modRing fn r fun q => { q with
        st := .running, prod := 0, cons := 0, fetched := [], reread := false, exec := none }
    else s

/-- RING_ENABLE (R465). -/
def execRingEnable (fn : Fn) (r : Nat) (cls : Fin 4) (log2 : Fin 32) (vector : Fin 64) (s : State) :
    Host.Outcome State Fault Refusal := live s fun s =>
  if r < ringCount fn then
    s.ringCtl fn r (BitVec.ofNat 32 (2 ^ 31 + cls.val * 2 ^ 29 + log2.val * 2 ^ 24 + vector.val * 2 ^ 16)) (-1)
  else s

/-- RING_DISABLE (R469). -/
def execRingDisable (fn : Fn) (r : Nat) (s : State) : Host.Outcome State Fault Refusal := live s fun s =>
  if r < ringCount fn then s.ringCtl fn r 0 0x80000000 else s

/-- RING_RESUME (R472). -/
def execRingResume (fn : Fn) (r : Nat) (s : State) : Host.Outcome State Fault Refusal := live s fun s =>
  if r < ringCount fn then s.ringCtl fn r 0x00800000 0x00800000 else s

/-- A doorbell (R466, R483). -/
def State.doorbell (s : State) (fn : Fn) (r : Nat) (v : Word) : State :=
  let q := s.ring fn r
  let cause := match q.st with
    | .halted => 3
    | .disabled | .stopping => 2
    | .running =>
      if v.toNat ≠ q.prod ∧ s.ringSize fn r < (v.toNat + 2 ^ 32 - q.cons) % 2 ^ 32 then 1 else 0
  if cause = 0 then s.modRing fn r fun q => { q with prod := v.toNat }
  else (s.bump .HST_DB_BAD 0).occ 0x0105 0 r ([BitVec.ofNat 8 cause, BitVec.ofNat 8 fn.num, 0, 0] ++ leBytes 4 v.toNat)

/-- DOORBELL (R466). -/
def execDoorbell (fn : Fn) (r : Nat) (prod : Word) (s : State) : Host.Outcome State Fault Refusal := live s fun s =>
  if r < ringCount fn then s.doorbell fn r prod else s

/-- A descriptor read's bytes; empty where the read failed. -/
def ReadOut.desc (o : ReadOut) : Bytes :=
  match o with
  | .data b => padTo 64 b
  | _ => []

/-- DESCRIPTOR_ARRIVE (R467, R468, R470, R471): a read of up to 8 descriptors returns. -/
def execDescriptorArrive (fn : Fn) (r : Nat) (got : List ReadOut) (s : State) : Host.Outcome State Fault Refusal :=
  live s fun s =>
  let q := s.ring fn r
  let held := q.fetched.length + (if q.exec.isSome then 1 else 0)
  let room := (q.prod + 2 ^ 32 - q.cons) % 2 ^ 32 - held
  if q.st = .running ∧ q.reread = false ∧ s.io.up ∧ q.heldCpl = [] then
    let new := (got.take (min 8 room)).map ReadOut.desc
    let s := s.signal 0x0030 0 (ringIdx fn r) new.length
    (s.modRing fn r fun q => { q with fetched := q.fetched ++ new }).dispatch fn r 9
  else s

/-- DESCRIPTOR_REREAD (R471). -/
def execDescriptorReread (fn : Fn) (r : Nat) (got : ReadOut) (s : State) : Host.Outcome State Fault Refusal :=
  live s fun s =>
  let q := s.ring fn r
  if q.st = .running ∧ q.reread ∧ s.io.up then
    match descBad got.desc q.alive with
    | 0 => s.accept fn r got.desc
    | c => s.ringHalt fn r c got.desc
  else s

/-- NOP (R493). -/
def execNop (fn : Fn) (r : Nat) (s : State) : Host.Outcome State Fault Refusal :=
  command fn r 1 s fun _ _ _ => stop 0 0

/-- COMMAND_TIMEOUT (R481, R492): TIMEOUT_MS after its fetch a command not yet accepted ends without a change. -/
def execCommandTimeout (fn : Fn) (r : Nat) (s : State) : Host.Outcome State Fault Refusal := live s fun s =>
  match (s.ring fn r).exec with
  | some c =>
    let mp := ((opRow (descOp c.desc)).map (·.mp)).getD false
    if c.accepted = false ∧ leAt c.desc 10 2 ≠ 0xFFFF ∧ (leAt c.desc 10 2 ≠ 0 ∨ mp) then s.finish fn r 7 0 else s
  | none => s

/-! ### Event and message rings -/

/-- Post what can be posted. -/
def State.drainAll (s : State) : State := { s with io := s.io.drain s.rd s.ns }

/-- Write EVR_CTL of event ring `e` (0 to 3 PF0's, 4 and 5 PF1's; R484, R485). -/
def State.evrCtl (s : State) (e : Nat) (w m : Word) : State :=
  let k : RegKey := ⟨.EVT_EVR_CTL, e⟩
  let v := merge (s.rd k) w m
  let v := if e < 4 then v else setBits v 30 30 0
  let n := bits v 28 24
  let ok := bits v 31 31 = 1 ∧ 6 ≤ n ∧ n ≤ 16 ∧ s.cf F.EVT_EVR_BASE_LO_ADDR e % 4096 = 0
  (s.setWord k (setBits (setBits v 29 29 0) 31 31 (if ok then 1 else 0))).drainAll

/-- Event rings of a function. -/
def evrIdx (fn : Fn) (e : Nat) : Option Nat :=
  match fn with
  | .PF0 => if e < 4 then some e else none
  | .PF1 => if e < 2 then some (e + 4) else none

/-- EVR_ENABLE (R476, R484, R485): the value written to EVR_CTL. -/
def execEvrEnable (fn : Fn) (e : Nat) (ctl : Word) (s : State) : Host.Outcome State Fault Refusal := live s fun s =>
  match evrIdx fn e with
  | some i => s.evrCtl i ctl (-1)
  | none => s

/-- EVR_HEAD_WRITE (R484, R487). -/
def execEvrHeadWrite (fn : Fn) (e : Nat) (head : Word) (s : State) : Host.Outcome State Fault Refusal :=
  live s fun s =>
  match evrIdx fn e with
  | some i => (s.setWord ⟨.EVT_EVR_HEAD, i⟩ head).drainAll
  | none => s

/-- COALESCE_TIMER (R488): COAL_US after the first record not signalled. -/
def execCoalesceTimer (fn : Fn) (e : Nat) (s : State) : Host.Outcome State Fault Refusal := live s fun s =>
  match evrIdx fn e with
  | some i =>
    if 0 < (s.io.evring i).unsig then
      let q := s.io.evring i
      let io := { s.io with evr := aset s.io.evr i { q with unsig := 0 } }
      { s with io := io.msix s.rd fn (s.cf F.EVT_EVR_CTL_VECTOR i) }
    else s
  | none => s

/-- Write MSG_CTL (R489). -/
def State.msgCtl (s : State) (w m : Word) : State :=
  let k : RegKey := ⟨.EVT_MSG_CTL, 0⟩
  let v := merge (s.rd k) w m
  let n := bits v 3 0
  let ok := bits v 31 31 = 1 ∧ 4 ≤ n ∧ n ≤ 10 ∧ s.cf F.EVT_MSG_BASE_LO_ADDR 0 % 4096 = 0
  s.setWord k (BitVec.ofNat 32 ((if ok then 2 ^ 31 else 0) + n))

/-- MSG_RING_ENABLE (R489). -/
def execMsgRingEnable (ctl : Word) (s : State) : Host.Outcome State Fault Refusal := live s fun s => s.msgCtl ctl (-1)

/-- MSG_HEAD_WRITE (R489). -/
def execMsgHeadWrite (head : Word) (s : State) : Host.Outcome State Fault Refusal := live s fun s =>
  s.setWord ⟨.EVT_MSG_HEAD, 0⟩ head

/-- Deliver a message of yours to the message ring, or drop it (R489): carrier, whether it came over Tack, the message
as received. -/
def State.msgDeliver (s : State) (x : Carrier) (tack : Bool) (msg : Bytes) : State :=
  let dat : Bytes := [BitVec.ofNat 8 (byteAt msg 2), 0] ++ leBytes 2 (beAt msg 0 2)
  let n := 2 ^ s.cf F.EVT_MSG_CTL_LOG2SLOTS 0
  let used := (s.io.msgTail + 2 ^ 32 - s.cf F.EVT_MSG_HEAD_INDEX 0) % 2 ^ 32
  if s.io.up && s.cf F.EVT_MSG_CTL_EN 0 == 1 && decide (used < n) then
    let base := s.cf F.EVT_MSG_BASE_LO_ADDR 0 + 2 ^ 32 * s.cf F.EVT_MSG_BASE_HI_ADDR 0
    let slot := s.io.msgTail % n
    let b := padTo 8240 msg ++ leBytes 8 s.ns ++ [BitVec.ofNat 8 x.num, BitVec.ofNat 8 (b2n tack)] ++ List.replicate 6 0
    let s := s.emit (.hostWrite (base + slot * 8256) b)
    ({ s with io := { s.io with msgTail := (s.io.msgTail + 1) % 2 ^ 32 } }).occ 0x0107 x.ev slot dat
  else (s.bump .EVT_MSG_DROP 0).occ 0x0108 x.ev 0 dat

/-! ### Link and function resets -/

/-- PCIE_LINK_DOWN (R17, R468, R487). -/
def execPcieLinkDown (s : State) : Host.Outcome State Fault Refusal := live s fun s =>
  { s with io := { s.io with link := false } }

/-- Write the completions held for a ring. -/
def State.cplRelease (s : State) (fn : Fn) (r : Nat) : State :=
  let h := (s.ring fn r).heldCpl
  h.foldl (fun s c => s.cplOut fn r c) (s.modRing fn r fun q => { q with heldCpl := [] })

/-- The link is up and out of reset: held completions, then held records (R468, R487). -/
def State.linkUp (s : State) : State :=
  if s.io.up then
    (s.io.rings.foldl (fun s e => if e.2.heldCpl.isEmpty then s else s.cplRelease e.1.1 e.1.2) s).drainAll
  else s

/-- PCIE_LINK_UP (R468, R487, R492, R547). -/
def execPcieLinkUp (s : State) : Host.Outcome State Fault Refusal := live s fun s =>
  ({ s with io := { s.io with link := true } }).linkUp

/-- Registers of a function's HST and EVT rings that a reset of the function returns to reset (R464, R486, R491). -/
def fnReg (fn : Fn) (k : RegKey) : Bool :=
  let pf0 := match k.reg with
    | .HST_RING_CTL | .HST_RING_BASE_LO | .HST_RING_BASE_HI | .HST_CPL_BASE_LO | .HST_CPL_BASE_HI =>
      some (decide (k.idx < 64))
    | .EVT_EVR_CTL | .EVT_EVR_BASE_LO | .EVT_EVR_BASE_HI | .EVT_EVR_HEAD => some (decide (k.idx < 4))
    | .EVT_EVR_ROUTE0 | .EVT_EVR_ROUTE1 | .EVT_MSG_BASE_LO | .EVT_MSG_BASE_HI | .EVT_MSG_CTL | .EVT_MSG_HEAD =>
      some true
    | .HST_PF1_ROUTE0 | .HST_PF1_ROUTE1 => some false
    | .HST_MSIX => some (decide (k.idx < 256))
    | _ => none
  match pf0, fn with
  | some b, .PF0 => b
  | some b, .PF1 => !b
  | none, _ => false

/-- A function's rings return to reset (R464, R491): commands end without completions, RING_ALIVE keeps its value, halts
end with their cleared records, SEQ and the counts of lost records stay (R486). -/
def State.fnReset (s : State) (fn : Fn) : State :=
  let old := s.io.rings
  let s := { s with
    regs := { s.regs with active := s.regs.active.filter (fun e => !fnReg fn e.1) }
    io := { s.io with
      rings := old.map fun e => if e.1.1 = fn then (e.1, { ringReset with alive := e.2.alive }) else e
      cnt := s.io.cnt.filter fun e => !(e.1.reg == .HST_RING_HALT_CNT && decide (e.1.idx < 64) == (fn == .PF0))
      evr := s.io.evr.map fun e => if evrFn e.1 = fn then (e.1, { e.2 with tail := 0, unsig := 0 }) else e
      msgTail := if fn = .PF0 then 0 else s.io.msgTail
      arb := if fn = .PF0 then ⟨1, 0, []⟩ else s.io.arb
      pba := s.io.pba.filter (fun p => p.1 ≠ fn) } }
  old.foldl (fun s e => if e.1.1 = fn ∧ e.2.st = .halted then s.haltClear fn e.1.2 else s) s

/-- The staging copies are discarded (R17). -/
def State.unstage (s : State) : State := { s with regs := { s.regs with staged := [] } }

/-- FLR_PF0 (R17, R472, R491). -/
def execFlrPf0 (s : State) : Host.Outcome State Fault Refusal := live s fun s => (s.fnReset .PF0).unstage

/-- FLR_PF1 (R464). -/
def execFlrPf1 (s : State) : Host.Outcome State Fault Refusal := live s fun s => s.fnReset .PF1

/-- PERST (R543, R546): PERST_N falls or rises. Low resets both functions and the link. -/
def execPerst (low : Bool) (s : State) : Host.Outcome State Fault Refusal :=
  let s := { s with io := { s.io with perst := low } }
  live s fun s =>
  if low then
    let s := ((s.fnReset .PF0).unstage).fnReset .PF1
    { s with io := { s.io with link := false } }
  else s

end Sys2Proof.Machine
end

