-- ==== Sys2Proof/Machine/Commit.lean ====
section
/-! DEFINITION. Commits: the checks of a commit, acceptance, cancellation, staged reads and profiles (R21 to R41, R477 to
R479, R495). -/

namespace Sys2Proof.Machine

/-! ### What a commit checks -/

/-- The reader after a commit, and what else a check looks at. -/
structure Chk where
  /-- Active values now. -/
  old   : Rd
  /-- Values that would be active after it (R315, R456). -/
  new   : Rd
  /-- The registers that any table lists, each once. -/
  keys  : List RegKey
  kTxA  : Nat
  kTxB  : Nat
  kRxA  : Nat
  kRxB  : Nat
  /-- Channels that this very plan sheds or restores (R315). -/
  exempt : List Nat

/-- Each key once. -/
def dedupKeys (l : List RegKey) : List RegKey := l.foldl (fun a k => if a.contains k then a else k :: a) []

/-- D_max in ps/nm at a rate in kBd (R81). -/
def dMax (kbd : Nat) : Nat := 25600000 * 1000000 / max 1 kbd

/-- Slots of channel `c` in a slot map. -/
def Chk.mapCount (q : Chk) (reg : RegId) (x : Carrier) (c : Nat) : Nat :=
  (q.keys.filter fun k => k.reg == reg && k.carNo == x.num &&
    bits (q.new k) 15 15 == 1 && bits (q.new k) 9 0 == c).length

/-- Bit range of a symbol rate (R119, R181). -/
def rateOk (kbd : Nat) : Bool := 64000000 ≤ kbd && kbd ≤ 256000000

/-- A register's value breaks a range that a rule gives a commit (reason 4 of R495). -/
def badRange (r : Rd) (k : RegKey) : Bool :=
  let n (f : Fref) := f.at r k.idx
  let z (f : Fref) := f.int r k.idx
  let out (lo v hi : Int) := decide (v < lo ∨ hi < v)
  let c := k.carNo
  match k.reg with
  | .CAR_CDE_GRID => out (-288) (z F.CAR_CDE_GRID_N) 480
  | .CAR_CDE_TRIM => out (-4096) (z F.CAR_CDE_TRIM_TARGET) 4096
  | .CAR_CDE_CTL => n F.CAR_CDE_CTL_SOURCE == 3
  | .CAR_CDE_VALUE => decide (dMax (F.CAR_RXC_RATE_KBD.at r c) < (z F.CAR_CDE_VALUE_D).natAbs + 4096)
  | .CAR_PRESS_CTL => decide (32 < n F.CAR_PRESS_CTL_STEPS)
  | .CAR_RXC_CTL => decide (4 < n F.CAR_RXC_CTL_SC_LOG2) || out 1 (n F.CAR_RXC_CTL_ROLLOFF) 16 ||
      n F.CAR_RXC_CTL_PILOT == 3 || decide (3 < n F.CAR_RXC_CTL_TIM_BW) || out 11 (n F.CAR_RXC_CTL_TAPS) 31 ||
      n F.CAR_RXC_CTL_TAPS % 2 == 0
  | .CAR_RXC_RATE => !rateOk (n F.CAR_RXC_RATE_KBD) ||
      decide (dMax (n F.CAR_RXC_RATE_KBD) < (F.CAR_CDE_VALUE_D.int r c).natAbs + 4096)
  | .CAR_RXC_LLR => n F.CAR_RXC_LLR_STEP == 0
  | .CAR_TX_CTL => decide (4 < n F.CAR_TX_CTL_SC_LOG2) || out 1 (n F.CAR_TX_CTL_ROLLOFF) 16 ||
      n F.CAR_TX_CTL_PILOT == 3 || decide (4 < n F.CAR_TX_CTL_TEST)
  | .CAR_TX_RATE => !rateOk (n F.CAR_TX_RATE_KBD) ||
      (F.CAR_TX_CTL_PRECOMP_EN.on r c &&
        decide (min (3200000 * 1000000 / max 1 (n F.CAR_TX_RATE_KBD)) 25000 < (F.CAR_TX_PRECOMP_D.int r c).natAbs))
  | .CAR_TX_SC => out (-192) (z F.CAR_TX_SC_GAIN) 192
  | .CAR_TX_TACK => out (-3200) (z F.CAR_TX_TACK_LEVEL) (-1600)
  | .CAR_TX_PRECOMP => out (-288) (z F.CAR_TX_PRECOMP_GRID_N) 480 ||
      (F.CAR_TX_CTL_PRECOMP_EN.on r c &&
        decide (min (3200000 * 1000000 / max 1 (F.CAR_TX_RATE_KBD.at r c)) 25000 <
          (z F.CAR_TX_PRECOMP_D).natAbs))
  | .CAR_TX_SKEW => out (-4096) (z F.CAR_TX_SKEW_VALUE) 4096
  | .CAR_TX_LEVEL => out 0 (z F.CAR_TX_LEVEL_BACKOFF) 1280
  | .CAR_TK_TX_CTL => out 12 (n F.CAR_TK_TX_CTL_LIVE_SF) 14 || out 12 (n F.CAR_TK_TX_CTL_ALONE_SF) 20 ||
      n F.CAR_TK_TX_CTL_SYNC % 16 == 0 || n F.CAR_TK_TX_CTL_SYNC / 16 == 0
  | .CAR_TK_RX_CTL => out 12 (n F.CAR_TK_RX_CTL_LIVE_SF) 14 || out 12 (n F.CAR_TK_RX_CTL_ALONE_SF) 20 ||
      n F.CAR_TK_RX_CTL_SYNC % 16 == 0 || n F.CAR_TK_RX_CTL_SYNC / 16 == 0
  | .CAR_CM_CTL => out 10 (n F.CAR_CM_CTL_SPACING_M) 1000 || out 1 (n F.CAR_CM_CTL_INT_S) 3600
  | .CAR_CM_SPANS => decide (256 < n F.CAR_CM_SPANS_COUNT)
  | .CAR_CM_SPAN0 => decide (k.idx % 256 < F.CAR_CM_SPANS_COUNT.at r c) && decide (3 < n F.CAR_CM_SPAN0_FIBRE)
  | .CAR_CM_SPAN1 => decide (k.idx % 256 < F.CAR_CM_SPANS_COUNT.at r c) && out 0 (z F.CAR_CM_SPAN1_LOSS) 3200
  | .CAR_CM_HIST => out (-1) (if n F.CAR_CM_HIST_REGION = 63 then 0 else n F.CAR_CM_HIST_REGION) 31
  | .CLI_CH_CFG => if n F.CLI_CH_CFG_TYPE = 6 then out 1 (n F.CLI_CH_CFG_N) 456 || decide (8 ≤ n F.CLI_CH_CFG_PORT)
      else n F.CLI_CH_CFG_N != 0
  | .SEAM_RGN => (32 ≤ n F.SEAM_RGN_DESKEW && n F.SEAM_RGN_DESKEW < 63) ||
      (32 ≤ n F.SEAM_RGN_FALLBACK && n F.SEAM_RGN_FALLBACK < 63)
  | .CXL_CTL => 32 ≤ n F.CXL_CTL_OVF_REGION && n F.CXL_CTL_OVF_REGION < 63
  | .SEAM_CTL => out 1 (n F.SEAM_CTL_WINDOW_MS) 100
  | .TIM_SLOT_CFG =>
      let v := n F.TIM_SLOT_CFG_SOURCE
      !(v ≤ 4 || (0x10 ≤ v && v ≤ 0x1F) || v == 0x20 || v == 0x21) || decide (8 < n F.TIM_SLOT_CFG_RANK) ||
      (v != 0 && (List.range 8).any fun i => i != k.idx && F.TIM_SLOT_CFG_SOURCE.at r i == v)
  | .TIM_SLOT_NOM =>
      let v := F.TIM_SLOT_CFG_SOURCE.at r k.idx
      1 ≤ v && v ≤ 4 && (if F.TIM_SLOT_CFG_TYPE.on r k.idx then out 1 (n F.TIM_SLOT_NOM_HZ) 8000
        else out 8000 (n F.TIM_SLOT_NOM_HZ) 625000000)
  | .TIM_SLOT_LIM => decide (n F.TIM_SLOT_LIM_HARD_LIM < n F.TIM_SLOT_LIM_SOFT_LIM) ||
      decide (20000 < n F.TIM_SLOT_LIM_HARD_LIM)
  | .TIM_DPLL_CTL => decide (3 < n F.TIM_DPLL_CTL_MODE) || (k.idx == 1 && n F.TIM_DPLL_CTL_BW == 3)
  | .TIM_DPLL_HO => out 1 (n F.TIM_DPLL_HO_WINDOW_S) 3600 ||
      decide (4095 < n F.TIM_DPLL_HO_WINDOW_S + n F.TIM_DPLL_HO_GUARD_S)
  | .TIM_OUT_DIV => if k.idx < 2 then out 2 (n F.TIM_OUT_DIV_VALUE) 16777215
      else out 1000 (n F.TIM_OUT_DIV_VALUE) 4000000000
  | .TIM_OUT_OFS => decide (2 ≤ k.idx ∧ F.TIM_OUT_DIV_VALUE.at r k.idx ≤ n F.TIM_OUT_OFS_NS)
  | .MON_IN_CFG => n F.MON_IN_CFG_REF == 3 ||
      (List.range 16).any fun b => F.MON_BIAS_CTL_LOOP_EN.on r b && F.MON_BIAS_CTL_TAP.at r b == k.idx &&
        (n F.MON_IN_CFG_REPEAT + 1) % (8 * 2 ^ F.MON_BIAS_CTL_DPER.at r b) != 0
  | .MON_CTL => out 4 (n F.MON_CTL_DEC) 14
  | .MON_BIAS_CTL => F.MON_BIAS_CTL_LOOP_EN.on r k.idx &&
      (F.MON_IN_CFG_REPEAT.at r (n F.MON_BIAS_CTL_TAP) + 1) % (8 * 2 ^ n F.MON_BIAS_CTL_DPER) != 0
  | .MON_BIAS_LIM => decide (n F.MON_BIAS_LIM_LIM_HI < n F.MON_BIAS_LIM_LIM_LO)
  | _ => false

/-- Lanes of a port mode (R309). -/
def modeLanes (m : Nat) : Nat := [0, 1, 1, 2, 4, 8, 1, 1, 2].getD m 0

/-- A client port's mode breaks R309: undefined, misaligned, or lanes overlap another port's. -/
def badPort (r : Rd) (p : Nat) : Bool :=
  let m := F.CLI_PORT_CTL_MODE.at r p
  let n := modeLanes m
  decide (8 < m) || (m != 0 && (p % n != 0 || decide (16 < p + n) ||
    (List.range 16).any fun q => q != p && F.CLI_PORT_CTL_MODE.at r q != 0 && decide (p ≤ q ∧ q < p + n)))

/-- Client rate in Gb/s of a channel (R39, R316). -/
def chRate (r : Rd) (c : Nat) : Nat :=
  match F.CLI_CH_CFG_TYPE.at r c with
  | 1 => 100 | 2 => 200 | 3 => 400 | 4 => 800 | 5 => 1600 | 6 => 5 * F.CLI_CH_CFG_N.at r c | _ => 0

/-- Fewest slots of a channel's client (R316). -/
def minSlots (r : Rd) (c : Nat) : Nat :=
  match F.CLI_CH_CFG_TYPE.at r c with
  | 1 => 20 | 2 => 39 | 3 => 77 | 4 => 154 | 5 => 307 | 6 => F.CLI_CH_CFG_N.at r c | _ => 0

/-- Slots a channel has in all (R316): the sum when bonded, else the larger count. -/
def allSlots (r : Rd) (c : Nat) : Nat :=
  match placeOf r c with
  | .bonded => slotsOf r c .A + slotsOf r c .B
  | _ => max (slotsOf r c .A) (slotsOf r c .B)

/-- Client source of a channel: type, port or group, and calendar client. -/
def chSource (r : Rd) (c : Nat) : Nat × Nat × Nat × Nat :=
  (F.CLI_CH_CFG_TYPE.at r c, F.CLI_CH_CFG_PORT.at r c, F.CLI_CH_CFG_N.at r c,
    if F.CLI_CH_CFG_TYPE.at r c = 6 then F.CLI_CH_FLX_CLIENT.at r c else 0)

/-- A channel's settings break R313, R315 or R328; `shed` lists the channels that plans have shed. -/
def Chk.badChan (q : Chk) (chs shed : List Nat) (c : Nat) : Option RegId :=
  let r := q.new
  let en := F.CLI_CH_CFG_EN.on r c
  let t := F.CLI_CH_CFG_TYPE.at r c
  let p := placeOf r c
  let port (d : Nat) := if t = 6 then F.CLI_CH_CFG_PORT.at r d % 8 else F.CLI_CH_CFG_PORT.at r d
  let other (d : Nat) := d != c && F.CLI_CH_CFG_EN.on r d && F.CLI_CH_CFG_TYPE.at r d == t && port d == port c
  if t = 7 ∨ (F.CLI_CH_CFG_EN.on q.old c && chSource r c != chSource q.old c) then some .CLI_CH_CFG
  else if 1 ≤ t && t ≤ 5 && (F.CLI_PORT_CTL_MODE.at r (F.CLI_CH_CFG_PORT.at r c) != t || (en && chs.any other)) then
    some .CLI_CH_CFG
  else if en && t == 6 && chs.any (fun d => other d && F.CLI_CH_FLX_CLIENT.at r d == F.CLI_CH_FLX_CLIENT.at r c) then
    some .CLI_CH_CFG
  else if shed.contains c then none
  else if en && t != 0 && p == .none then some .CLI_CH_CFG
  else if p == .prot && slotsOf r c .A != slotsOf r c .B then some .CLI_CH_SLOTS
  else if en && p != .none && decide (allSlots r c < minSlots r c) then some .CLI_CH_SLOTS
  else if t == 6 && p == .bonded && decide (F.CLI_CH_CFG_N.at r c < 2) then some .CLI_CH_SLOTS
  else if [Carrier.A, Carrier.B].any (fun x => q.mapCount .CAR_TR_SLOT_TX x c != slotsOf r c x ||
      q.mapCount .CAR_TR_SLOT_RX x c != slotsOf r c x) then some .CLI_CH_SLOTS
  else none

/-- The channels that a channel or slot register of the tables names. -/
def Chk.chans (q : Chk) : List Nat :=
  q.keys.foldl (fun l k => match k.reg with
    | .CLI_CH_CFG | .CLI_CH_SLOTS => insSorted k.idx l
    | .CAR_TR_SLOT_TX | .CAR_TR_SLOT_RX => if bits (q.new k) 15 15 = 1 then insSorted (bits (q.new k) 9 0) l else l
    | _ => l) []

/-- Region registers that name a user (R456). -/
def rgnUsers : List (Fref × Nat) :=
  [(F.SEAM_RGN_DESKEW, 0), (F.SEAM_RGN_FALLBACK, 0), (F.CAR_CM_HIST_REGION, 0), (F.CAR_CM_HIST_REGION, 1),
   (F.CXL_CTL_OVF_REGION, 0)]

/-- A region is named by a user. -/
def rgnNamed (r : Rd) (g : Nat) : Bool := rgnUsers.any fun u => u.1.at r u.2 == g

/-- Units of 2 MiB that a region takes on port `p`, from where: (base, length), length 0 for none (R455). -/
def rgnSpan (r : Rd) (g p : Nat) : Nat × Nat :=
  let m := F.CXL_RGN_CTL_MODE.at r g
  let z := F.CXL_RGN_SIZE_SIZE.at r g
  (F.CXL_RGN_CTL_BASE.at r g,
    if !F.CXL_RGN_CTL_VALID.on r g then 0 else if m = 2 then z / 2 else if m = p then z else 0)

/-- A region breaks R455; `cap` is the capacity used of a port in GiB. -/
def badRgn (old new : Rd) (cap : Nat → Nat) (g : Nat) : Option RegId :=
  let m := F.CXL_RGN_CTL_MODE.at new g
  let z := F.CXL_RGN_SIZE_SIZE.at new g
  if rgnNamed old g && rgnNamed new g && (old ⟨.CXL_RGN_CTL, g⟩ != new ⟨.CXL_RGN_CTL, g⟩ ||
      old ⟨.CXL_RGN_SIZE, g⟩ != new ⟨.CXL_RGN_SIZE, g⟩) then some .CXL_RGN_CTL
  else if !F.CXL_RGN_CTL_VALID.on new g then none
  else if m = 3 then some .CXL_RGN_CTL
  else if z = 0 ∨ (m = 2 ∧ z % 2 = 1) then some .CXL_RGN_SIZE
  else if [0, 1].any (fun p =>
      let a := rgnSpan new g p
      a.2 != 0 && (decide (cap p * 512 < a.1 + a.2) || (List.range 32).any fun h =>
        let b := rgnSpan new h p
        h != g && b.2 != 0 && decide (a.1 < b.1 + b.2 ∧ b.1 < a.1 + a.2))) then some .CXL_RGN_CTL
  else none

/-- Bytes of a channel's area in a deskew record, and the record and ring sizes (R288). -/
def deskewBytes (window : Nat) (slots : List Nat) : Nat :=
  (6250 * window + 256) * slots.foldl (fun a n => a + 64 * ((105 * n + 63) / 64)) 192

/-- Deskewed slots of a channel: all when bonded, one copy when protected (R289). -/
def deskewSlots (r : Rd) (c : Nat) : Nat :=
  match placeOf r c with
  | .bonded => slotsOf r c .A + slotsOf r c .B
  | .prot => slotsOf r c .A
  | _ => 0

/-- A port is up and not degraded (R450). -/
def CxlPort.full (p : CxlPort) : Bool := p.up && p.width == 16 && p.rate == 4

/-- Deskew capacity in slots of a region (R289): a degraded port counts as down (R450). -/
def State.deskewCap (s : State) (r : Rd) (g : Nat) : Nat :=
  let up (p : Nat) := (agetD s.cxl.ports p cxlPortReset).full
  if 32 ≤ g ∨ !F.CXL_RGN_CTL_VALID.on r g then 0
  else if F.CXL_RGN_CTL_MODE.at r g = 2 then if up 0 && up 1 then 304 else if up 0 || up 1 then 152 else 0
  else if up (F.CXL_RGN_CTL_MODE.at r g) then 152 else 0

/-- The active transmit record of a carrier, as epoch 0's follows the settings (R206, R208). -/
def State.txRecord (s : State) (r : Rd) (x : Carrier) : Bytes :=
  if recEpoch (s.car x).plan.txRec = 0 then
    epoch0 (F.CAR_TX_CTL_PILOT.at r x.num) (F.CAR_TX_CTL_SC_LOG2.at r x.num) (F.CAR_TX_RATE_KBD.at r x.num)
  else (s.car x).plan.txRec

/-- The active receive record of a carrier. -/
def State.rxRecord (s : State) (r : Rd) (x : Carrier) : Bytes :=
  if recEpoch (s.car x).plan.rxRec = 0 then
    epoch0 (F.CAR_RXC_CTL_PILOT.at r x.num) (F.CAR_RXC_CTL_SC_LOG2.at r x.num) (F.CAR_RXC_RATE_KBD.at r x.num)
  else (s.car x).plan.rxRec

/-- Largest k of the settings a commit would leave on a carrier's transmit side (R205, R229). -/
def txCapacity (r : Rd) (x : Carrier) : Nat :=
  let sc := F.CAR_TX_CTL_SC_LOG2.at r x.num
  slotsK (F.CAR_FEC_TX_RATE.at r x.num) (payloadP sc (F.CAR_TX_CTL_PILOT.at r x.num))
    ((List.range (2 ^ sc)).map fun i => bandB (F.CAR_TX_SC_E.at r (carIdx .CAR_TX_SC x i))) (F.CAR_TX_RATE_KBD.at r x.num)

/-- The offset code of a failing register in RESULT (R495). -/
def rejCode (reason : Nat) (k : RegKey) : Nat := reason * 2 ^ 24 + k.off / 4

/-- The lowest failing register of a list. -/
def rejLowest (reason : Nat) (l : List RegKey) : Option Nat :=
  l.foldl (fun a k => match a with
    | none => some (rejCode reason k)
    | some v => some (min v (rejCode reason k))) none

/-- Invalid values (reason 4) in the scopes of a commit. -/
def State.chkInvalid (s : State) (q : Chk) (scopes : List Nat) : Option Nat :=
  let noms := q.keys.filterMap fun k => match k.reg with   -- R380: also a slot whose NOM no table lists
    | .TIM_SLOT_CFG => some (⟨.TIM_SLOT_NOM, k.idx⟩ : RegKey)
    | _ => none
  let mine := (q.keys ++ noms).filter fun k => scopeMask k scopes != 0
  let ports := if scopes.contains 4 then
    ((List.range 16).filter (badPort q.new)).map fun p => (⟨.CLI_PORT_CTL, p⟩ : RegKey) else []
  let chs := q.chans
  let shed := chs.filter fun c => q.exempt.contains c || (s.chan c).shed ||
    [Carrier.A, Carrier.B].any fun x => (s.car x).plan.shedList.any (·.ch == c)
  let chans := if scopes.any (· < 6) then
    chs.filterMap fun c => (q.badChan chs shed c).map fun i => (⟨i, c⟩ : RegKey) else []
  let users := if scopes.any (fun n => n = 1 || n = 3 || n = 5 || n = 8) then
    (rgnUsers.filter fun u => u.1.at q.new u.2 < 32 &&
      rgnUsers.any fun w => w != u && w.1.at q.new w.2 == u.1.at q.new u.2).map fun u => (⟨u.1.reg, u.2⟩ : RegKey) else []
  let rgns := if scopes.contains 8 then
    (List.range 32).filterMap fun g =>
      (badRgn q.old q.new (fun p => (agetD s.cxl.ports p cxlPortReset).cap) g).map fun i => (⟨i, g⟩ : RegKey) else []
  rejLowest 4 (mine.filter (badRange q.new) ++ ports ++ chans ++ users ++ rgns)

/-- Slots in use at or above `k` in a map (R236). -/
def Chk.mapOver (q : Chk) (reg : RegId) (x : Carrier) (k : Nat) : List RegKey :=
  q.keys.filter fun e => e.reg == reg && e.carNo == x.num && bits (q.new e) 15 15 == 1 &&
    decide (k ≤ e.idx % 456)

/-- Placements or Seam settings change (R289). -/
def Chk.deskewChange (q : Chk) : Bool :=
  q.keys.any fun k => (k.reg == .CLI_CH_SLOTS || k.reg == .SEAM_CTL || k.reg == .SEAM_RGN || k.reg == .SEAM_GRP_CTL ||
    k.reg == .SEAM_CH_CFG) && q.old k != q.new k

/-- STEPS of a carrier as a commit leaves them (R94): of a scope that it does not name, the larger of the active value and
the one that a pending commit holds (DESIGN CHOICE, log 58). -/
def State.stepsAfter (s : State) (r : Rd) (on : Nat → Bool) (c : Nat) : Nat :=
  let now := F.CAR_PRESS_CTL_STEPS.at r c
  if on (2 * c + 1) then now else s.regs.pend.foldl (fun a p => match aget p.vals ⟨.CAR_PRESS_CTL, c⟩ with
    | some (w, m) => max a (F.CAR_PRESS_CTL_STEPS.at (fun k => merge (r k) w m) c)
    | none => a) now

/-- Capacities (reason 5): R94, R229, R236, R289 and R39. -/
def State.chkCapacity (s : State) (q : Chk) (scopes : List Nat) : Option Nat :=
  let r := q.new
  let on (n : Nat) := scopes.contains n
  let steps := s.stepsAfter r on 0 + s.stepsAfter r on 1
  let press := if decide (48 < steps + s.retired.length) then
    ([1, 3].filter fun n => on n && F.CAR_PRESS_CTL_STEPS.at r (n / 2) != F.CAR_PRESS_CTL_STEPS.at q.old (n / 2)).map
      fun n => (⟨.CAR_PRESS_CTL, n / 2⟩ : RegKey) else []
  let fill := ([(0, Carrier.A, q.kTxA), (2, Carrier.B, q.kTxB)].filter fun t => on t.1 &&
    decide (txCapacity r t.2.1 < t.2.2)).map fun t => (⟨.CAR_TX_RATE, t.2.1.num⟩ : RegKey)
  let maps := (if on 0 then q.mapOver .CAR_TR_SLOT_TX .A q.kTxA else []) ++
    (if on 1 then q.mapOver .CAR_TR_SLOT_RX .A q.kRxA else []) ++
    (if on 2 then q.mapOver .CAR_TR_SLOT_TX .B q.kTxB else []) ++
    (if on 3 then q.mapOver .CAR_TR_SLOT_RX .B q.kRxB else [])
  let ds := (q.chans.map fun c => (c, deskewSlots r c)).filter fun t => t.2 != 0
  let load := sumN (ds.map (·.2))
  let g := F.SEAM_RGN_DESKEW.at r 0
  let seam : List RegKey := if !((on 0 || on 2 || on 5) && q.deskewChange) || ds.isEmpty then []
    else if s.deskewCap r g < load then [⟨.CLI_CH_SLOTS, (ds.map (·.1)).foldl min 1023⟩]
    else if (agetD s.cxl.rgns g rgnReset).st != .ready ||
        decide (F.CXL_RGN_SIZE_SIZE.at r g * 2097152 < deskewBytes (F.SEAM_CTL_WINDOW_MS.at r 0) (ds.map (·.2))) then
      [⟨.SEAM_RGN, 0⟩]
    else []
  let en := q.chans.filter fun c => F.CLI_CH_CFG_EN.on r c
  let cli : List RegKey := if on 4 && decide (3200 < sumN (en.map (chRate r))) then
    [⟨.CLI_CH_CFG, en.headD 0⟩] else []
  rejLowest 5 (press ++ fill ++ maps ++ seam ++ cli)

/-! ### Acceptance (R21, R27 to R29, R219, R477) -/

/-- The values that a commit of `scopes` takes from staging. -/
def State.takeVals (s : State) (scopes : List Nat) : Tab RegKey (Word × Word) :=
  s.regs.staged.filterMap fun e =>
    let m := e.2.2 &&& scopeMask e.1 scopes
    if m = 0 then none else some (e.1, (e.2.1, m))

/-- Staging copies without what those scopes took. -/
def State.dropStaged (s : State) (scopes : List Nat) : Tab RegKey (Word × Word) :=
  s.regs.staged.filterMap fun e =>
    let m := e.2.2 &&& ~~~(scopeMask e.1 scopes)
    if m = 0 then none else some (e.1, (e.2.1, m))

/-- A table of values laid over another. -/
def overVals (a b : Tab RegKey (Word × Word)) : Tab RegKey (Word × Word) :=
  b.foldl (fun t e =>
    let o := agetD t e.1 (0, 0)
    aset t e.1 (merge o.1 e.2.1 e.2.2, o.2 ||| e.2.2)) a

/-- A reader with a table of values laid over it. -/
def overRd (r : Rd) (v : Tab RegKey (Word × Word)) : Rd := fun k =>
  match aget v k with
  | some (w, m) => merge (r k) w m
  | none => r k

/-- The count in force for a scope's target (R25, R29). -/
def State.scopeCount (s : State) (n : Nat) : Nat :=
  match n with
  | 1 => s.carA.tr.mfc
  | 3 => s.carB.tr.mfc
  | _ => s.sys.txMfc

/-- A boundary kind a scope accepts (R23). -/
def scopeKind (k : BKind) (n : Nat) : Bool :=
  if n < 4 then true else if n = 5 then k == .mf else k == .tf

/-- A field of a register that needs a multiframe boundary. -/
def mfMask (k : RegKey) (scopes : List Nat) : Word :=
  fldMask k.reg (fun f => match f.stg with
    | some (.mf, sel) => scopes.contains (scopeOf k sel)
    | _ => false)

/-- Fields that change only through a loading plan (R177, R187). -/
def planMask (reg : RegId) : Word :=
  match reg with
  | .CAR_FEC_CTL | .CAR_FEC_TX => maskOf 2 0
  | .CAR_TX_SC => maskOf 8 0
  | _ => 0

/-- Why a commit is rejected, as RESULT, if it is; `plan` values are laid over staging for a loading plan, with its
slot counts. -/
def State.rejects (s : State) (scopes : List Nat) (kind : BKind) (target : Option Nat)
    (plan : Option (Tab RegKey (Word × Word) × Chk)) : Option Nat :=
  if !scopes.all (scopeKind kind) then some (2 ^ 24)
  else if scopes.any s.pending? then some (2 * 2 ^ 24)
  else if (match target with
      | some t => scopes.any fun n => decide (t ≤ s.scopeCount n ∨ s.scopeCount n + 65536 < t)
      | none => false) then some (3 * 2 ^ 24)
  else
    let q : Chk := match plan with
      | some p => p.2
      | none =>
        let r := s.rdAfter scopes
        ⟨s.rd, r, dedupKeys (s.regs.active.map (·.1) ++ s.regs.staged.map (·.1)),
          recSlots (s.txRecord r .A), recSlots (s.txRecord r .B), recSlots (s.rxRecord r .A), recSlots (s.rxRecord r .B),
          []⟩
    let changed (k : RegKey) (m : Word) := (q.old k ^^^ q.new k) &&& m != 0
    let owned := if plan.isSome then none else
      rejLowest 6 (q.keys.filter fun k => changed k (planMask k.reg &&& scopeMask k scopes))
    if kind != .mf && q.keys.any (fun k => changed k (mfMask k scopes)) then some (2 ^ 24)
    else match owned with
      | some v => some v
      | none => match s.chkInvalid q scopes with
        | some v => some v
        | none => s.chkCapacity q scopes

/-- Accept a commit: its values leave staging and wait for their boundaries (R21). -/
def State.pend (s : State) (scopes : List Nat) (kind : BKind) (target : Option Nat)
    (vals : Tab RegKey (Word × Word)) (plan : Option (Carrier × Side × Nat)) : State :=
  let v := overVals (s.takeVals scopes) vals
  { s with regs := { s.regs with
      staged := s.dropStaged scopes
      pend := s.regs.pend ++ [⟨scopes, kind, target, v, plan⟩] } }

/-- Scopes of a mask. -/
def maskScopes (m : Nat) : List Nat := (List.range 9).filter (bit m)

/-- The mask of scopes. -/
def scopesMask (l : List Nat) : Nat := l.foldl (fun a n => a ||| 2 ^ n) 0

/-- The proposer's epoch in flight on a carrier (R219): from a PROPOSE until the plan applies, fails, is rejected or is
aborted; a cold plan too, until it applies. -/
def Plan.inFlight (p : Plan) : Option Nat :=
  (p.prop.map recEpoch).or ((p.rxPend.map (recEpoch ·.body)).or ((p.recov.map (recEpoch ·.next.body)).or
    (p.cold.map (recEpoch ·.body))))

/-- Kind of a boundary code (R494). -/
def kindOf (n : Nat) : BKind :=
  match n with
  | 1 => .sf
  | 2 => .tf
  | _ => .mf

/-- Code of a boundary kind. -/
def BKind.code (k : BKind) : Nat :=
  match k with
  | .sf => 1
  | .tf => 2
  | .mf => 3

/-- Status, result and effect of a COMMIT descriptor. -/
def State.commitCmd (s : State) (d : Bytes) : Nat × Nat × (State → State) :=
  let scopes := maskScopes (leAt d 16 2)
  let kind := kindOf (byteAt d 18)
  let target := if bit (byteAt d 19) 0 then some (leAt d 20 7) else none
  let busy := ([(1, s.carA.plan), (3, s.carB.plan)].filter fun t => scopes.contains t.1).findSome? fun t => t.2.inFlight
  match busy with
  | some e => stop 8 e
  | none =>
    match s.rejects scopes kind target none with
    | some v => stop 1 v
    | none => (0, target.getD 0 % 2 ^ 32, fun s => s.pend scopes kind target [] none)

/-- COMMIT (R21, R477). -/
def execCommit (fn : Fn) (r : Nat) (s : State) : Host.Outcome State Fault Refusal :=
  command fn r 0x0101 s fun d _ s => s.commitCmd d

/-! ### Profiles (R40, R41) -/

/-- STEPS, pilot code, margin, MAX_PASS code and crease bin spacing of a profile. -/
def profile (p : Nat) : Nat × Nat × Nat × Nat × Nat :=
  match p with
  | 0 => (0, 2, 64, 7, 25)
  | 1 => (19, 1, 64, 15, 25)
  | _ => (24, 0, 96, 15, 50)

/-- Stage a value of a carrier register's field. -/
def State.stagex (s : State) (f : Fref) (x : Carrier) (v : Nat) : State :=
  s.stage ⟨f.reg, carIdx f.reg x 0⟩ (BitVec.ofNat 32 (v * 2 ^ f.lo)) (maskOf f.hi f.lo)

/-- Load a profile into a carrier's staging copies. -/
def State.loadProfile (s : State) (x : Carrier) (p : Nat) : State :=
  let v := profile p
  let s := s.stagex F.CAR_PRESS_CTL_STEPS x v.1
  let s := s.stagex F.CAR_RXC_CTL_PILOT x v.2.1
  let s := s.stagex F.CAR_TX_CTL_PILOT x v.2.1
  let s := s.stagex F.CAR_FEC_CTL_MAX_PASS x v.2.2.2.1
  let s := s.stagex F.CAR_CM_CTL_SPACING_M x v.2.2.2.2
  s.setFieldx F.CAR_PLAN_PARAM_MARGIN x 0 v.2.2.1

/-- PROFILE_LOAD (R40, R41). -/
def execProfileLoad (fn : Fn) (r : Nat) (s : State) : Host.Outcome State Fault Refusal :=
  command fn r 0x0103 s fun d _ s =>
    let p := byteAt d 16
    let on (x : Carrier) := bit (byteAt d 17) x.num
    let steps (x : Carrier) := if on x then (profile p).1 else
      F.CAR_PRESS_CTL_STEPS.at s.stagedWord (carIdx .CAR_PRESS_CTL x 0)
    if 48 < steps .A + steps .B + s.retired.length then stop 11 1
    else (0, 0, fun s =>
      let s := if on .A then s.loadProfile .A p else s
      if on .B then s.loadProfile .B p else s)

end Sys2Proof.Machine
end

