-- ==== Sys2Proof/Machine/Monitor.lean ====
section
/-! DEFINITION. The monitor converter and the bias loops (R403 to R419). -/

namespace Sys2Proof.Machine

/-- Quotient rounded to nearest, halves toward +∞ (R405). `d` positive. -/
def roundUp (n : Int) (d : Nat) : Int := (2 * n + d) / (2 * d : Nat)

/-- Limits of a 24-bit word. -/
def sat24 (v : Int) : Int := clampI (-8388608) 8388607 v

/-- A bias DAC's loop. -/
def State.bias (s : State) (b : Nat) : Bias := agetD s.mon.bias b biasReset
/-- Change it. -/
def State.modBias (s : State) (b : Nat) (f : Bias → Bias) : State :=
  s.modMon fun m => { m with bias := aset m.bias b (f (s.bias b)) }

/-- R of R405. -/
def State.monR (s : State) : Nat := 2 ^ s.cf F.MON_CTL_DEC 0

/-- The settled flag of an input's reference (R404). -/
def State.refSet (s : State) (n : Nat) : Bool :=
  match s.cf F.MON_IN_CFG_REF n with
  | 0 => s.mon.intSet
  | 1 => s.mon.extSet
  | _ => s.mon.supSet

/-- A pass of a calibration instance runs. -/
def State.calPass (s : State) (i : Nat) : Bool :=
  match (agetD s.cal i calReset).st with
  | .pass1 | .pass2 => true
  | _ => false

/-- Valid words a conversion takes (R408, R414, R421). -/
def State.convRepeat (s : State) (c : Conv) : Nat :=
  if c.check then 1 else if c.cal && c.input == 31 && s.calPass 6 then 256 else s.cf F.MON_IN_CFG_REPEAT c.input + 1

/-- Start a conversion. -/
def State.convStart (s : State) (n : Nat) (scan urgent restart check cal : Bool) : State :=
  s.modMon fun m => { m with
    conv := some ⟨n, scan, urgent, restart, check, cal, 0, [], false, false, !s.refSet n⟩, abort := false }

/-! ### The scan -/

/-- The first enabled input from `n` on. -/
def State.scanFrom (s : State) (n : Nat) : Option Nat :=
  (List.range 32).find? fun i => n ≤ i && s.cf F.MON_IN_CFG_EN i == 1

/-- Where the scan goes after a conversion of input `n` that was a check or not (R408): the next input, whether it is a
check, and whether a scan is complete. -/
def State.scanNext (s : State) (n : Nat) (check : Bool) : Option (Nat × Bool) × Bool :=
  if s.cf F.MON_CTL_EN 0 = 0 then (none, false)
  else if !check && s.cf F.MON_IN_CFG_OW_MODE n == 0 && s.mon.scans % max 1 (s.cf F.MON_CTL_OW_SCANS 0) == 0 then
    (some (n, true), false)
  else match s.scanFrom (n + 1) with
    | some i => (some (i, false), false)
    | none => ((s.scanFrom 0).map fun i => (i, false), true)

/-- A calibration run's next conversion, if one of the monitor or bias instances is in a pass (R422). -/
def State.calConv (s : State) : Option Nat :=
  if s.calPass 6 then some 31
  else ((List.range 16).find? fun b => s.calPass (8 + b)).map fun b => s.cf F.MON_BIAS_CTL_TAP b

/-- Keep a calibration run's request in the queue while it measures. -/
def State.calRequest (s : State) : State :=
  match s.calConv with
  | none => s
  | some n => if s.mon.urg.any (·.2) || decide (4 ≤ s.mon.urg.length) then s else
    s.modMon fun m => { m with urg := m.urg ++ [(n, true)] }

/-- Start the next conversion: urgent requests in order, then the scan where it stands (R408, R411). -/
def State.convNext (s : State) : State :=
  let s := s.calRequest
  match s.mon.urg with
  | (n, cal) :: r => (s.modMon fun m => { m with urg := r }).convStart n false true false false cal
  | [] =>
    match s.mon.after with
    | some (n, re, u, ck) => (s.modMon fun m => { m with after := none }).convStart n true u re ck false
    | none => s.modMon fun m => { m with conv := none, abort := false }

/-! ### Words -/

/-- A 32-bit stage result and whether it saturated (R405). -/
def sat32 (v : Int) : Int × Bool := let r := clampI (-2147483648) 2147483647 v; (r, r != v)

/-- One modulator bit into the integrators of the sinc⁴. -/
def cicIn (l : List (BitVec 64)) (b : Bool) : List (BitVec 64) :=
  (l.foldl (fun (a : List (BitVec 64) × BitVec 64) v => let n := v + a.2; (a.1 ++ [n], n))
    ([], if b then 1 else -1)).1

/-- A decimated sample through the combs. -/
def cicOut (l : List (BitVec 64)) (x : BitVec 64) : List (BitVec 64) × BitVec 64 :=
  l.foldl (fun (a : List (BitVec 64) × BitVec 64) v => (a.1 ++ [a.2], a.2 - v)) ([], x)

/-- R bits into the sinc⁴: its output, normalised and shifted (R405). -/
def MonChain.sinc (m : MonChain) (k sh : Nat) (b : List Bool) : MonChain × Int × Bool :=
  let ints := b.foldl cicIn m.ints
  let c := cicOut m.combs (ints.getD 3 0)
  ({ m with ints := ints, combs := c.1 }, sat32 (roundUp (c.2.toInt * 2 ^ 20) (2 ^ (4 * k + sh))))

/-- The output of a stage of `n` taps over its last inputs, newest first (R405). -/
def monTaps (h : Nat → Int) (n sh : Nat) (l : List Int) : Int × Bool :=
  sat32 (roundUp (((l.take n).zipIdx.map fun e => e.1 * h e.2).foldr (· + ·) 0) (2 ^ (96 + sh)))

/-- A word period of bitstream through stages 1 to 3 of R405: the third stage's output and whether a stage saturated. -/
def MonChain.run (m : MonChain) (k sinc hb fir : Nat) (b : List Bool) : MonChain × Int × Bool :=
  let r := 2 ^ k
  let two (m : MonChain) (b : List Bool) : MonChain × Bool :=
    let p := m.sinc k sinc (b.take r)
    let q := p.1.sinc k sinc ((b.drop r).take r)
    let l := ([q.2.1, p.2.1] ++ m.hb).take 19
    let y := monTaps Sys2Proof.Config.monHb 19 hb l
    ({ q.1 with hb := l, fir := (y.1 :: m.fir).take 63 }, p.2.2 || q.2.2 || y.2)
  let p := two m b
  let q := two p.1 (b.drop (2 * r))
  let y := monTaps Sys2Proof.Config.monFir 63 fir q.1.fir
  (q.1, y.1, p.2 || q.2 || y.2)

/-- Whether the modulator was overloaded in a word period (R405). -/
def MonWord.overload : MonWord → Bool
  | .stage3 _ o _ => o
  | .stream _ o => o

/-- What a word period brings at the third stage's output: word, overload, saturation (R405). -/
def State.monStages (s : State) (w : MonWord) : State × Int × Bool × Bool :=
  match w with
  | .stage3 raw overload sat => (s, raw, overload, sat)
  | .stream b overload =>
    let r := s.mon.chain.run (s.cf F.MON_CTL_DEC 0) (s.cf F.MON_CTL_SH_SINC 0) (s.cf F.MON_CTL_SH_HB 0)
      (s.cf F.MON_CTL_SH_FIR 0) b
    (s.modMon fun m => { m with chain := r.1 }, r.2.1, overload, r.2.2)

/-- A conversion of the monitor calibration (R422). -/
def State.calMon (s : State) (c : Conv) : Bool := c.cal && c.input == 31 && s.calPass 6

/-- That of its internal short: the pass converts the short, then input 31 (R422). -/
def State.calShort (s : State) (c : Conv) : Bool := s.calMon c && (agetD s.cal 6 calReset).got.length % 2 == 0

/-- A word at stages 4 and 5 of R405 and R407, before over-range: calibrated word x, then less the DC estimate. -/
def State.calWord (s : State) (c : Conv) (raw : Int) : Int :=
  if s.calMon c then raw
  else roundUp ((raw - F.MON_CAL_OFS_VALUE.int s.rd 0) * (s.cf F.MON_CAL_GAIN_VALUE 0 : Nat)) (2 ^ 22)

/-- DC estimate of an input (R407). -/
def State.dcb (s : State) (n : Nat) : Int := agetD s.mon.dcb n 0

/-- Deliver a word to the running conversion (R407, R409, R413): third-stage output, modulator overload, saturation of a
stage before. -/
def State.convWord (s : State) (c : Conv) (raw : Int) (overload sat : Bool) : State :=
  let en := s.cf F.MON_IN_CFG_DCB_EN c.input == 1
  let x := s.calWord c raw
  let y := if en then x - s.dcb c.input else x
  let ovr := overload || sat || sat24 x != x || sat24 y != y
  let hi := ovr && decide (0 ≤ raw)
  let v := if ovr then (if hi then 8388607 else -8388608) else y
  let n := c.words + 1
  let set := s.refSet c.input
  let valid := decide (36 < n) && set && !c.unset
  let take := valid && decide (c.vals.length < s.convRepeat c)
  let c' := { c with
    words := if overload then 0 else n
    vals := if take then c.vals ++ [(v, s.mon.words)] else c.vals
    ovrHi := c.ovrHi || hi, ovrLo := c.ovrLo || (ovr && !hi)
    unset := c.unset || !set }
  let k := max 4 (min 20 (s.cf F.MON_IN_CFG_DCB_K c.input))
  let e := s.dcb c.input
  s.modMon fun m => { m with
    conv := some c'
    dcb := if valid && !ovr && s.cf F.MON_IN_CFG_DCB_FRZ c.input == 0 then
      aset m.dcb c.input (sat24 (roundUp (e * 2 ^ k + (x - e)) (2 ^ k))) else m.dcb }

/-- MONITOR_WORD_BOUNDARY (R405 to R416): the decimation chain delivers a word. A conversion starts where
none runs; a waiting abort takes place. -/
def execMonitorWordBoundary (w : MonWord) (s : State) : Host.Outcome State Fault Refusal := live s fun s =>
  let q := s.monStages w
  let s := q.1.modMon fun m => { m with words := m.words + 1 }
  match s.mon.conv with
  | none =>
    let s := if s.mon.after.isNone ∧ s.cf F.MON_CTL_EN 0 = 1 then
        s.modMon fun m => { m with after := (s.scanFrom 0).map fun i => (i, false, false, false) } else s
    s.convNext
  | some c =>
    let s := s.convWord c q.2.1 q.2.2.1 q.2.2.2
    if s.mon.abort ∧ c.scan then
      (s.modMon fun m => { m with
        after := some (c.input, true, c.urgent, c.check), aborts := m.aborts + 1, abort := false }).convNext
    else s

/-! ### Bias loops -/

/-- Word p of the dither of DAC `b` at word count `w` (R416). -/
def State.dithP (s : State) (b w : Nat) : Nat := (w + 64 * 64 - (s.bias b).dith0 % 64) % (8 * 2 ^ s.cf F.MON_BIAS_CTL_DPER b)

/-- Limits of BIAS_VAL (R415). -/
def State.biasLim (s : State) (b : Nat) : Int × Int :=
  ((s.cf F.MON_BIAS_LIM_LIM_LO b * 16 : Nat), (s.cf F.MON_BIAS_LIM_LIM_HI b * 16 + 15 : Nat))

/-- The code that the DAC holds: BIAS_VAL, or, while a calibration sweeps it, the step that it converts next (R422). -/
def State.biasHeld (s : State) (b : Nat) : Int :=
  if s.calPass (8 + b) then
    let l := s.biasLim b
    l.1 + roundDiv ((l.2 - l.1) * min 63 (agetD s.cal (8 + b) calReset).got.length) 63
  else ((s.bias b).val : Nat)

/-- The DAC's output code (R415, R416), none while it drives 0 V. -/
def State.biasOut (s : State) (b : Nat) : Option Nat :=
  let v := s.biasHeld b
  let d := 8 * 2 ^ s.cf F.MON_BIAS_CTL_DPER b
  if s.cf F.MON_BIAS_CTL_DAC_EN b = 0 then none
  else if s.cf F.MON_BIAS_CTL_AMP b = 0 then some v.toNat
  else some (clampI 0 1048575 (v + fround (fsinTurn (s.dithP b s.mon.words) d) (s.cf F.MON_BIAS_CTL_AMP b))).toNat

/-- I and Q of a tap conversion at harmonic `h`, times 2 / count, in fixed point (R417). -/
def State.demod (s : State) (b h : Nat) (vals : List (Int × Nat)) : Int × Int :=
  let r := s.monR
  let d := 8 * 2 ^ s.cf F.MON_BIAS_CTL_DPER b
  let adj := F.MON_BIAS_STEP_PHASE_ADJ.int s.rd b
  let turn (w : Nat) : Int := h * (256 * r * s.dithP b w - 64 * (73 * r - 2) - r * adj)
  let den := 256 * r * d
  let i := vals.foldl (fun a v => a + v.1 * fcosTurn (turn v.2) den) 0
  let q := vals.foldl (fun a v => a + v.1 * fsinTurn (turn v.2) den) 0
  (2 * i / max 1 vals.length, 2 * q / max 1 vals.length)

/-- Magnitude of a demodulated pair. -/
def magOf (p : Int × Int) : Int := fsqrt (fmul p.1 p.1 + fmul p.2 p.2)

/-- A calibration ramp of DAC `b` runs (R418, R428). -/
def State.biasRamps (s : State) (b : Nat) : Bool := (agetD s.cal (8 + b) calReset).st == .ramp

/-- A step of a bias loop, held within the limits (R417, R418). -/
def State.biasStep (s : State) (b : Nat) (step : Int) : State :=
  let l := s.biasLim b
  let new := clampI l.1 l.2 ((s.bias b).val + step)
  let s := s.modBias b fun q => { q with val := new.toNat, hold := false }
  if step = 0 then s else s.defect (new == l.1 || new == l.2) 0x0F05 0 b

/-- The update of one loop from a conversion of its tap (R417, R418). -/
def State.biasUpdate (s : State) (c : Conv) (b : Nat) : State :=
  if s.cf F.MON_BIAS_CTL_LOOP_EN b = 0 ∨ s.cf F.MON_BIAS_CTL_TAP b ≠ c.input then s
  else if c.vals = [] ∨ c.ovrHi ∨ c.ovrLo then s.modBias b fun q => { q with hold := true }
  else
    let h := s.cf F.MON_BIAS_CTL_H b + 1
    let i := (s.demod b h c.vals).1
    let mag := magOf (s.demod b (3 - h) c.vals)
    let weak := decide (mag < (s.cf F.MON_BIAS_THR_DITH_MIN b : Int) * fone)
    let dem : Nat := usg 16 (fround i / 256) * 65536 + usg 16 (fround mag / 256)
    let s := s.modBias b fun q => { q with
      dem := BitVec.ofNat 32 dem, weakN := if weak then q.weakN + 1 else 0, okN := if weak then 0 else q.okN + 1 }
    let s := if weak && decide (4 ≤ (s.bias b).weakN) then s.raise 0x0F06 0 b
      else if !weak && decide (4 ≤ (s.bias b).okN) then s.clear 0x0F06 0 b else s
    if s.stands 0x0F06 0 b ∨ s.biasRamps b ∨ s.boot.mpUp = false then s.modBias b fun q => { q with hold := true }
    else
      let sign : Int := if s.cf F.MON_BIAS_CTL_SIGN b = 1 then -1 else 1
      let top : Int := (s.cf F.MON_BIAS_STEP_STEP_MAX b : Nat)
      s.biasStep b (clampI (-top) top (roundDiv (sign * i) (2 ^ 96 * 2 ^ s.cf F.MON_BIAS_CTL_LSHIFT b)))

/-! ### The end of a conversion -/

/-- Value field of an input's result. -/
def State.resVal (s : State) (n : Nat) : Int := sgn 24 (agetD s.mon.res n 0).toNat

/-- The open-wire defect after a conversion (R414). -/
def State.openWire (s : State) (c : Conv) (mean : Int) : State :=
  let n := c.input
  if c.cal then s
  else if c.check then
    if c.ovrHi ∨ c.vals ≠ [] then
      s.defect (c.ovrHi || decide (s.resVal n + s.cf F.MON_OW_THR_THR 0 < mean)) 0x0F02 0 n
    else s
  else if s.cf F.MON_IN_CFG_OW_MODE n = 1 then s.defect c.ovrHi 0x0F02 0 n
  else s

/-- Group delay of R406 in ns. -/
def State.groupDelay (s : State) : Nat := (73 * s.monR - 2) * 15625 / 100

/-- A calibration pass keeps the mean of a conversion it asked for (R422). -/
def State.calTake (s : State) (c : Conv) (mean : Int) : State :=
  let i := if s.calPass 6 then 6
    else 8 + ((List.range 16).find? fun b => s.calPass (8 + b)).getD 0
  if c.cal && s.calPass i then
    { s with cal := aset s.cal i { agetD s.cal i calReset with got := (agetD s.cal i calReset).got ++ [mean] } }
  else s

/-- The result of a conversion (R410, R413, R420). A check shows in its OPEN flag only, the short of a calibration
nowhere. -/
def State.convResult (s : State) (c : Conv) : State :=
  let n := c.input
  let mean := if c.vals = [] then 0 else roundUp ((c.vals.map (·.1)).foldr (· + ·) 0) c.vals.length
  let ovr := c.ovrHi || c.ovrLo
  if s.calShort c then s.calTake c mean else
  let s := s.calTake c mean
  let s := (if ovr then s.bump .MON_OVR_CNT n else s).defect ovr 0x0F01 0 n
  let s := s.openWire c mean
  let op := s.stands 0x0F02 0 n
  let old := agetD s.mon.res n 0
  if c.check then s.modMon fun m => { m with res := aset m.res n (setBits old 28 28 (b2n op)) } else
  let w := b2n (c.vals != []) * 2 ^ 31 + b2n c.ovrHi * 2 ^ 30 + b2n c.ovrLo * 2 ^ 29 + b2n op * 2 ^ 28 +
    b2n c.unset * 2 ^ 27 + b2n c.urgent * 2 ^ 26 + b2n c.restart * 2 ^ 25 + s.cf F.MON_IN_CFG_DCB_FRZ n * 2 ^ 24 +
    (if c.vals = [] then old.toNat % 2 ^ 24 else usg 24 mean)
  s.modMon fun m => { m with
    res := aset m.res n (BitVec.ofNat 32 w), resT := aset m.resT n ((s.ns + 2 ^ 32 - s.groupDelay % 2 ^ 32) % 2 ^ 32) }

/-- CONVERSION_END (R408, R410 to R414, R417): the running conversion has taken its words, or has none to take. -/
def execConversionEnd (s : State) : Host.Outcome State Fault Refusal := live s fun s =>
  match s.mon.conv with
  | none => s
  | some c =>
    if c.vals.length < s.convRepeat c && !(c.unset || c.ovrHi || c.ovrLo) then s else
    let s := s.convResult c
    let s := if c.check then s else (List.range 16).foldl (fun s b => s.biasUpdate c b) s
    let s := if c.urgent && !c.cal then s.bump .MON_URG_CNT 0 else s
    let s := if c.scan then
        let p := s.scanNext c.input c.check
        s.modMon fun m => { m with
          after := p.1.map fun q => (q.1, false, false, q.2)
          aborts := 0
          scans := if p.2 then (m.scans + 1) % 2 ^ 32 else m.scans }
      else s
    s.convNext

/-- An urgent request for an input (R411). -/
def State.urgent (s : State) (n : Nat) : State :=
  let serve : Bool := match s.mon.conv with
    | some c => c.input == n && !c.check && !s.calShort c
    | none => false
  if serve then s.modMon fun m => { m with conv := m.conv.map fun c => { c with urgent := true } }
  else if s.mon.urg.any (fun u => u.1 == n && !u.2) then s
  else if 4 ≤ s.mon.urg.length then s.occ 0x0F04 0 n
  else s.modMon fun m => { m with
    urg := m.urg ++ [(n, false)]
    abort := m.abort || (match m.conv with
      | some c => c.scan && decide (m.aborts < 3)
      | none => false) }

/-- URGENT_REQUEST (R411): a write of MON.URGENT with REQ 1. -/
def execUrgentRequest (n : Fin 32) (s : State) : Host.Outcome State Fault Refusal := live s fun s => s.urgent n

/-- DCB_EST_WRITE (R407, R412). -/
def execDcbEstWrite (n : Fin 32) (v : BitVec 24) (s : State) : Host.Outcome State Fault Refusal := live s fun s =>
  s.modMon fun m => { m with dcb := aset m.dcb n.val v.toInt }

/-- Set a DAC code, clipped to the limits (R415). -/
def State.biasSet (s : State) (b v : Nat) : State :=
  let l := s.biasLim b
  s.modBias b fun q => { q with val := (clampI l.1 l.2 v).toNat }

/-- Set a reference's settled flag (R404): conversions on it restart, or lose their words. -/
def State.refTo (s : State) (ref : Nat) (on : Bool) : State :=
  let was := match ref with
    | 0 => s.mon.intSet
    | 1 => s.mon.extSet
    | _ => s.mon.supSet
  if was = on then s else
  let s := s.modMon fun m => match ref with
    | 0 => { m with intSet := on }
    | 1 => { m with extSet := on }
    | _ => { m with supSet := on }
  let s := if ref = 1 then s.defect (!on) 0x0F03 0 0 else s
  let upd (c : Conv) : Conv :=
    if s.cf F.MON_IN_CFG_REF c.input = ref then { c with
      words := 0, vals := [], unset := !on, ovrHi := c.ovrHi && !on, ovrLo := c.ovrLo && !on } else c
  s.modMon fun m => { m with conv := m.conv.map upd }

/-- REF_SETTLED (R404, R409). -/
def execRefSettled (ref : Fin 3) (s : State) : Host.Outcome State Fault Refusal := live s fun s => s.refTo ref true

/-- REF_UNSETTLED (R404). -/
def execRefUnsettled (ref : Fin 3) (s : State) : Host.Outcome State Fault Refusal := live s fun s => s.refTo ref false

/-- A commit of scope MON has taken effect (R407, R409, R415, R416); `old` reads the values before it. -/
def State.monCommit (s : State) (old : Rd) : State :=
  let r := s.rd
  let chg (f : Fref) (i : Nat) : Bool := f.at r i != f.at old i
  let input (s : State) (n : Nat) : State :=
    if (F.MON_IN_CFG_DCB_EN.on r n && !F.MON_IN_CFG_DCB_EN.on old n) || chg F.MON_IN_CFG_REF n then
      s.modMon fun m => { m with dcb := adel m.dcb n } else s
  let dith (q : Rd) (b : Nat) : Bool := F.MON_BIAS_CTL_DAC_EN.on q b && F.MON_BIAS_CTL_AMP.at q b != 0
  let bias (s : State) (b : Nat) : State :=
    let l := s.biasLim b
    s.modBias b fun q => { q with
      val := (clampI l.1 l.2 q.val).toNat, dith0 := if dith r b && !dith old b then s.mon.words else q.dith0 }
  let s := (List.range 32).foldl input s
  let s := (List.range 16).foldl bias s
  let upd (c : Conv) : Conv :=
    if chg F.MON_CTL_DEC 0 || chg F.MON_CTL_SH_SINC 0 || chg F.MON_CTL_SH_HB 0 || chg F.MON_CTL_SH_FIR 0 ||
        chg F.MON_IN_CFG_REF c.input || chg F.MON_IN_CFG_OW_I c.input || chg F.MON_IN_CFG_OW_MODE c.input then
      { c with words := 0, vals := [], ovrHi := false, ovrLo := false, unset := !s.refSet c.input }
    else c
  s.modMon fun m => { m with conv := m.conv.map upd }

end Sys2Proof.Machine
end

