-- ==== Sys2Proof/Machine/Calib.lean ====
section
/-! DEFINITION. Calibration runs and the ramps of accepted values (R421 to R431). -/

namespace Sys2Proof.Machine

/-- A calibration instance's state. -/
def State.cali (s : State) (i : Nat) : CalInst := agetD s.cal i calReset
/-- Change it. -/
def State.modCal (s : State) (i : Nat) (f : CalInst → CalInst) : State :=
  { s with cal := aset s.cal i (f (s.cali i)) }

/-- A value that a calibration writes: a register field with its index, or the code of a bias DAC. -/
inductive CalField where
  | reg (f : Fref) (idx : Nat)
  | bias (b : Nat)
deriving DecidableEq, Repr

/-- The values of an instance in the order of R421, each with its tolerance (R424) and the number DIS_FIELD gives it:
for interleave the converter times 64 plus the section. -/
def calFields (i : Nat) : List (CalField × Nat × Nat) :=
  if i < 2 then (List.range 256).flatMap fun k =>
    [(.reg F.CAR_FE_ILV_TIME (i * 256 + k), 64, k), (.reg F.CAR_FE_ILV_GAIN (i * 256 + k), 8, k),
     (.reg F.CAR_FE_ILV_OFFSET (i * 256 + k), 16, k)]
  else if i < 4 then (List.range 4).map fun c => (.reg F.CAR_FE_SKEW_VALUE ((i - 2) * 4 + c), 32, c)
  else if i < 6 then (List.range 4).map fun c => (.reg F.CAR_TX_SKEW_VALUE ((i - 4) * 4 + c), 32, c)
  else if i = 6 then [(.reg F.MON_CAL_OFS_VALUE 0, 4, 0), (.reg F.MON_CAL_GAIN_VALUE 0, 16, 1)]
  else if 8 ≤ i ∧ i < 24 then [(.bias (i - 8), 256, 0)]
  else []

/-- Active value of a calibrated field. -/
def State.calGet (s : State) (f : CalField) : Int :=
  match f with
  | .reg f i => if f = F.MON_CAL_GAIN_VALUE then (f.at s.rd i : Nat) else f.int s.rd i
  | .bias b => ((s.bias b).val : Nat)

/-- Set it: the active value and, of a staged field, the staging copy (R428). The digest of R33 is that of the last
handshaken commit: a ramp's step does not restart it (DESIGN CHOICE, log 48). -/
def State.calSet (s : State) (f : CalField) (v : Int) : State :=
  match f with
  | .reg f i =>
    let n := usg (f.hi + 1 - f.lo) v
    let s := s.setField f i n
    if f.reg.staged then s.stage ⟨f.reg, i⟩ (BitVec.ofNat 32 (n * 2 ^ f.lo)) (maskOf f.hi f.lo) else s
  | .bias b => s.biasSet b v.toNat

/-- The conditions of R421; `rms`: each ADC's RMS is at least 16 codes. -/
def State.calOk (s : State) (i : Nat) (rms : Bool) : Bool :=
  let x : Carrier := carOf (i % 2)
  if i < 2 then s.rxValid x && rms
  else if i < 4 then (s.car x).rxc.st == .locked
  else if i < 6 then ((s.car x).tx.st == .off || (s.car x).tx.st == .squelched) &&
    !(agetD s.sti.dies x.txDie dieReset).fault
  else if i = 6 then s.cf F.MON_CTL_EN 0 == 1 && s.mon.intSet
  else if 8 ≤ i ∧ i < 24 then s.cf F.MON_BIAS_CTL_DAC_EN (i - 8) == 1 && s.refSet (s.cf F.MON_BIAS_CTL_TAP (i - 8))
  else false

/-- Why a start is refused (R423, R495): 0 it is not, 2 running, 3 conflicting instance, 4 a condition fails. -/
def State.calRefusal (s : State) (i : Nat) (rms : Bool) : Nat :=
  if (s.cali i).st ≠ .idle then 2
  else if (i = 6 ∧ (List.range 16).any (fun b => s.calPass (8 + b))) ∨ (8 ≤ i ∧ i < 24 ∧ s.calPass 6) then 3
  else if s.calOk i rms then 0 else 4

/-- Start a run, or refuse it with event 0x1006 (R423). -/
def State.calBegin (s : State) (i : Nat) (rms : Bool) : State :=
  if s.calRefusal i rms = 0 then s.modCal i fun c => { c with st := .pass1, pass1 := [], got := [] }
  else s.occ 0x1006 0 i

/-- CAL_START (R423): a write of CAL_CMD with START 1. -/
def execCalStart (i : Fin 32) (rms : Bool) (s : State) : Host.Outcome State Fault Refusal := live s fun s =>
  s.calBegin i rms

/-- CALIBRATE (R423, R493, R494). -/
def execCalibrate (fn : Fn) (r : Nat) (rms : Bool) (s : State) : Host.Outcome State Fault Refusal :=
  command fn r 0x010A s fun d _ s =>
    let i := byteAt d 16
    let n := s.calRefusal i rms
    (if n = 0 then 0 else 0x0B, n, fun s => s.calBegin i rms)

/-- The values of a pass: those given, or, of the monitor calibration once it has converted the short and input 31, the
short's word and the gain by which input 31 reads 4,194,304 (R422). -/
def State.calVals (s : State) (i : Nat) (vals : List Int) : List Int :=
  match i, (s.cali i).got with
  | 6, a :: b :: _ => [a, if b ≤ a then 0 else roundDiv (4194304 * 4194304) (b - a).toNat]
  | _, _ => vals

/-- CAL_PASS1_END (R424): the values of pass 1. -/
def execCalPass1End (i : Fin 24) (vals : List Int) (s : State) : Host.Outcome State Fault Refusal := live s fun s =>
  if (s.cali i).st = .pass1 then
    s.modCal i fun c => { c with st := .pass2, pass1 := s.calVals i vals, got := [] }
  else s

/-- A run is over (R426). -/
def State.calOver (s : State) (i : Nat) (result : Nat) (st : CalSt) : State :=
  (s.modCal i fun c => { c with st := st, result := result, time := s.ns }).bump .GLB_CAL_CNT i

/-- CAL_PASS2_END (R424, R426, R427): the values of pass 2; the run is accepted and its ramp begins, or discarded. -/
def execCalPass2End (i : Fin 24) (vals : List Int) (s : State) : Host.Outcome State Fault Refusal := live s fun s =>
  if (s.cali i).st ≠ .pass2 then s else
  let fs := calFields i
  let vals := s.calVals i vals
  let p := fun (k : Nat) => ((s.cali i).pass1.getD k 0, vals.getD k 0)
  match fs.zipIdx.find? (fun e => e.1.2.1 < ((p e.2).1 - (p e.2).2).natAbs) with
  | some e => ((s.calOver i 2 .idle).modCal i fun c => { c with dis := e.1.2.2 }).occ 0x1003 0 i
      [BitVec.ofNat 8 e.1.2.2]
  | none =>
    let s := s.calOver i 1 .ramp
    (s.modCal i fun c => { c with
      v0 := fs.map fun e => s.calGet e.1
      v1 := fs.zipIdx.map fun e => roundDiv ((p e.2).1 + (p e.2).2) 2
      t := 0
      rampMs := min 1000 (s.cf F.GLB_CAL_CTL_RAMP_MS 0) }).occ 0x1001 0 i

/-- A run is aborted (R425). -/
def State.calAbort (s : State) (i : Nat) : State :=
  if s.calPass i then (s.calOver i 3 .idle).occ 0x1004 0 i else s

/-- CAL_ABORT (R425): a condition of R421 fails during a pass. The RMS of instances 0 and 1 is told by the command itself;
every other condition is the block's own, and while it holds nothing is aborted. -/
def execCalAbort (i : Fin 24) (s : State) : Host.Outcome State Fault Refusal := live s fun s =>
  if s.calOk i false then s else s.calAbort i

/-- CAL_RAMP_STEP (R427, R428): 10 µs of a ramp. -/
def execCalRampStep (i : Fin 24) (s : State) : Host.Outcome State Fault Refusal := live s fun s =>
  let c := s.cali i
  if c.st ≠ .ramp then s else
  let n := c.t + 1
  let last : Bool := c.rampMs * 100 ≤ n
  let v (k : Nat) : Int := if last then c.v1.getD k 0
    else c.v0.getD k 0 + roundDiv ((c.v1.getD k 0 - c.v0.getD k 0) * n) (c.rampMs * 100)
  let s := (calFields i).zipIdx.foldl (fun s e => s.calSet e.1.1 (v e.2)) s
  let s := s.modCal i fun c => { c with t := n, st := if last then .idle else .ramp }
  if last then s.occ 0x1002 0 i else s

/-- Stop a ramp (R429). -/
def State.calStop (s : State) (i : Nat) : State :=
  if (s.cali i).st = .ramp then (s.modCal i fun c => { c with st := .idle, result := 4 }).occ 0x1005 0 i else s

/-- The instance that owns a register (R421). -/
def calOwner (k : RegKey) : Option Nat :=
  match k.reg with
  | .CAR_FE_ILV => some (k.idx / 256)
  | .CAR_FE_SKEW => some (2 + k.idx / 4)
  | .CAR_TX_SKEW => some (4 + k.idx / 4)
  | .MON_CAL_OFS | .MON_CAL_GAIN => some 6
  | .MON_BIAS_VAL => some (8 + k.idx)
  | _ => none

/-- A register was written, or a commit took a field of it at its boundary (R429). -/
def State.calTouched (s : State) (k : RegKey) : State :=
  match calOwner k with
  | some i => s.calStop i
  | none => s

/-- BIAS_VAL_WRITE (R415, R429). -/
def execBiasValWrite (b : Fin 16) (v : BitVec 20) (s : State) : Host.Outcome State Fault Refusal := live s fun s =>
  if s.cf F.MON_BIAS_CTL_LOOP_EN b = 1 then s else (s.calStop (8 + b)).biasSet b v.toNat

/-- Abort every run (R425, R16): the management processor restarts. -/
def State.calAbortAll (s : State) : State := (List.range 24).foldl State.calAbort s

/-- The management processor restarts: calibration runs abort (R425), and commands that need it wait (R16). -/
def State.mpStop (s : State) : State :=
  (s.modBoot fun b => { b with mpUp := false, st := 5 }).calAbortAll

/-- Code of a calibration state (R432). -/
def CalSt.code (t : CalSt) : Nat :=
  match t with
  | .idle => 0 | .pass1 => 1 | .pass2 => 2 | .ramp => 3

end Sys2Proof.Machine
end

