-- ==== Sys2Proof/Machine/Msg.lean ====
section
/-! DEFINITION. Sending messages: the message channel's queues (R251, R252), Tack's segments and queue (R338, R339), and
the path of plan and key messages (R209, R278). -/

namespace Sys2Proof.Machine

/-- A message of R251: length, body, CRC-32C. -/
def wire (body : Bytes) : Bytes :=
  let p := beBytes 2 body.length ++ body
  p ++ beBytes 4 (crc32c p)

/-- `l` cut into pieces of `n` bytes. -/
def pieces (n : Nat) (l : Bytes) (fuel : Nat) : List Bytes :=
  match fuel with
  | 0 => []
  | f + 1 => if l = [] then [] else l.take n :: pieces n (l.drop n) f

/-- The segments of a message (R338). -/
def segments (id : Nat) (m : Bytes) : List Bytes :=
  let ps := pieces 251 m 33
  (List.range ps.length).map fun i =>
    [BitVec.ofNat 8 id, BitVec.ofNat 8 i, BitVec.ofNat 8 ps.length, 0] ++ ps.getD i []

/-- Queue class of a Tack frame type (R337). -/
def tkClass (typ : Nat) : Nat :=
  match typ with
  | 1 => 4 | 2 => 1 | 3 => 0 | 4 => 2 | 5 => 3 | _ => 5

/-- The first entry of the lowest class, if there is one. -/
def firstOf (l : List (Nat × Bytes)) : Option (Nat × Bytes) :=
  l.foldl (fun a e => match a with
    | none => some e
    | some b => if tkClass e.1 < tkClass b.1 then some e else some b) none

/-- Frames that wait at their source enter the queue of 15 while it has room (R339). -/
def Tack.pump (t : Tack) (fuel : Nat) : Tack :=
  match fuel with
  | 0 => t
  | f + 1 =>
    if 15 ≤ t.queue.length then t else
    match firstOf t.wait with
    | none => t
    | some e => Tack.pump { t with queue := t.queue ++ [⟨e.1, e.2, false⟩], wait := t.wait.erase e } f

/-- Offer frames of a type to the queue. -/
def Tack.offer (t : Tack) (typ : Nat) (l : List Bytes) : Tack :=
  Tack.pump { t with wait := t.wait ++ l.map fun b => (typ, b) } 15

/-- Send a message over Tack: a resend keeps the MSG_ID of the last message of its type (R338). -/
def State.tkMsg (s : State) (x : Carrier) (typ : Nat) (resend : Bool) (body : Bytes) : State :=
  s.modTk x fun t =>
    let next := agetD t.ids typ 0
    let key := 256 * (typ + 1) + byteAt body 0
    let id := if resend then agetD t.ids key next else next
    let t := if resend && (aget t.ids key).isSome then t else
      { t with ids := aset (aset t.ids typ ((next + 1) % 256)) key next }
    t.offer typ (segments id (wire body))

/-- A frame of the last message of this frame type and message type has still to leave: its retry timer has not started
(R340). -/
def State.tkSending (s : State) (x : Carrier) (typ b0 : Nat) : Bool :=
  let t := (s.car x).tk
  match aget t.ids (256 * (typ + 1) + b0) with
  | none => false
  | some id =>
    let mine (n : Nat) (b : Bytes) : Bool := n == typ && byteAt b 0 == id
    t.queue.any (fun f => mine f.typ f.body) || t.wait.any (fun e => mine e.1 e.2) ||
      t.burst.any (fun b => mine b.frame.typ b.frame.body)

/-- The message channel serves plan and key messages: the receive side is aligned and receives no remote defect
indication (R209, R278). -/
def State.channelOpen (s : State) (x : Carrier) : Bool :=
  (s.car x).tr.st != .hunt && !s.stands 0x0804 x.ev 0

/-- Queue a message of Plaile's on the message channel (R251). -/
def State.ownMsg (s : State) (x : Carrier) (body : Bytes) : State :=
  s.modTr x fun t => { t with own := t.own ++ [wire body] }

/-- Epoch that a plan message concerns. -/
def planMsgEpoch (b : Bytes) : Nat :=
  if byteAt b 0 = 0x31 ∨ byteAt b 0 = 0x32 then beAt b 6 2 else beAt b 4 2

/-- PLAN_CTL that governs a plan message: that of its plan in flight, for a PROPOSE and for the COMMIT of a pending plan, else
the one that stands (R227). -/
def State.planCtl (s : State) (x : Carrier) (body : Bytes) : Word :=
  let p := (s.car x).plan
  let e := planMsgEpoch body
  if byteAt body 0 = 0x31 ∧ p.prop.map recEpoch = some e then p.ctlRx
  else if byteAt body 0 = 0x32 ∧ (p.txPend.map (recEpoch ·.body)) = some e then p.ctlTx
  else s.rd ⟨.CAR_PLAN_CTL, x.num⟩

/-- Send a plan message on the open path, or keep it waiting; whatever becomes of it, it takes the place of its waiting copy
(R209). A COMMIT over Tack is marked cold (R210). -/
def State.planSend (s : State) (x : Carrier) (body : Bytes) : State :=
  let s := s.modPlan x fun p => { p with waitMsgs := p.waitMsgs.filter fun b =>
    !(byteAt b 0 == byteAt body 0 && planMsgEpoch b == planMsgEpoch body) }
  if s.channelOpen x then s.ownMsg x body
  else if F.CAR_PLAN_CTL_TACK_EN.of (s.planCtl x body) = 1 then
    s.tkMsg x 4 (decide (1 < byteAt body 1)) (if byteAt body 0 = 0x32 then lmod body 59 (· ||| 4) else body)
  else s.modPlan x fun p => { p with waitMsgs := p.waitMsgs ++ [body] }

/-- Waiting plan messages for which a path is open go out. -/
def State.planFlush (s : State) (x : Carrier) : State :=
  (s.car x).plan.waitMsgs.foldl (fun s b => s.planSend x b) s

/-- Drop waiting plan messages of a type. -/
def State.planUnqueue (s : State) (x : Carrier) (typ : Nat) : State :=
  s.modPlan x fun p => { p with waitMsgs := p.waitMsgs.filter fun b => byteAt b 0 != typ }

/-- Key agreement of a carrier. -/
def State.ka (s : State) (x : Carrier) : Ka :=
  match x with
  | .A => s.ciph.kaA
  | .B => s.ciph.kaB
/-- Change it. -/
def State.modKa (s : State) (x : Carrier) (f : Ka → Ka) : State :=
  match x with
  | .A => { s with ciph := { s.ciph with kaA := f s.ciph.kaA } }
  | .B => { s with ciph := { s.ciph with kaB := f s.ciph.kaB } }

/-- Body length that a Plaile message type requires (R210, R274), none for an undefined type. -/
def msgSize (typ : Nat) : Option Nat :=
  match typ with
  | 0x31 => some 52 | 0x32 => some 188 | 0x33 | 0x34 | 0x35 => some 8
  | 0x41 => some 6363 | 0x42 => some 6367 | 0x43 => some 44 | 0x44 => some 8
  | _ => none

/-- The check of a received message (R253): 0, or the reason of event 0x080A; the type and length it shows. -/
def msgCheck (m : Bytes) : Nat × Nat × Nat :=
  let n := beAt m 0 2
  let typ := byteAt m 2
  let body := sub m 2 n
  if m.length < 10 then (2, 0, 0)
  else if m.length ≠ n + 6 ∨ n < 4 ∨ 8192 < n then (2, typ, n)
  else if crc32c (m.take (n + 2)) ≠ beAt m (n + 2) 4 then (1, typ, n)
  else if 0x80 ≤ typ then (0, typ, n)
  else match msgSize typ with
    | none => (5, typ, n)
    | some k => if n ≠ k ∨ (typ < 0x40 ∧ beAt body 2 2 + 4 ≠ n) then (6, typ, n) else (0, typ, n)

/-- A whole message has come (R253, R338, R489): it is checked, and one of yours is delivered, one of Plaile's waits for the
row that takes it; true when it is good. -/
def State.msgIn (s : State) (x : Carrier) (tack : Bool) (m : Bytes) : State × Bool :=
  let c := msgCheck m
  let body := sub m 2 c.2.2
  if c.1 ≠ 0 then (s.msgBad x c.1 c.2.1 c.2.2, false)
  else if 0x80 ≤ c.2.1 then (s.msgDeliver x tack m, true)
  else if c.2.1 < 0x40 then (s.modPlan x fun p => { p with inbox := p.inbox ++ [body] }, true)
  else (s.modKa x fun k => { k with inbox := k.inbox ++ [body] }, true)

/-- The oldest plan message that waits is this one, of this type: it is taken. -/
def State.planTake (s : State) (x : Carrier) (typ : Nat) (msg : Bytes) : Option State :=
  match (s.car x).plan.inbox with
  | b :: r => if b = msg ∧ byteAt b 0 = typ then some (s.modPlan x fun p => { p with inbox := r }) else none
  | [] => none

/-- The same for a key-agreement message. -/
def State.kaTake (s : State) (x : Carrier) (typ : Nat) (msg : Bytes) : Option State :=
  match (s.ka x).inbox with
  | b :: r => if b = msg ∧ byteAt b 0 = typ then some (s.modKa x fun k => { k with inbox := r }) else none
  | [] => none

/-- A receive side's messages that wait for a path (key agreement, R278). -/
def State.kaSend (s : State) (x : Carrier) (resend : Bool) (body : Bytes) : State :=
  if (s.car x).tr.st = .aligned ∧ s.stands 0x0804 x.ev 0 = false then s.ownMsg x body
  else if s.cf F.SEC_CIPH_CTL_TACK_EN 0 = 1 then s.tkMsg x 5 resend body
  else s.modKa x fun k => { k with waitMsg := k.waitMsg ++ [body] }

end Sys2Proof.Machine
end

