-- ==== Sys2Proof/Machine/Plan.lean ====
section
/-! DEFINITION. Bit loading: both roles of the plan protocol, shedding, the values a plan applies (chapter 07). -/

namespace Sys2Proof.Machine

/-! ### Epochs, events, states -/

/-- Transmit and receive active epochs. -/
def State.txAct (s : State) (x : Carrier) : Nat := recEpoch (s.car x).plan.txRec
/-- Receive active epoch. -/
def State.rxAct (s : State) (x : Carrier) : Nat := recEpoch (s.car x).plan.rxRec

/-- A plan event: epoch, then further DATA (R226, R483). -/
def State.planEv (s : State) (x : Carrier) (code epoch : Nat) (idx : Nat := 0) (more : Bytes := []) : State :=
  s.occ code x.ev idx (leBytes 2 epoch ++ more)

/-- A REJECT sent or received: code kept, event, counter (R212, R226). -/
def State.planRejected (s : State) (x : Carrier) (epoch reason : Nat) : State :=
  ((s.modPlan x fun p => { p with lastReject := reason % 16 }).bumpx .CAR_PLAN_FAIL x).planEv x 0x0703 epoch 0
    [BitVec.ofNat 8 reason]

/-- Send REJECT. -/
def State.planReject (s : State) (x : Carrier) (epoch reason : Nat) : State :=
  (s.planSend x (msgReject epoch reason)).planRejected x epoch reason

/-- Raise plan lost (R221, R222, R226). -/
def State.planLost (s : State) (x : Carrier) : State :=
  if s.stands 0x070A x.ev 0 then s else
  ((s.modPlan x fun p => { p with lost := true }).bumpx .CAR_PLAN_FAIL x).raise 0x070A x.ev 0 (leBytes 2 (s.rxAct x))

/-- Clear plan lost and end its query. -/
def State.planFound (s : State) (x : Carrier) : State :=
  if (s.car x).plan.lost then
    ((s.modPlan x fun p => { p with lost := false, query := none }).planUnqueue x 0x35).clear 0x070A x.ev 0
      (leBytes 2 (s.rxAct x))
  else s

/-! ### Slot maps and shedding (R223 to R225) -/

/-- The channels that hold slots of any map or placement. -/
def State.placed (s : State) : List Nat := idxsOf s.regs.active (· == .CLI_CH_SLOTS)

/-- Slots placed on a carrier. -/
def State.placedSlots (s : State) (r : Rd) (x : Carrier) : Nat := sumN (s.placed.map fun c => slotsOf r c x)

/-- Shedding order: ascending class, ascending priority, descending channel number (R223). -/
def shedKey (r : Rd) (c : Nat) : Nat :=
  (F.CLI_CH_CFG_CLASS.at r c * 256 + F.CLI_CH_CFG_PRIO.at r c) * 1024 + (1023 - c)

/-- Insert by a key, ascending. -/
def insKey (k : Nat → Nat) (n : Nat) (l : List Nat) : List Nat :=
  match l with
  | [] => [n]
  | a :: t => if k n ≤ k a then n :: a :: t else a :: insKey k n t

/-- Sort by a key, ascending. -/
def sortKey (k : Nat → Nat) (l : List Nat) : List Nat := l.foldl (fun a n => insKey k n a) []

/-- Channels to shed on carrier `x` until the placed slots fit in `k` (R223). -/
def State.toShed (s : State) (r : Rd) (x : Carrier) (k : Nat) : List Nat :=
  ((sortKey (shedKey r) (s.placed.filter fun c => slotsOf r c x != 0)).foldl
    (fun (a : Nat × List Nat) c => if a.1 ≤ k then a else (a.1 - slotsOf r c x, a.2 ++ [c])) (s.placedSlots r x, [])).2

/-- Deskewed slots of all channels. -/
def State.deskewLoad (s : State) (r : Rd) : Nat := sumN (s.placed.map (deskewSlots r))

/-- Slots a restored channel asks for on a carrier. -/
def ShedCh.on (h : ShedCh) (x : Carrier) : Nat :=
  match x with
  | .A => h.a
  | .B => h.b

/-- Shed channels to restore (R225), last shed first: those that fit the free slots and R38. -/
def State.toRestore (s : State) (r : Rd) (x : Carrier) (k : Nat) : List ShedCh :=
  let cap := s.deskewCap r (F.SEAM_RGN_DESKEW.at r 0)
  let room (y : Carrier) : Nat := recSlots (s.txRecord r y) - s.placedSlots r y
  ((s.car x).plan.shedList.foldl (fun (a : Nat × Nat × Nat × List ShedCh) h =>
    let d := if h.a ≠ 0 ∧ h.b ≠ 0 then (if h.bond then h.a + h.b else h.a) else 0
    let other := if h.bond then h.on x.other else 0
    if h.on x ≤ a.1 ∧ other ≤ a.2.1 ∧ (d = 0 ∨ a.2.2.1 + d ≤ cap) then
      (a.1 - h.on x, a.2.1 - other, a.2.2.1 + d, a.2.2.2 ++ [h])
    else a) (k - s.placedSlots r x, room x.other, s.deskewLoad r, [])).2.2.2

/-- PLAN_CTL as it stands. -/
def State.ctlNow (s : State) (x : Carrier) : Word := s.rd ⟨.CAR_PLAN_CTL, x.num⟩

/-- Channels that a plan of `k` slots sheds, and those it restores; `ctl` is PLAN_CTL as the plan took it (R227). -/
def State.planShed (s : State) (r : Rd) (x : Carrier) (k : Nat) (ctl : Word) : List Nat × List ShedCh :=
  if k < s.placedSlots r x then (s.toShed r x k, [])
  else if s.placedSlots r x < k ∧ F.CAR_PLAN_CTL_RESTORE.of ctl = 1 then ([], s.toRestore r x k)
  else ([], [])

/-- A slot map as a list of its 456 entries. -/
def mapList (r : Rd) (reg : RegId) (x : Carrier) : List (Option Nat) :=
  (List.range 456).map fun i =>
    let w := r ⟨reg, carIdx reg x i⟩
    if bits w 15 15 = 1 then some (bits w 9 0) else none

/-- Take channels out of a map. -/
def unmap (l : List (Option Nat)) (cs : List Nat) : List (Option Nat) :=
  l.map fun e => match e with
    | some c => if cs.contains c then none else some c
    | none => none

/-- Put channel `c` in the `n` lowest free slots below `k`. -/
def fillSlots (l : List (Option Nat)) (c n k : Nat) : List (Option Nat) :=
  match l, k with
  | [], _ => []
  | l, 0 => l
  | none :: t, k + 1 => match n with
    | 0 => none :: t
    | n + 1 => some c :: fillSlots t c n k
  | some d :: t, k + 1 => some d :: fillSlots t c n k

/-- Move the slot at `i` to the lowest free one below `k`; where none is free it stays. -/
def moveSlot (k : Nat) (l : List (Option Nat)) (i : Nat) : List (Option Nat) :=
  match (l.take k).findIdx? (·.isNone) with
  | some j => (l.set j (l.getD i none)).set i none
  | none => l

/-- Repack a map (R224): slots of surviving channels at or above `k`, in ascending channel number, move to the lowest
free slots below `k`. -/
def repack (l : List (Option Nat)) (k : Nat) : List (Option Nat) :=
  let chs := (l.drop k).foldl (fun a e => match e with
    | some c => insSorted c a
    | none => a) []
  chs.foldl (fun m c => ((List.range l.length).filter fun i => decide (k ≤ i) && l.getD i none == some c).foldl
    (moveSlot k) m) l

/-- The values that turn a map into another. -/
def mapVals (r : Rd) (reg : RegId) (x : Carrier) (new : List (Option Nat)) : Tab RegKey (Word × Word) :=
  new.zipIdx.filterMap fun e =>
    let k : RegKey := ⟨reg, carIdx reg x e.2⟩
    let w : Word := match e.1 with
      | some c => BitVec.ofNat 32 (0x8000 + c)
      | none => 0
    if (r k ^^^ w) &&& 0x83FF = 0 then none else some (k, (w, 0x83FF))

/-- A value of a field, for a table of values. -/
def fval (f : Fref) (i v : Nat) : RegKey × (Word × Word) :=
  (⟨f.reg, i⟩, (BitVec.ofNat 32 (v * 2 ^ f.lo), maskOf f.hi f.lo))

/-! ### The loaded end (R212 to R215) -/

/-- Scopes of a plan's commit: the carrier's transmit scope, and the other's and SEAM where a bonded channel is shed or
restored (R213). -/
def planScopes (r : Rd) (x : Carrier) (shed : List Nat) (rest : List ShedCh) : List Nat :=
  let both := shed.any (fun c => placeOf r c == .bonded) || rest.any (·.bond)
  if both then (match x with
    | .A => [0, 2, 5]
    | .B => [0, 2, 5]) else [2 * x.num]

/-- The values a plan commits at the loaded end, over the reader `r` of its other values. -/
def State.planVals (s : State) (r : Rd) (x : Carrier) (rcd : Bytes) (shed : List Nat) (rest : List ShedCh) :
    Tab RegKey (Word × Word) :=
  let k := recSlots rcd
  let bonded := shed.filter fun c => placeOf r c == .bonded
  let put (y : Carrier) (k : Nat) (l : List (Option Nat)) : List (Option Nat) :=
    rest.foldl (fun l h => if y = x ∨ h.bond then fillSlots l h.ch (h.on y) k else l) l
  let mine := put x k (repack (unmap (mapList r .CAR_TR_SLOT_TX x) shed) k)
  let other := put x.other (recSlots (s.txRecord r x.other)) (unmap (mapList r .CAR_TR_SLOT_TX x.other) bonded)
  let slots (c : Nat) (y : Carrier) (n : Nat) : RegKey × (Word × Word) :=
    match y with
    | .A => fval F.CLI_CH_SLOTS_SLOTS_A c n
    | .B => fval F.CLI_CH_SLOTS_SLOTS_B c n
  let one (c : Nat) (l : List (Carrier × Nat)) : Tab RegKey (Word × Word) := l.map fun t => slots c t.1 t.2
  let counts := shed.flatMap (fun c => one c (if bonded.contains c then [(.A, 0), (.B, 0)] else [(x, 0)])) ++
    rest.flatMap fun h => one h.ch (if h.bond then [(.A, h.a), (.B, h.b)] else [(x, h.on x)])
  let base := [fval F.CAR_FEC_TX_RATE x.num (recRate rcd),
      fval F.CAR_TX_CTL_PILOT x.num (recPilot rcd)] ++
    (List.range (2 ^ recSc rcd)).map (fun i => fval F.CAR_TX_SC_E (carIdx .CAR_TX_SC x i) (recE rcd i)) ++
    mapVals r .CAR_TR_SLOT_TX x mine ++
    (if bonded = [] ∧ rest.all (!·.bond) then [] else mapVals r .CAR_TR_SLOT_TX x.other other)
  overVals base counts

/-- Make the plan's commit (R213 steps 2 to 4): `target` none for TX_MFC + LEAD, `send` whether COMMIT goes out, `ctl`
PLAN_CTL as the plan took it (R227). Answers RESULT of the rejection, or the new state. -/
def State.planGo (s : State) (x : Carrier) (rcd : Bytes) (target : Option Nat) (send : Bool) (ctl : Word) :
    Except Nat State :=
  let sh := s.planShed s.rd x (recSlots rcd) ctl
  let chs := sh.1 ++ sh.2.map (·.ch)
  let scopes := planScopes s.rd x sh.1 sh.2
  let t := target.getD (s.sys.txMfc + max 8 (F.CAR_PLAN_CTL_LEAD.of ctl))
  let r := s.rdAfter scopes
  let vals := s.planVals r x rcd sh.1 sh.2
  let new := overRd r vals
  let k (y : Carrier) : Nat := if y = x then recSlots rcd else recSlots (s.txRecord new y)
  let q : Chk := ⟨s.rd, new, dedupKeys (s.regs.active.map (·.1) ++ s.regs.staged.map (·.1) ++ vals.map (·.1)),
    k .A, k .B, recSlots (s.rxRecord new .A), recSlots (s.rxRecord new .B), chs⟩
  match s.rejects scopes .mf (some t) (some (vals, q)) with
  | some v => .error v
  | none =>
    let flags := if sh.1 ≠ [] then 1 else if sh.2 ≠ [] then 2 else 0
    let m : PlanMsg := ⟨rcd, t, if send then flags else flags + 16, chanMap chs⟩
    let s := s.pend scopes .mf (some t) vals (some (x, .tx, recEpoch rcd))
    let s := s.modPlan x fun p => { p with txPend := some m, ctlTx := ctl }
    let s := if send then s.planSend x (msgCommit rcd t flags m.map) else s
    .ok (s.planEv x 0x0706 (recEpoch rcd))

/-- Send a COMMIT again. -/
def State.planResend (s : State) (x : Carrier) (m : PlanMsg) (flag : Nat := 0) : State :=
  s.planSend x (msgCommit m.body m.target (m.flags % 16 ||| flag) m.map)

/-- The record is valid for the transmit side (R212 code 3). -/
def State.txRecOk (s : State) (x : Carrier) (rcd : Bytes) : Bool :=
  recValid rcd (s.cfx F.CAR_TX_CTL_SC_LOG2 x) (s.cfx F.CAR_TX_RATE_KBD x)

/-- Go on with an approved or unquestioned plan; a rejected commit sends REJECT with code 1 (R213). -/
def State.planProceed (s : State) (x : Carrier) (rcd : Bytes) (ctl : Word) : State :=
  match s.planGo x rcd none true ctl with
  | .ok s => s
  | .error _ => s.planReject x (recEpoch rcd) 1

/-- First failed check of R212, 0 for none. -/
def State.proposeCheck (s : State) (x : Carrier) (rcd : Bytes) : Nat :=
  let p := (s.car x).plan
  let sh := s.planShed s.rd x (recSlots rcd) (s.ctlNow x)
  if p.txPend.isSome || p.awaiting.isSome || (planScopes s.rd x sh.1 []).any s.pending? then 1
  else if recEpoch rcd ≠ (s.txAct x + 1) % 65536 then 2
  else if !s.txRecOk x rcd then 3
  else if sh.1 ≠ [] ∧ s.cfx F.CAR_PLAN_CTL_SHED_EN x = 0 then 4
  else 0

/-- The epoch of a plan held as pending or last applied. -/
def sameEpoch (m : Option PlanMsg) (e : Nat) : Option PlanMsg := m.filter fun q => recEpoch q.body == e

/-- PROPOSE_RECEIVED (R212, R213): the message's 52 bytes, the oldest plan message that waits. -/
def execProposeReceived (x : Carrier) (msg : Bytes) (s : State) : Host.Outcome State Fault Refusal := live s fun s =>
  match s.planTake x 0x31 msg with
  | none => s
  | some s =>
  let rcd := recClean (recSwap (msg.drop 4))
  let e := recEpoch rcd
  let p := (s.car x).plan
  match sameEpoch p.txPend e, sameEpoch p.lastCommit e with
  | some m, _ => s.planResend x m
  | none, some m => s.planResend x m
  | none, none =>
    if (p.awaiting.map recEpoch) = some e then s else
    match s.proposeCheck x rcd with
    | 0 =>
      if s.cfx F.CAR_PLAN_CTL_APPROVE x = 1 then
        (s.modPlan x fun p => { p with awaiting := some rcd, ctlTx := s.ctlNow x }).planEv x 0x0705 e
      else s.planProceed x rcd (s.ctlNow x)
    | c => s.planReject x e c

/-- PLAN_APPROVE (R213, R495). -/
def execPlanApprove (fn : Fn) (r : Nat) (s : State) : Host.Outcome State Fault Refusal :=
  command fn r 0x0005 s fun d _ s =>
    let x := carOf (byteAt d 16)
    match (s.car x).plan.awaiting with
    | some rcd =>
      if recEpoch rcd ≠ leAt d 18 2 then stop 10 0 else
      (0, 0, fun s =>
        let s := s.modPlan x fun p => { p with awaiting := none }
        if byteAt d 17 = 2 then s.planReject x (recEpoch rcd) 5 else s.planProceed x rcd (s.car x).plan.ctlTx)
    | none => stop 10 0

/-- APPROVAL_TIMEOUT (R212 code 5, R213). -/
def execApprovalTimeout (x : Carrier) (s : State) : Host.Outcome State Fault Refusal := live s fun s =>
  match (s.car x).plan.awaiting with
  | some rcd => (s.modPlan x fun p => { p with awaiting := none }).planReject x (recEpoch rcd) 5
  | none => s

/-- The record a plan command names: the last computed one, or the host's image (R214). -/
def State.planSource (s : State) (x : Carrier) (d data : Bytes) : Option Bytes :=
  if byteAt d 17 = 1 then some (recClean (padTo 48 data)) else (s.car x).plan.computed

/-- Checks of a record that a push or a local apply supplies to the transmit side: status and result of a refusal. -/
def State.pushCheck (s : State) (x : Carrier) (rcd : Bytes) : Option (Nat × Nat) :=
  if (s.car x).plan.awaiting.isSome then some (2, 0)
  else if !s.txRecOk x rcd then some (11, 4)
  else if (s.planShed s.rd x (recSlots rcd) (s.ctlNow x)).1 ≠ [] ∧ s.cfx F.CAR_PLAN_CTL_SHED_EN x = 0 then some (11, 1)
  else none

/-- PLAN_PUSH (R214). -/
def execPlanPush (fn : Fn) (r : Nat) (s : State) : Host.Outcome State Fault Refusal :=
  command fn r 0x0106 s fun d data s =>
    let x := carOf (byteAt d 16)
    match s.planSource x d data with
    | none => stop 11 5
    | some rec0 =>
      let e := (s.txAct x + 1) % 65536
      let rcd := recSetEpoch rec0 e
      match s.pushCheck x rcd with
      | some (a, b) => stop a b
      | none =>
        match s.planGo x rcd none true (s.ctlNow x) with
        | .error v => stop 1 v
        | .ok _ => (0, e, fun s => match s.planGo x rcd none true (s.ctlNow x) with
          | .ok t => t
          | .error _ => s)

/-! ### The proposer (R211, R216 to R222) -/

/-- The rate watch arms when the received count has reached target − 1 (R172, R220). -/
def State.watchCheck (s : State) (x : Carrier) : State :=
  let c := s.car x
  match c.plan.rxPend with
  | some m =>
    if c.fec.watch.isNone ∧ m.target ≤ c.tr.mfc + 1 ∧ recRate m.body ≠ c.fec.actRate ∧ c.tr.st = .aligned then
      s.modFec x fun f => { f with watch := some (recRate m.body, m.target) }
    else s
  | none => s

/-- Drop a pending commit's scope without a report. -/
def State.unpend (s : State) (p : Pend → Bool) : State :=
  { s with regs := { s.regs with pend := s.regs.pend.filter fun c => !p c } }

/-- The plan commit of a carrier's receive side. -/
def isRxPlan (x : Carrier) (c : Pend) : Bool := match c.plan with
  | some (y, .rx, _) => y == x
  | _ => false

/-- Undo an arming (R216, R218): slots that have already changed on the other carrier change back. -/
def State.unarm (s : State) (x : Carrier) : State :=
  let s := (s.unpend (isRxPlan x)).applyVals (s.car x).plan.sideUndo
  (s.modPlan x fun p => { p with rxPend := none, took := [], side := none, sideUndo := [] }).modFec x fun f =>
    { f with watch := none }

/-- Drop the pending receive plan or the proposal with event 0x0708 (R218). -/
def State.planDrop (s : State) (x : Carrier) : State :=
  let p := (s.car x).plan
  match p.rxPend.map (·.body) |>.orElse (fun _ => p.prop) with
  | some b =>
    let s := (s.unarm x).modPlan x fun p => { p with
      prop := none, sends := 0, valid := p.valid.filter fun m => recEpoch m.body != recEpoch b }
    (s.planUnqueue x 0x31).planEv x 0x0708 (recEpoch b)
  | none => s

/-- What restoring channel `c` puts back into the receive maps: what a plan took out of them, or else its placement (R225). -/
def State.rxShedOf (s : State) (x : Carrier) (r : Rd) (c : Nat) : ShedCh :=
  (((s.car x).plan.rxShed ++ (s.car x.other).plan.rxShed).find? fun h => h.ch == c).getD
    ⟨c, slotsOf r c .A, slotsOf r c .B, F.CLI_CH_SLOTS_BOND.on r c⟩

/-- The receive maps after a plan: channels of MAP removed or restored, the rest repacked (R224, R225). -/
def State.rxMapVals (s : State) (r : Rd) (x : Carrier) (m : PlanMsg) : Tab RegKey (Word × Word) :=
  let chs := mapChans m.map
  let shed := if bit m.flags 0 then chs else []
  let rest := if bit m.flags 1 then chs.map (s.rxShedOf x r) else []
  let put (y : Carrier) (k : Nat) (l : List (Option Nat)) : List (Option Nat) :=
    rest.foldl (fun l h => if y = x ∨ h.bond then fillSlots l h.ch (h.on y) k else l) l
  let k := recSlots m.body
  let mine := put x k (repack (unmap (mapList r .CAR_TR_SLOT_RX x) shed) k)
  let other := put x.other (recSlots (s.rxRecord r x.other))
    (unmap (mapList r .CAR_TR_SLOT_RX x.other) (shed.filter fun c => F.CLI_CH_SLOTS_BOND.on r c))
  mapVals r .CAR_TR_SLOT_RX x mine ++ mapVals r .CAR_TR_SLOT_RX x.other other

/-- The values a plan commits at the proposer. -/
def State.rxPlanVals (s : State) (r : Rd) (x : Carrier) (m : PlanMsg) : Tab RegKey (Word × Word) :=
  [fval F.CAR_FEC_CTL_RATE x.num (recRate m.body), fval F.CAR_RXC_CTL_PILOT x.num (recPilot m.body)] ++
    s.rxMapVals r x m

/-- Cancel the host's pending commits that include a scope, and report them (R219, R478). -/
def State.cancelHost (s : State) (n : Nat) : State :=
  let l := s.regs.pend.filter fun c => c.scopes.contains n && c.plan.isNone
  l.foldl (fun s c => s.occ 0x0103 0 0 (leBytes 2 (scopesMask c.scopes)))
    (s.unpend fun c => c.scopes.contains n && c.plan.isNone)

/-- The values that a set of receive slot map values replaced. -/
def undoVals (old : Rd) (v : Tab RegKey (Word × Word)) : Tab RegKey (Word × Word) :=
  (v.filter fun e => e.1.reg == .CAR_TR_SLOT_RX).map fun e => (e.1, (old e.1, e.2.2))

/-- A receive plan becomes the pending commit of its carrier's receive scope (R216). Slots of the other carrier, where a bonded
channel is shed or restored, wait beside it for the same target there (R25; DESIGN CHOICE, log 93). -/
def State.pendRx (s : State) (x : Carrier) (m : PlanMsg) : State :=
  let n := 2 * x.num + 1
  let took := s.takeVals [n]
  let v := s.rxPlanVals (s.rdAfter [n]) x m
  let oth := v.filter fun e => e.1.carNo != x.num
  let s := s.pend [n] .mf (some m.target) (v.filter fun e => e.1.carNo == x.num) (some (x, .rx, recEpoch m.body))
  s.modPlan x fun p => { p with
    rxPend := some m, took := took, side := if oth = [] then none else some (m.target, oth), sideUndo := [] }

/-- The slots that a plan of carrier `x` changes on the other one take effect there (R224, R225). -/
def State.sideApply (s : State) (x : Carrier) : State :=
  match (s.car x).plan.side with
  | some (_, v) =>
    let u := undoVals s.rd v
    ((s.applyVals v).modPlan x fun p =>
      if p.rxPend.isSome then { p with side := none, sideUndo := u }
      else { p with side := none, undo := overVals p.undo u }).chEvalAll
  | none => s

/-- Arm the proposer for a valid plan at a target (R216, R219, R220): a plan armed before is dropped, and host commits pending
in the scope are cancelled. -/
def State.planArm (s : State) (x : Carrier) (m : PlanMsg) (target : Nat) : State :=
  let e := recEpoch m.body
  let s := match (s.car x).plan.rxPend with
    | some q => if recEpoch q.body = e then s.unarm x else s.planDrop x
    | none => s.sideApply x
  let s := s.cancelHost (2 * x.num + 1)
  let s := s.pendRx x { m with target := max target ((s.car x).tr.mfc + 1) }
  let s := (s.modPlan x fun p => { p with prop := none, sends := 0 }).planUnqueue x 0x31
  (s.planEv x 0x0706 e).watchCheck x

/-- A COMMIT for the plan that is armed: its record, FLAGS and MAP, at the target that is armed, since the announcement wins
(R216, R224). -/
def State.planRemap (s : State) (x : Carrier) (m : PlanMsg) : State :=
  match (s.car x).plan.rxPend with
  | none => s
  | some q =>
    let took := (s.car x).plan.took
    let m := { m with target := q.target }
    let v := s.rxPlanVals (overRd s.rd took) x m
    let own := overVals took (v.filter fun e => e.1.carNo == x.num)
    let oth := v.filter fun e => e.1.carNo != x.num
    let s := { s with regs := { s.regs with
      pend := s.regs.pend.map fun p => if isRxPlan x p then { p with vals := own } else p } }
    s.modPlan x fun p => { p with
      rxPend := some m, side := if oth = [] ∨ p.sideUndo ≠ [] then p.side else some (m.target, oth) }

/-- Keep a valid plan for arming. -/
def State.keepValid (s : State) (x : Carrier) (m : PlanMsg) : State :=
  s.modPlan x fun p => { p with valid := (p.valid.filter fun q => recEpoch q.body != recEpoch m.body) ++ [m] }

/-- Send PROPOSE for a record (R211). -/
def State.propose (s : State) (x : Carrier) (rec0 : Bytes) : State :=
  let rcd := recSetEpoch rec0 ((s.rxAct x + 1) % 65536)
  ((s.modPlan x fun p => { p with prop := some rcd, sends := 1, ctlRx := s.ctlNow x }).keepValid x ⟨rcd, 0, 0, List.replicate 128 0⟩).planSend x
    (msgPropose 1 rcd)

/-- PLAN_PROPOSE (R211, R214, R219). -/
def execPlanPropose (fn : Fn) (r : Nat) (s : State) : Host.Outcome State Fault Refusal :=
  command fn r 0x0105 s fun d data s =>
    let x := carOf (byteAt d 16)
    match s.planSource x d data, (s.car x).plan.inFlight with
    | none, _ => stop 11 5
    | some _, some e => stop 8 e
    | some rcd, none => (0, (s.rxAct x + 1) % 65536, fun s => s.propose x rcd)

/-- PROPOSE_RETRY (R211, R340): RETRY_MS without an answer; over Tack the timer starts when the last frame has left. -/
def execProposeRetry (x : Carrier) (s : State) : Host.Outcome State Fault Refusal := live s fun s =>
  let p := (s.car x).plan
  match p.prop with
  | some rcd =>
    if s.tkSending x 4 0x31 then s
    else if p.sends < 3 then
      (s.modPlan x fun p => { p with sends := p.sends + 1 }).planSend x (msgPropose (p.sends + 1) rcd)
    else
      let s := (s.modPlan x fun p => { p with
        prop := none, sends := 0, valid := p.valid.filter fun m => recEpoch m.body != recEpoch rcd }).planUnqueue x 0x31
      (s.bumpx .CAR_PLAN_FAIL x).planEv x 0x0704 (recEpoch rcd)
  | none => s

/-- The receive side of a local apply: RESULT of the rejection, or the new state (R214). -/
def State.localRx (s : State) (x : Carrier) (m : PlanMsg) : Except Nat State :=
  let n := 2 * x.num + 1
  let r := s.rdAfter [n]
  let vals := s.rxPlanVals r x m
  let new := overRd r vals
  let k (y : Carrier) : Nat := if y = x then recSlots m.body else recSlots (s.rxRecord new y)
  let q : Chk := ⟨s.rd, new, dedupKeys (s.regs.active.map (·.1) ++ s.regs.staged.map (·.1) ++ vals.map (·.1)),
    recSlots (s.txRecord new .A), recSlots (s.txRecord new .B), k .A, k .B, mapChans m.map⟩
  match s.rejects [n] .mf (some m.target) (some (vals, q)) with
  | some v => .error v
  | none => .ok (((s.pendRx x m).planEv x 0x0706 (recEpoch m.body)).watchCheck x)

/-- Both sides of a local apply, the transmit side first (R214); the receive side's MAP is that of the transmit side. -/
def State.planLocal (s : State) (x : Carrier) (sides target : Nat) (tx rx : Bytes) : Except Nat State :=
  match (if bit sides 0 then s.planGo x tx (some target) false (s.ctlNow x) else .ok s) with
  | .error v => .error v
  | .ok t =>
    if !bit sides 1 then .ok t else
    match (t.car x).plan.txPend, bit sides 0 with
    | some m, true => t.localRx x ⟨rx, target, m.flags % 16, m.map⟩
    | _, _ => t.localRx x ⟨rx, target, 0, List.replicate 128 0⟩

/-- PLAN_LOCAL (R214): 18 sides, 32 target; nothing is sent. -/
def execPlanLocal (fn : Fn) (r : Nat) (s : State) : Host.Outcome State Fault Refusal :=
  command fn r 0x0107 s fun d data s =>
    let x := carOf (byteAt d 16)
    let target := leAt d 32 7
    let sides := byteAt d 18
    match s.planSource x d data with
    | none => stop 11 5
    | some rec0 =>
      let tx := recSetEpoch rec0 ((s.txAct x + 1) % 65536)
      let rx := recSetEpoch rec0 ((s.rxAct x + 1) % 65536)
      let rxBad : Option (Nat × Nat) :=
        if !bit sides 1 then none
        else match (s.car x).plan.inFlight with
          | some e => some (8, e)
          | none =>
            if !recValid rx (s.cfx F.CAR_RXC_CTL_SC_LOG2 x) (s.cfx F.CAR_RXC_RATE_KBD x) then some (11, 4) else none
      match (if bit sides 0 then s.pushCheck x tx else none), rxBad with
      | some (a, b), _ => stop a b
      | none, some (a, b) => stop a b
      | none, none =>
        match s.planLocal x sides target tx rx with
        | .error v => stop 1 v
        | .ok _ => (0, recEpoch (if bit sides 0 then tx else rx), fun s =>
          match s.planLocal x sides target tx rx with
          | .ok t => t
          | .error _ => s)

/-- Start a query for an epoch (R222). -/
def State.planQuery (s : State) (x : Carrier) (e : Nat) : State :=
  match (s.car x).plan.query with
  | some (f, _) => if f = e then s else (s.modPlan x fun p => { p with query := some (e, 1) }).planSend x (msgQuery 1 e)
  | none => (s.modPlan x fun p => { p with query := some (e, 1) }).planSend x (msgQuery 1 e)

/-- A query is answered; a plan-lost defect that unanswered queries raised ends with it once alignment is there. -/
def State.queryDone (s : State) (x : Carrier) : State :=
  let s := (s.modPlan x fun p => { p with query := none }).planUnqueue x 0x35
  if (s.car x).plan.recov.isNone ∧ (s.car x).tr.st ≠ .hunt then s.planFound x else s

/-- QUERY_RETRY (R222). -/
def execQueryRetry (x : Carrier) (s : State) : Host.Outcome State Fault Refusal := live s fun s =>
  match (s.car x).plan.query with
  | some (e, n) =>
    if (s.car x).plan.lost then s
    else if n < 3 then (s.modPlan x fun p => { p with query := some (e, n + 1) }).planSend x (msgQuery (n + 1) e)
    else s.planLost x
  | none => s

/-- PLAN_LOST_QUERY (R222): every second while plan lost stands. -/
def execPlanLostQuery (x : Carrier) (s : State) : Host.Outcome State Fault Refusal := live s fun s =>
  let p := (s.car x).plan
  if p.lost then
    let e := (p.query.map (·.1)).getD ((s.rxAct x + 1) % 65536)
    (s.modPlan x fun p => { p with query := some (e, 3) }).planSend x (msgQuery 1 e)
  else s

/-- The receive values take effect directly (cold apply, recovery): record, rate, pilot; the decoder decodes at the new
rate (R220, R221). -/
def State.usePlan (s : State) (x : Carrier) (m : PlanMsg) : State :=
  let s := s.setFieldx F.CAR_FEC_CTL_RATE x 0 (recRate m.body)
  let s := s.setFieldx F.CAR_RXC_CTL_PILOT x 0 (recPilot m.body)
  let pilot := s.cfx F.CAR_RXC_CTL_PILOT x
  let s := s.modRxc x fun c => { c with pilot := pilot, winOk := false }
  let s := s.modFec x fun f => { f with actRate := recRate m.body, watch := none }
  s.modPlan x fun p => { p with rxRec := m.body }

/-- What follows an applied plan at either end: the shed map, channels shed or restored and their events (R223, R225,
R226). A copy that was one of two leaves the channel running on the other. -/
def State.planShedDone (s : State) (x : Carrier) (m : PlanMsg) : State :=
  let chs := mapChans m.map
  let e := recEpoch m.body
  let s := s.modPlan x fun p => { p with shedMap := m.map }
  if bit m.flags 0 then
    chs.foldl (fun s c =>
      let s := match placeOf s.rd c with
        | .prot => s
        | .one y => if y = x then s.modChan c fun h => { h with shed := true } else s
        | _ => s.modChan c fun h => { h with shed := true }
      (s.bumpx .CAR_PLAN_SHED_CNT x).planEv x 0x070B e c) s
  else if bit m.flags 1 then chs.foldl (fun s c => s.modChan c fun h => { h with shed := false }) s
  else s

/-- Report an applied plan (R217, R226). -/
def State.planApplied (s : State) (x : Carrier) (e : Nat) : State := (s.bumpx .CAR_PLAN_APPLIED x).planEv x 0x0707 e

/-- Slots of a receive map among replaced values that channel `c` held on carrier `y`. -/
def slotsIn (u : Tab RegKey (Word × Word)) (y : Carrier) (c : Nat) : Nat :=
  (u.filter fun e => e.1.carNo == y.num && bits e.2.1 15 15 == 1 && bits e.2.1 9 0 == c).length

/-- A receive plan has become active (R217): `undo` what its slot map replaced. Channels that it takes out of the receive maps
are kept for restoring (R225). -/
def State.rxPlanDone (s : State) (x : Carrier) (m : PlanMsg) (undo : Tab RegKey (Word × Word)) : State :=
  let old : PlanMsg := ((s.car x).plan.lastRx).getD ⟨s.rxRecord s.rd x, 0, 0, List.replicate 128 0⟩
  let undo := overVals undo (s.car x).plan.sideUndo
  let all := overVals undo (((s.car x).plan.side.map fun e => undoVals s.rd e.2).getD [])
  let chs := mapChans m.map
  let saved : List ShedCh := if bit m.flags 0 then
    chs.map fun c => ⟨c, slotsIn all .A c, slotsIn all .B c, slotsIn all x.other c != 0⟩ else []
  let s := (s.planShedDone x m).modPlan x fun p => { p with
    rxPend := none, rxRec := m.body, prevRx := some old, lastRx := some m, appliedAt := some (s.car x).tr.mfc, undo := undo
    eqRun := 0, mismRun := 0, took := [], sideUndo := []
    rxShed := saved ++ (if bit m.flags 1 then p.rxShed.filter (fun h => !chs.contains h.ch) else p.rxShed) }
  (s.planApplied x (recEpoch m.body)).chEvalAll

/-- Apply a plan cold (R220, R222), at the carrier's symbol-frame boundary. It ends a recovery, whose candidates it
replaces (DEDUCED, log 94). -/
def State.coldApply (s : State) (x : Carrier) (m : PlanMsg) : State :=
  let v := s.rxMapVals s.rd x m
  let undo := undoVals s.rd v
  let s := (s.applyVals v).usePlan x m
  (s.modPlan x fun p => { p with recov := none }).rxPlanDone x m undo

/-- A pending transmit plan has become active at its target (R217, R223 to R225); `old` the values before it. -/
def State.txPlanDone (s : State) (old : Rd) (x : Carrier) (m : PlanMsg) : State :=
  let chs := mapChans m.map
  let saved : List ShedCh := if bit m.flags 0 then
    (sortKey (shedKey old) chs).map fun c => ⟨c, slotsOf old c .A, slotsOf old c .B, F.CLI_CH_SLOTS_BOND.on old c⟩
    else []
  let s := (s.planShedDone x m).modPlan x fun p => { p with
    txPend := none, txRec := m.body, lastCommit := some m
    shedList := saved.reverse ++ (if bit m.flags 1 then p.shedList.filter (fun h => !chs.contains h.ch)
      else p.shedList) }
  (s.planApplied x (recEpoch m.body)).chEvalAll

/-- Enter recovery (R221): the next symbol-frame boundary swaps to the candidate that is not in use. -/
def State.recover (s : State) (x : Carrier) (prev next : PlanMsg) (onNew : Bool) : State :=
  (s.unarm x).modPlan x fun p => { p with 
    recov := some ⟨prev, next, onNew, 0, if onNew then p.undo else [], false, onNew⟩, appliedAt := none }

/-- Apply the recovery candidate that is not in use: its record and its slot map (R221). -/
def State.recovUse (s : State) (x : Carrier) (v : Recov) : State :=
  let m := if v.onNew then v.prev else v.next
  let vals := if v.onNew then v.back else s.rxMapVals s.rd x v.next
  let back := if v.onNew then [] else undoVals s.rd vals
  let s := ((s.applyVals vals).usePlan x m).modPlan x fun p => { p with
    recov := some { v with onNew := !v.onNew, swaps := v.swaps + 1, back := back, due := false } }
  s.planEv x 0x0709 (recEpoch m.body)

/-- What the record that recovery ends with sheds or restores, where that differs from what has been reported. -/
def State.recovShed (s : State) (x : Carrier) (v : Recov) : State :=
  let put (b : Bool) (s : State) : State := (mapChans v.next.map).foldl (fun s c =>
    s.modChan c fun h => { h with shed := b }) s
  if v.onNew then (if v.told then s else s.planShedDone x v.next)
  else if !v.told then s
  else if bit v.next.flags 0 then put false s
  else if bit v.next.flags 1 then put true s
  else s

/-- Recovery ends with the candidate in use (R221 step 2). -/
def State.recovEnd (s : State) (x : Carrier) : State :=
  match (s.car x).plan.recov with
  | some v =>
    let s := s.modPlan x fun p => { p with recov := none, lastRx := some (if v.onNew then v.next else v.prev) }
    ((s.recovShed x v).chEvalAll).planFound x
  | none => s

/-- Swap recovery candidates (R221 steps 1, 3 and 4); after 8 swaps the newer one stays. -/
def State.recovSwap (s : State) (x : Carrier) : State :=
  match (s.car x).plan.recov with
  | some v =>
    if v.swaps < 8 then s.recovUse x v else
    let s := if v.onNew then s else (s.applyVals (s.rxMapVals s.rd x v.next)).usePlan x v.next
    let s := s.modPlan x fun p => { p with recov := none, lastRx := some v.next }
    ((s.recovShed x { v with onNew := true }).chEvalAll).planLost x
  | none => s

/-- The candidate that ACT_EPOCH named applies at a received multiframe boundary, and recovery ends (R221 step 2). -/
def State.recovDue (s : State) (x : Carrier) : State :=
  match (s.car x).plan.recov with
  | some v => if v.due then (s.recovUse x v).recovEnd x else s
  | none => s

/-- ACT_EPOCH read in recovery with frame alignment: it ends recovery, or names the other candidate, or an epoch of no
valid plan, for which it queries (R221 step 2, R222). -/
def State.recovAnn (s : State) (x : Carrier) (act : Nat) : State :=
  match (s.car x).plan.recov with
  | some v =>
    let cur := if v.onNew then v.next else v.prev
    let oth := if v.onNew then v.prev else v.next
    if act = recEpoch cur.body then s.recovEnd x
    else if act = recEpoch oth.body then s.modPlan x fun p => { p with recov := some { v with due := true } }
    else if (s.car x).plan.valid.any (fun m => recEpoch m.body == act) then s
    else s.planQuery x act
  | none => s

/-- PLAN_RECOVERY_SWAP (R221): RETRY_MS has passed in recovery. Without frame alignment the candidates swap; with it
ACT_EPOCH decides. -/
def execPlanRecoverySwap (x : Carrier) (s : State) : Host.Outcome State Fault Refusal := live s fun s =>
  match (s.car x).plan.recov with
  | some v =>
    let p := (s.car x).plan
    if v.swaps = 0 ∨ (s.car x).tr.st = .hunt then s.recovSwap x
    else if 1 ≤ p.annRun then s.recovAnn x (beAt p.ann 0 2)
    else s
  | none => s

/-- Frame alignment is lost (R221, R222). -/
def State.planAlignLost (s : State) (x : Carrier) : State :=
  let p := (s.car x).plan
  match p.recov, p.appliedAt, p.prevRx, p.lastRx with
  | some _, _, _, _ => s
  | none, some t, some a, some b =>
    if (s.car x).tr.mfc ≤ t + 64 then s.recover x a b true
    else if p.rxPend.isNone then s.planQuery x ((s.rxAct x + 1) % 65536)
    else s
  | none, _, _, _ => if p.rxPend.isNone then s.planQuery x ((s.rxAct x + 1) % 65536) else s

/-- Frame alignment returns: plan lost clears outside recovery (R221). -/
def State.planAlignBack (s : State) (x : Carrier) : State :=
  (if (s.car x).plan.recov.isNone then s.planFound x else s).planFlush x

/-- Bytes of an announcement field (R215). -/
def annPend (a : Bytes) : Bool := bit (byteAt a 6) 0

/-- A valid plan is held for this epoch, or it is active (R216, R222). -/
def State.holdsPlan (s : State) (x : Carrier) (e : Nat) : Bool :=
  e == s.rxAct x || (s.car x).plan.valid.any fun m => recEpoch m.body == e

/-- Query for the first of these epochs without a valid plan, unless a query for one of them is under way (R222). -/
def State.queryFor (s : State) (x : Carrier) (l : List Nat) : State :=
  let miss := l.filter fun e => !s.holdsPlan x e
  match miss with
  | [] => s
  | e :: _ => if ((s.car x).plan.query.map (·.1)).any miss.contains then s else s.planQuery x e

/-- Four good frames carried the announcement `a`, most significant byte first (R215, R216, R218, R222). -/
def State.annSeen (s : State) (x : Carrier) (a : Bytes) : State :=
  let act := beAt a 0 2
  let e := beAt a 2 2
  let p := (s.car x).plan
  if p.recov.isSome then s.recovAnn x act
  else if annPend a then
    let s := if e = s.rxAct x then s else
      match p.valid.find? (fun m => recEpoch m.body == e) with
      | some m =>
        let c := (s.car x).tr.mfc
        let t := c + 1 + (beAt a 4 2 + 65536 - (c + 1) % 65536) % 65536
        let armed := p.rxPend.any fun q => recEpoch q.body == e && q.target == t
        if armed ∨ c + 32768 < t then s else s.planArm x m t
      | none => if p.rxPend.isSome then s.planDrop x else s
    s.queryFor x [e, act]
  else
    let s := if p.rxPend.any (fun q => recEpoch q.body != act) then s.planDrop x else s
    if (s.car x).plan.rxPend.isNone then s.queryFor x [act] else s

/-- PLAN_ANNOUNCE_SEEN (R216, R218, R222): 4 consecutive good frames with the same bytes 0 to 6. -/
def execPlanAnnounceSeen (x : Carrier) (s : State) : Host.Outcome State Fault Refusal := live s fun s =>
  let p := (s.car x).plan
  if 4 ≤ p.annRun ∧ (s.car x).tr.st ≠ .hunt then s.annSeen x p.ann else s

/-- PLAN_COMMIT_RECEIVED (R216, R219, R220, R222): the message's 188 bytes, the oldest plan message that waits. A cold COMMIT
takes the place of an armed plan and of host commits. -/
def execPlanCommitReceived (x : Carrier) (msg : Bytes) (s : State) : Host.Outcome State Fault Refusal := live s fun s =>
  match s.planTake x 0x32 msg with
  | none => s
  | some s =>
  let rcd := recClean (recSwap (sub msg 4 48))
  let m : PlanMsg := ⟨rcd, beAt msg 52 7, byteAt msg 59 % 16, msg.drop 60⟩
  let e := recEpoch rcd
  let s := if (s.car x).plan.query.isSome then s.queryDone x else s
  if e = s.rxAct x then s
  else if bit m.flags 3 || (bit m.flags 2 && (s.car x).tr.st == .hunt) then
    let s := match (s.car x).plan.rxPend with
      | some q => if recEpoch q.body = e then s.unarm x else s.planDrop x
      | none => s
    let s := s.cancelHost (2 * x.num + 1)
    (s.modPlan x fun p => { p with cold := some m, prop := none, sends := 0 }).planUnqueue x 0x31
  else
    let s := s.keepValid x m
    if (s.car x).plan.rxPend.any (fun q => recEpoch q.body == e) then s.planRemap x m
    else if (s.car x).plan.recov.isSome then s
    else s.planArm x m m.target

/-- PLAN_REJECT_RECEIVED (R211, R226). -/
def execPlanRejectReceived (x : Carrier) (msg : Bytes) (s : State) : Host.Outcome State Fault Refusal := live s fun s =>
  match s.planTake x 0x33 msg with
  | none => s
  | some s =>
  let e := beAt msg 4 2
  let s := s.planRejected x e (byteAt msg 6)
  let s := if (s.car x).plan.query.map (·.1) = some e then s.queryDone x else s
  if (s.car x).plan.prop.map recEpoch = some e then
    (s.modPlan x fun p => { p with
      prop := none, sends := 0, valid := p.valid.filter fun m => recEpoch m.body != e }).planUnqueue x 0x31
  else s

/-- PLAN_ABORT_RECEIVED (R218). -/
def execPlanAbortReceived (x : Carrier) (msg : Bytes) (s : State) : Host.Outcome State Fault Refusal := live s fun s =>
  match s.planTake x 0x34 msg with
  | none => s
  | some s =>
  let e := beAt msg 4 2
  let p := (s.car x).plan
  if p.rxPend.any (fun m => recEpoch m.body == e) ∨ p.prop.map recEpoch = some e then s.planDrop x else s

/-- PLAN_QUERY_RECEIVED (R222). -/
def execPlanQueryReceived (x : Carrier) (msg : Bytes) (s : State) : Host.Outcome State Fault Refusal := live s fun s =>
  match s.planTake x 0x35 msg with
  | none => s
  | some s =>
  let e := beAt msg 4 2
  let p := (s.car x).plan
  match sameEpoch p.txPend e with
  | some m => s.planResend x m
  | none =>
    if e = s.txAct x then
      s.planResend x (p.lastCommit.getD ⟨s.txRecord s.rd x, 0, 0, List.replicate 128 0⟩) 8
    else s.planReject x e 2

/-- EPOCH_MISMATCH (R226): 64 frames in a row. -/
def execEpochMismatch (x : Carrier) (s : State) : Host.Outcome State Fault Refusal := live s fun s =>
  let p := (s.car x).plan
  let d := leBytes 2 (s.rxAct x)
  if 64 ≤ p.mismRun then s.raise 0x070C x.ev 0 d
  else if 64 ≤ p.eqRun then s.clear 0x070C x.ev 0 d
  else s

/-! ### Computation (R202 to R204, R211) -/

/-- Signed value of a pinch code. -/
def pinch (c : Nat) : Int := sgn 16 c

/-- SNR fields of the carrier's subcarriers; none when one is missing. -/
def State.snrCodes (s : State) (x : Carrier) : Option (List Int) :=
  let n := 2 ^ s.cfx F.CAR_RXC_CTL_SC_LOG2 x
  let l := (List.range n).map fun i => bits ((s.car x).rxc.noise.getD i (BitVec.ofNat 32 0x80008000)) 31 16
  if l.all isMeas then some (l.map pinch) else none

/-- The plan computation of R202 with a pilot code. -/
def State.compute (s : State) (x : Carrier) (pilot : Nat) : Option Bytes :=
  let mar := s.cfx F.CAR_PLAN_PARAM_MARGIN x
  match s.snrCodes x with
  | some l =>
    computePlan l pilot (s.cfx F.CAR_RXC_CTL_SC_LOG2 x) (s.cfx F.CAR_RXC_RATE_KBD x) (pinch mar)
      (s.cfx F.CAR_PLAN_PARAM_GAP x) (passPenalty (s.cfx F.CAR_FEC_CTL_MAX_PASS x + 1)) ((s.rxAct x + 1) % 65536)
  | none => none

/-- MODE proposes this record by itself (R211): on compute, or in automatic mode by HYST. -/
def State.autoPropose (s : State) (x : Carrier) (rcd : Bytes) : Bool :=
  let k := recSlots rcd
  let act := recSlots (s.rxRecord s.rd x)
  (s.car x).plan.inFlight.isNone && (match s.cfx F.CAR_PLAN_CTL_MODE x with
    | 1 => true
    | 2 => k < act || act + s.cfx F.CAR_PLAN_CTL_HYST x ≤ k
    | _ => false)

/-- Run a computation and keep, report and perhaps propose its record. -/
def State.computeNow (s : State) (x : Carrier) (pilot : Nat) : State :=
  match s.compute x pilot with
  | some rcd =>
    let s := (s.modPlan x fun p => { p with computed := some rcd }).planEv x 0x0701 (recEpoch rcd)
    if s.autoPropose x rcd then s.propose x rcd else s
  | none =>
    ((s.modPlan x fun p => { p with computed := none }).bumpx .CAR_PLAN_FAIL x).planEv x 0x0702
      ((s.rxAct x + 1) % 65536)

/-- A compute request is refused as busy (R202): a plan of this direction is proposed, armed or in recovery, or CAR_x_RX has
a pending commit. -/
def State.computeBusy (s : State) (x : Carrier) : Bool :=
  (s.car x).plan.inFlight.isSome || s.pending? (2 * x.num + 1)

/-- PLAN_COMPUTE (R202, R494). -/
def execPlanCompute (fn : Fn) (r : Nat) (s : State) : Host.Outcome State Fault Refusal :=
  command fn r 0x0104 s fun d _ s =>
    let x := carOf (byteAt d 16)
    let pilot := if byteAt d 17 = 0xFF then s.cfx F.CAR_RXC_CTL_PILOT x else byteAt d 17
    if s.computeBusy x then stop 2 0 else
    match s.compute x pilot with
    | some rcd => (0, recSlots rcd, fun s => s.computeNow x pilot)
    | none => (11, 1, fun s => s.computeNow x pilot)

/-- PLAN_INTERVAL (R202): each INTERVAL in automatic mode. -/
def execPlanInterval (x : Carrier) (s : State) : Host.Outcome State Fault Refusal := live s fun s =>
  if s.cfx F.CAR_PLAN_CTL_MODE x = 2 ∧ s.computeBusy x = false then s.computeNow x (s.cfx F.CAR_RXC_CTL_PILOT x) else s

/-! ### Cancel (R30, R218, R478) -/

/-- A plan commit pending at the proposer. -/
def rxPlanOf (c : Pend) : Option Nat :=
  match c.plan with
  | some (_, .rx, e) => some e
  | _ => none

/-- Cancel one pending commit: its record, and ABORT at the loaded end for a plan that was sent. -/
def State.cancelOne (s : State) (c : Pend) : State :=
  let s := (s.unpend (· == c)).occ 0x0103 0 0 (leBytes 2 (scopesMask c.scopes))
  match c.plan with
  | some (x, .tx, e) =>
    let local_ := (s.car x).plan.txPend.any fun m => 16 ≤ m.flags
    let s := s.modPlan x fun p => { p with txPend := none }
    (if local_ then s else s.planSend x (msgAbort e)).planEv x 0x0708 e
  | _ => s

/-- CANCEL (R30, R478). -/
def execCancel (fn : Fn) (r : Nat) (s : State) : Host.Outcome State Fault Refusal :=
  command fn r 0x0002 s fun d _ s =>
    let m := leAt d 16 2
    let hit := s.regs.pend.filter fun c => c.scopes.any (bit m)
    match hit.findSome? rxPlanOf with
    | some e => stop 9 e
    | none =>
      if hit = [] then stop 10 0 else
      (0, scopesMask (hit.flatMap (·.scopes)), fun s => hit.foldl (fun s c => s.cancelOne c) s)

end Sys2Proof.Machine
end

