-- ==== Sys2Proof/Machine/Symbols.lean ====
section
/-! DEFINITION. The symbol frame on the line, which both ends share (R113 to R118, R182 to R186): its layout, the known
symbols, the dither, the map from label bits to levels, the subcarriers' centre frequencies. -/

namespace Sys2Proof.Machine

/-- `n` bits of a PRBS generator xᵃ + xᵇ + 1 after the seed `w`: each bit generated enters as the least significant
(R115, R184; as the scrambler of R234, log 54). -/
def prbsSeq (a b w n : Nat) : List Bool :=
  match n with
  | 0 => []
  | n + 1 =>
    let x := bit w (a - 1) != bit w (b - 1)
    x :: prbsSeq a b ((w * 2 + b2n x) % 2 ^ a) n

/-! ### Layout and known symbols (R113 to R116) -/

/-- Symbols of a subcarrier in a symbol frame, with `n` subcarriers. -/
def symS (n : Nat) : Nat := 65536 / n
/-- Alignment symbols of a subcarrier. -/
def symA (n : Nat) : Nat := 256 / n

/-- QPSK symbols of a bit sequence: the first bit is the sign of I, the second that of Q (R115). -/
def qpsk (l : List Bool) : List (Int × Int) :=
  match l with
  | a :: b :: r => (1 - 2 * (b2n a : Int), 1 - 2 * (b2n b : Int)) :: qpsk r
  | _ => []

/-- The alignment sequence of X (`p` 0) or Y (R115). -/
def alignSeq (p : Nat) : List (Int × Int) := qpsk (prbsSeq 15 14 (if p = 0 then 0x7FFF else 0x2AAA) 512)

/-- Pilots of subcarrier `i` on polarisation `p` (R115). -/
def pilotSeq (i p count : Nat) : List (Int × Int) := qpsk (prbsSeq 15 14 (0x4000 + 2 * i + p) (2 * count))

/-- Signs of a subcarrier's symbols in order of index j: alignment block, then a pilot at every `d`-th symbol; none for
payload (R113, R115). -/
def knownSyms (n d i p : Nat) : List (Option (Int × Int)) :=
  let a := symA n
  let rest := symS n - a
  let pil := pilotSeq i p ((rest + d - 1) / d)
  (((alignSeq p).drop (i * a)).take a).map some ++
    (pil.flatMap fun s => some s :: List.replicate (d - 1) none).take rest

/-! ### Subcarriers (R118) -/

/-- f_i in Hz as a fraction over 128: (i − (n − 1)/2) (1 + β) Rs / n, β in 1/64. -/
def scFreq (n roll kbd i : Nat) : Int × Nat :=
  ((2 * (i : Int) - (n - 1 : Nat)) * (64 + roll : Nat) * (kbd * 1000 : Nat), 128 * n)

/-! ### Dither and map (R184 to R186) -/

/-- Numbers of 16 bits, the first bit the most significant. -/
def words16 (l : List Bool) (n : Nat) : List Nat :=
  match n with
  | 0 => []
  | n + 1 => bitsNat (l.take 16).reverse :: words16 (l.drop 16) n

/-- The dither of subcarrier `i`, polarisation `p`, dimension `d`, for `count` payload symbols (R184). -/
def dither (i p d count : Nat) : List Nat := words16 (prbsSeq 23 18 (0x400000 + 4 * i + 2 * p + d) (16 * count)) count

/-- The thresholds C_k of an entropy (R183). -/
def cdfs (e : Nat) : List Nat := (List.range (bandLevels (bandB e)).length).map (cdf e)

/-- Gray decoding of a label (R185). -/
def grayIndex (l : Nat) : Nat := l ^^^ (l / 2) ^^^ (l / 4)

/-- The level that a label of `b` bits is sent on with dither `u`: that of the smallest k with i × 65,536 + u below
2^b × C_k (R185). -/
def mapLevel (b : Nat) (c : List Nat) (l u : Nat) : Int :=
  let k := (c.takeWhile fun v => 2 ^ b * v ≤ grayIndex l * 65536 + u).length
  (bandLevels b).getD k 0

/-- The mean square level of a dimension under thresholds `c`, times 65,536 (R186). -/
def meanSquare (b : Nat) (c : List Nat) : Nat :=
  ((indexed (bandLevels b)).foldl (fun a e =>
    a + (c.getD e.1 0 - (if e.1 = 0 then 0 else c.getD (e.1 - 1) 0)) * (e.2 * e.2).toNat) 0)

/-- Amplitude of the components of alignment symbols and pilots, in levels (R116, R186). -/
def knownAmp (e : Nat) : Int := fsqrt (frat (meanSquare (bandB e) (cdfs e)) 65536)

/-- Number of a list of label bits, the first bit the most significant (R185). -/
def labelOf (l : List Bool) : Nat := bitsNat l.reverse

end Sys2Proof.Machine
end

