-- ==== Sys2Proof/Machine/Demod.lean ====
section
/-! DEFINITION. The receive core on the samples that State holds (R117 to R140): timing interpolation and filter bank,
alignment correlation, 2×2 equaliser with its adaptation, phase recovery, sums over known symbols, LLRs. What the spec
leaves open in its loops and detectors is free (log 54). -/

namespace Sys2Proof.Machine

/-! ### Filter bank (R118, R121) -/

/-- What the receive core's stages need of the settings: subcarriers, roll-off code, pilot spacing, symbol rate in kBd, taps
per filter, MU, whether taps adapt, whether the core is LOCKED, ADAPT_ERASE, STEP, entropies. -/
structure RxSet where
  n     : Nat
  roll  : Nat
  d     : Nat
  kbd   : Nat
  taps  : Nat
  mu    : Nat
  adapt : Bool
  lock  : Bool
  erase : Nat
  step  : Nat
  ents  : List Nat
  bw    : Nat
deriving DecidableEq, Repr

/-- The input sample number `k`; zero where State holds none. -/
def Rxc.sample (c : Rxc) (k : Int) : CoreSmp :=
  if k < c.inpAt then ⟨cx0, cx0, 0⟩ else c.inp.getD (k - c.inpAt).toNat ⟨cx0, cx0, 0⟩

/-- X and Y of subcarrier `i` at a time in 2⁻³² samples, with a frequency correction of `freq` kHz: mixed to its centre,
filtered with the root-raised cosine and interpolated in one sum over 32 symbols on each side (R118, R121, R131). -/
def Rxc.scAt (c : Rxc) (q : RxSet) (i : Nat) (freq t : Int) : Cx × Cx :=
  let f := scFreq q.n q.roll q.kbd i
  let fn := f.1 + freq * 1000 * (f.2 : Int)
  let w := 40 * q.n
  let k0 := t / 2 ^ 32
  let r := (List.range (2 * w)).foldl (fun (a : Cx × Cx) (j : Nat) =>
    let k : Int := k0 - w + 1 + j
    let s := c.sample k
    let g := cscale (rrc q.roll (4 * (t - k * 2 ^ 32)) (5 * q.n * 2 ^ 32)) (cturn (-(fn * k * 4)) (f.2 * 5 * q.kbd * 1000))
    (cadd a.1 (cmul s.x g), cadd a.2 (cmul s.y g))) (cx0, cx0)
  (crat 4 (5 * q.n) r.1, crat 4 (5 * q.n) r.2)

/-- Half a subcarrier symbol in 2⁻³² samples, for a clock offset in ppb (R121, R124). -/
def halfSym (n : Nat) (ppb : Int) : Int := 5 * n * 2 ^ 32 * 1000000000 / (8 * (1000000000 + ppb))

/-- Half-symbol samples of subcarrier `i` from index −32 on, for a symbol frame that starts at `t`. -/
def Rxc.halves (c : Rxc) (q : RxSet) (i : Nat) (freq ppb t : Int) : List (Cx × Cx) :=
  (List.range (2 * symS q.n + 64)).map fun (h : Nat) => c.scAt q i freq (t + ((h : Int) - 32) * halfSym q.n ppb)

/-! ### Alignment detector (R131, R135) -/

/-- The alignment detector's sum at a time and frequency hypothesis: both inputs against both sequences, magnitudes summed,
over all subcarriers; and the energy of the same samples. -/
def Rxc.alignMetric (c : Rxc) (q : RxSet) (freq t : Int) : Int × Int :=
  let a := symA q.n
  let all := (List.range q.n).flatMap fun i => (List.range a).map fun (j : Nat) =>
    (i * a + j, c.scAt q i freq (t + 2 * (j : Int) * halfSym q.n 0))
  let corr (y : Bool) (p : Nat) : Int :=
    let seq := alignSeq p
    fsqrt (cnorm (csum (all.map fun e =>
      let s := seq.getD e.1 (1, 1)
      cmul (if y then e.2.2 else e.2.1) (s.1 * fone, -(s.2 * fone)))))
  (corr false 0 + corr false 1 + corr true 0 + corr true 1, fsum (all.map fun e => cnorm e.2.1 + cnorm e.2.2))

/-- The settings in force in a carrier's receive core. -/
def State.rxSet (s : State) (x : Carrier) : RxSet :=
  let n := 2 ^ s.cfx F.CAR_RXC_CTL_SC_LOG2 x
  ⟨n, s.cfx F.CAR_RXC_CTL_ROLLOFF x, pilotD (s.car x).rxc.pilot, s.cfx F.CAR_RXC_RATE_KBD x,
    s.cfx F.CAR_RXC_CTL_TAPS x, s.cfx F.CAR_RXC_CTL_MU x, s.cfx F.CAR_RXC_CTL_EQ_MODE x == 0,
    (s.car x).rxc.st == .locked, s.cfx F.CAR_RXC_LLR_ADAPT_ERASE x, s.cfx F.CAR_RXC_LLR_STEP x,
    (List.range n).map (recE (s.rxRecord s.rd x)), s.cfx F.CAR_RXC_CTL_TIM_BW x⟩

/-- The detector sees an alignment block at a sample time and hypothesis; where State holds no sample it is the command that
tells of one. -/
def State.alignSeen (s : State) (x : Carrier) (t : Nat) (hyp : Int) : Bool :=
  let c := (s.car x).rxc
  if c.inp = [] then true else
  let m := c.alignMetric (s.rxSet x) (hyp * 250000) (t * 2 ^ 32)
  Config.alignHit m.1 m.2

/-! ### 2×2 equaliser (R124, R125, R130) -/

/-- A filter's output around half-symbol `h`: tap `k` takes the sample `T/2 − k` halves later (R124). -/
def firAt (taps : List Cx) (l : List Cx) (h : Int) : Cx :=
  csum ((indexed taps).map fun e => cmul e.2 (ctapAt l (h + (taps.length / 2 : Nat) - e.1)))

/-- A filter after an LMS step: error `e`, step 2^−MU (R125). -/
def lmsStep (mu : Nat) (e : Cx) (taps l : List Cx) (h : Int) : List Cx :=
  (indexed taps).map fun t =>
    cadd t.2 (crat 1 (2 ^ mu) (cmul e (conj (ctapAt l (h + (taps.length / 2 : Nat) - t.1)))))

/-- Amplitude of a known component: symbols of energy one. -/
def refAmp : Int := fsqrt (fone / 2)

/-- A known symbol. -/
def refSym (s : Int × Int) : Cx := (s.1 * refAmp, s.2 * refAmp)

/-- The nearest level of a component (R125). -/
def decide1 (e : Nat) (y : Int) : Int :=
  let unit := fdiv refAmp (knownAmp e)
  let l := (bandLevels (bandB e)).map (· * unit)
  l.foldl (fun a v => if (y - v).natAbs < (y - a).natAbs then v else a) (l.headD 0)

/-- The equaliser of one subcarrier while it runs through a symbol frame: taps, phase of X and Y, outputs newest first. -/
structure EqRun where
  taps  : List (List Cx)
  ph    : Cx × Cx
  outs  : List (Cx × Cx)
deriving DecidableEq, Repr

/-- One polarisation's target: a known symbol, or in LOCKED the decision, turned by the phase in force, which is that of the
known symbol before (R125, log 54). -/
def eqTarget (q : RxSet) (e : Nat) (known : Option (Int × Int)) (ph out : Cx) : Option Cx :=
  match known with
  | some s => some (cmul (refSym s) ph)
  | none =>
    if q.lock then
      let z := cmul out (conj ph)
      some (cmul (decide1 e z.1, decide1 e z.2) ph)
    else none

/-- One symbol through the equaliser: `f` is the erased fraction of its block (R124, R125, R130). -/
def EqRun.sym (r : EqRun) (q : RxSet) (e : Nat) (xs ys : List Cx) (j f : Nat) (kx ky : Option (Int × Int)) : EqRun :=
  let h : Int := 2 * j + 32
  let t (k : Nat) := r.taps.getD k []
  let ox := cadd (firAt (t 0) xs h) (firAt (t 1) ys h)
  let oy := cadd (firAt (t 2) xs h) (firAt (t 3) ys h)
  let use := decide (f ≤ q.erase)
  let turn (k : Option (Int × Int)) (o ph : Cx) : Cx := match k with
    | some s => if use then cunit (cmul o (conj (refSym s))) else ph
    | none => ph
  let ph := (turn kx ox r.ph.1, turn ky oy r.ph.2)
  let err (k : Option (Int × Int)) (ph o : Cx) : Cx := match eqTarget q e k ph o with
    | some g => if q.adapt && use then csub g o else cx0
    | none => cx0
  let ex := err kx r.ph.1 ox
  let ey := err ky r.ph.2 oy
  { taps := [lmsStep q.mu ex (t 0) xs h, lmsStep q.mu ex (t 1) ys h, lmsStep q.mu ey (t 2) xs h, lmsStep q.mu ey (t 3) ys h]
    ph := ph, outs := (ox, oy) :: r.outs }

/-! ### Phase (R132, R133) -/

/-- A symbol for phase recovery: the equaliser's output, the known symbol where it is one, and whether its block's erased
fraction lets it take part (R130). -/
structure PhSym where
  out   : Cx
  known : Option (Int × Int)
  use   : Bool
deriving DecidableEq, Repr

/-- The decision-directed phase, in turns from the pilot before, over symbols that take part (R132). -/
def ddPhase (l : List PhSym) : Int := Config.phaseFine ((l.filter (·.use)).map (·.out))

/-- The phase of symbol `k` of `d` after a pilot of phase `a` and before one of phase `b`: interpolated, and refined by the
decision-directed phase `dd`, whose end `de` the interpolation stands for (R132). -/
def phaseAt (a b : Cx) (k d : Nat) (dd de : Int) : Cx :=
  cmul (cunit (cadd (crat ((d : Int) - k) d a) (crat k d b))) (cturn (dd - de * k / d) (2 ^ 96))

/-- Two phases differ by more than π/4. -/
def phaseFar (a b : Cx) : Bool := let z := cmul a (conj b); decide (z.1 < z.2.natAbs)

/-- The symbols of a polarisation after phase recovery, and the slips counted (R132, R133): between two pilots the phase is
interpolated and refined by decisions; where the pilot lies more than π/4 from the decision-directed phase, that phase
stands up to the pilot, which realigns it, as it does after the last pilot of the frame. `last` is the phase at the pilot
before, `pend` the symbols since it, newest first. -/
def phaseRun (last : Cx) (pend l : List PhSym) : List Cx × Nat :=
  let p := pend.reverse
  let dd (k : Nat) : Int := ddPhase (p.take k)
  let alone := (indexed p).map fun e => cmul e.2.out (conj (cmul last (cturn (dd (e.1 + 1)) (2 ^ 96))))
  match l with
  | [] => (alone, 0)
  | o :: r =>
    match o.known, o.use with
    | some s, true =>
      let ph := cunit (cmul o.out (conj (refSym s)))
      let de := dd p.length
      let slip := phaseFar ph (cmul last (cturn de (2 ^ 96)))
      let n := p.length + 1
      let flush := if slip then alone else
        (indexed p).map fun e => cmul e.2.out (conj (phaseAt last ph (e.1 + 1) n (dd (e.1 + 1)) de))
      let rest := phaseRun ph [] r
      (flush ++ cmul o.out (conj ph) :: rest.1, rest.2 + b2n slip)
    | _, _ => phaseRun last (o :: pend) r

/-! ### Measurement (R138, R142) and LLRs (R138 to R140) -/

/-- What each known symbol between two others deviates from the mean of those (R142): linear changes of phase and gain fall
out. -/
def deviations (l : List Cx) : List Cx :=
  match l with
  | a :: b :: c :: r => csub b (crat 1 2 (cadd a c)) :: deviations (b :: c :: r)
  | _ => []

/-- Sums over known symbols of a symbol frame, each times the conjugate of what was sent, in their order. -/
def scSums (l : List Cx) : ScSum :=
  let e := deviations l
  ⟨l.length, fsum (l.map cnorm), e.length, fsum (e.map cnorm)⟩

/-- Add two sums. -/
def ScSum.join (a b : ScSum) : ScSum := ⟨a.n + b.n, a.yy + b.yy, a.m + b.m, a.ee + b.ee⟩

/-- Mean symbol energy and noise variance from sums over known symbols (R142). Noise of variance σ² on every symbol makes the
deviations' mean square 3/2 σ² (DESIGN CHOICE of the estimator, log 54). -/
def ScSum.meas (a : ScSum) : Nat × Nat :=
  if a.n = 0 ∨ a.m = 0 then (0, 0) else
  let v := 2 * a.ee / (3 * a.m)
  ((a.yy / a.n - v).toNat, v.toNat)

/-- Join lists of sums, subcarrier by subcarrier. -/
def joinSums (a b : List (ScSum × ScSum)) : List (ScSum × ScSum) :=
  if a = [] then b else (a.zip b).map fun e => (e.1.1.join e.2.1, e.1.2.join e.2.2)

/-- Max-log sum of exponents with the tabulated correction (R138). -/
def maxStar (l : List Int) : Int :=
  match l with
  | [] => 0
  | a :: r => r.foldl (fun m v => max m v + Config.llrCorr (m - v).natAbs) a

/-- λ of label bit `k` of `b` (the first is the most significant) for a received component `y`, the dither `u`, the noise
variance `v` of the dimension: every label is sent on the level that the map gives it (R138, R185). -/
def bitLlr (b : Nat) (c : List Nat) (unit y v : Int) (u k : Nat) : Int :=
  let m (l : Nat) : Int :=
    let e := y - mapLevel b c l u * unit
    (0 : Int) - fdiv (fmul e e) (2 * max 1 v)
  let side (z : Bool) := ((List.range (2 ^ b)).filter fun l => bit l (b - 1 - k) == z).map m
  maxStar (side false) - maxStar (side true)

/-- The 5-bit value of an LLR (R139). -/
def llrQuant (step : Nat) (l : Int) : Int := clampI (-15) 15 (roundDiv (l * 32) (max 1 step * 2 ^ 96))

/-- The LLRs of one payload component. -/
def llrsOf (q : RxSet) (e : Nat) (c : List Nat) (unit v y : Int) (u : Nat) : List Int :=
  (List.range (bandB e)).map fun k => llrQuant q.step (bitLlr (bandB e) c unit y v u k)

/-- A subcarrier's symbol frame: taps and phase after it, all its symbols after phase recovery, those of the payload with their
erased fractions, sums, slips, and what the timing and frequency loops take of it. -/
structure ScFrame where
  taps  : List (List Cx)
  ph    : Cx × Cx
  all   : List (Cx × Cx)
  syms  : List (Cx × Cx × Nat)
  sums  : ScSum × ScSum
  slips : Nat
  known : List (Cx × Cx)
  half  : List (Cx × Cx)
deriving DecidableEq, Repr

/-- The symbols that are not known. -/
def payloadOf {α : Type} (l : List (α × Option (Int × Int))) : List α := l.filterMap fun e =>
  match e.2 with
  | none => some e.1
  | some _ => none

/-- Subcarrier `i` of the symbol frame that runs (R117). -/
def Rxc.scFrame (c : Rxc) (q : RxSet) (i : Nat) : ScFrame :=
  let hs := c.halves q i c.freq c.clk c.framePos
  let xs := hs.map (·.1)
  let ys := hs.map (·.2)
  let kx := knownSyms q.n q.d i 0
  let ky := knownSyms q.n q.d i 1
  let er (j : Nat) : Nat := (c.sample ((c.framePos + 2 * (j : Int) * halfSym q.n c.clk) / 2 ^ 32)).f
  let e := q.ents.getD i 256
  let r0 : EqRun := ⟨c.taps.getD i [], c.phase.getD i ((fone, 0), (fone, 0)), []⟩
  let r := (indexed (kx.zip ky)).foldl (fun (r : EqRun) k => r.sym q e xs ys k.1 (er k.1) k.2.1 k.2.2) r0
  let outs := r.outs.reverse
  let use (j : Nat) : Bool := decide (er j ≤ q.erase)
  let syms (o : List Cx) (k : List (Option (Int × Int))) : List PhSym := (indexed (o.zip k)).map fun a => ⟨a.2.1, a.2.2, use a.1⟩
  let sx := syms (outs.map (·.1)) kx
  let sy := syms (outs.map (·.2)) ky
  let px := phaseRun r0.ph.1 [] sx
  let py := phaseRun r0.ph.2 [] sy
  let all := px.1.zip py.1
  let prod (l : List PhSym) : List Cx := l.filterMap fun a => match a.known, a.use with
    | some s, true => some (cmul a.out (conj (refSym s)))
    | _, _ => none
  { taps := r.taps, ph := r.ph, all := all
    syms := payloadOf (((indexed all).map fun k => (k.2.1, k.2.2, er k.1)).zip kx)
    sums := (scSums (prod sx), scSums (prod sy)), slips := px.2 + py.2
    known := (prod sx).zip (prod sy)
    half := ((indexed (hs.drop 32)).filter fun h => use (h.1 / 2)).map (·.2) }

/-- The subcarriers of the symbol frame that runs. -/
def Rxc.scFrames (c : Rxc) (q : RxSet) : List ScFrame := (List.range q.n).map (c.scFrame q)

/-- The LLRs of a symbol frame in the order of R140, each with the erased fraction of its block: `noise` are the noise
variances of each subcarrier's X and Y. -/
def frameLlrs (q : RxSet) (fr : List ScFrame) (noise : List (Nat × Nat)) : List (Int × Nat) :=
  let per := (indexed fr).map fun k =>
    let e := q.ents.getD k.1 256
    let c := cdfs e
    let unit := fdiv refAmp (knownAmp e)
    let n := k.2.syms.length
    let u (p d : Nat) := dither k.1 p d n
    let v := noise.getD k.1 (0, 0)
    let one (p : Nat) (z : Cx) (j : Nat) : List Int :=
      let w : Int := ((if p = 0 then v.1 else v.2) / 2 : Nat)
      llrsOf q e c unit w z.1 ((u p 0).getD j 0) ++ llrsOf q e c unit w z.2 ((u p 1).getD j 0)
    (indexed k.2.syms).map fun s => (one 0 s.2.1 s.1 ++ one 1 s.2.2.1 s.1).map fun l => (l, s.2.2.2)
  (List.range ((per.headD []).length)).flatMap fun j => per.flatMap fun l => l.getD j []

/-- Bandwidth of the timing loop in Hz (R121). -/
def timHz (bw : Nat) : Nat :=
  match bw with
  | 0 => 100000
  | 1 => 300000
  | 2 => 1000000
  | _ => 3000000

/-- The receive core after the symbol frame `fr` of State's samples, with what the loops make of it (R117 to R142); its LLRs and
slips. -/
def Rxc.frame (c : Rxc) (q : RxSet) (fr : List ScFrame) : Rxc × List (Int × Nat) × Nat :=
  let sums := fr.map (·.sums)
  let nf := (sums :: c.noiseF).take 1024
  let noise := (nf.foldr joinSums []).map fun e => (e.1.meas.2, e.2.meas.2)
  let step := Config.loopStep (timHz q.bw) (fr.map fun f => (f.known, f.half, f.taps))
  let clk := c.clk + step.1
  let pos := (c.framePos : Int) + 2 * symS q.n * halfSym q.n c.clk + step.2.1
  let keep := (pos / 2 ^ 32 - 64 * 40 - c.inpAt).toNat
  ({ c with taps := fr.map (·.taps), phase := fr.map (·.ph), clk := clk, freq := c.freq + step.2.2, framePos := pos.toNat
            inp := c.inp.drop keep, inpAt := c.inpAt + Nat.min keep c.inp.length
            sums := joinSums c.sums sums, sums10 := joinSums c.sums10 sums, noiseF := nf },
   frameLlrs q fr noise, sumN (fr.map (·.slips)))

/-- The samples of the symbol frame that runs are all there, with those that its filters reach. -/
def Rxc.frameReady (c : Rxc) (n : Nat) : Bool :=
  c.inp != [] && decide (c.framePos / 2 ^ 32 + 81920 + 64 * 40 * n ≤ c.inpAt + c.inp.length)

end Sys2Proof.Machine
end

