-- ==== Sys2Proof/Machine/Code.lean ====
section
/-! DEFINITION. The code of R154 to R158: parity checks, syndrome test, encoder, interleaving. -/

namespace Sys2Proof.Machine

/-- Column `c` of a block's bits: lane z is bit z (R155). -/
def fecCol (b : BitVec 40320) (c : Nat) : Word := b.extractLsb' (32 * c) 32

/-- The information terms of row `j` from the block `tau` before (R156): `kb` its information columns, `mb` the rows of
the block that is checked. -/
def fecInfo (b : BitVec 40320) (kb mb tau j : Nat) : Word :=
  (List.range kb).foldl (fun a c => if (c + tau * (mb / 3)) % mb = j then
    a ^^^ (fecCol b c).rotateLeft ((c * (tau + 5) + 11 * tau) % 32) else a) 0

/-- The information terms of row `j` of a block at a rate; `before` are the one and two blocks before with their rates
(R156). -/
def fecTerms (b : BitVec 40320) (rate : Nat) (before : List (BitVec 40320 × Nat)) (j : Nat) : Word :=
  let mb := rateMb rate
  let prev (tau : Nat) : Word := match before[tau - 1]? with
    | some (p, r) => fecInfo p (rateKb r) mb tau j
    | none => 0
  fecInfo b (rateKb rate) mb 0 j ^^^ prev 1 ^^^ prev 2

/-- Row `j` of the checks of a block (R156). -/
def fecRow (b : BitVec 40320) (rate : Nat) (before : List (BitVec 40320 × Nat)) (j : Nat) : Word :=
  let kb := rateKb rate
  fecTerms b rate before j ^^^ fecCol b (kb + j) ^^^ (if j = 0 then 0 else fecCol b (kb + j - 1))

/-- Unsatisfied parity checks of a block at a rate. -/
def fecUnsat (b : BitVec 40320) (rate : Nat) (before : List (BitVec 40320 × Nat)) : Nat :=
  sumN ((List.range (rateMb rate)).map fun j => popcount 32 (fecRow b rate before j).toNat)

/-- The syndrome test: at least 53 % of the checks hold (R160). -/
def fecPass (b : BitVec 40320) (rate : Nat) (before : List (BitVec 40320 × Nat)) : Bool :=
  let n := 32 * rateMb rate
  53 * n ≤ 100 * (n - fecUnsat b rate before)

/-- The parity columns of a block, the first one least significant: a running XOR down each lane (R156). -/
def fecParity (b : BitVec 40320) (rate : Nat) (before : List (BitVec 40320 × Nat)) : Nat :=
  ((List.range (rateMb rate)).foldl (fun (a : Word × Nat) j =>
    let p := a.1 ^^^ fecTerms b rate before j
    (p, a.2 + p.toNat * 2 ^ (32 * j))) (0, 0)).2

/-- The block of K information bits (R155, R156). -/
def fecEncode (rate : Nat) (info : List Bool) (before : List (BitVec 40320 × Nat)) : BitVec 40320 :=
  let b : BitVec 40320 := BitVec.ofNat 40320 (bitsNat info)
  b ||| BitVec.ofNat 40320 (fecParity b rate before * 2 ^ (32 * rateKb rate))

/-- The information bits of a block, first bit first (R155). -/
def fecBits (b : BitVec 40320) (rate : Nat) : List Bool := (List.range (32 * rateKb rate)).map b.getLsbD

/-- A block's bits in stream order (R158). -/
def fecStream (b : BitVec 40320) : List Bool := (List.range 40320).map fun k => b.getLsbD ((19937 * k + 5040) % 40320)

/-- Stream position of bit `v`: 5,153 is the inverse of 19,937 (R158). -/
def streamPos (v : Nat) : Nat := 5153 * (v + 35280) % 40320

/-- What arrived in stream order, in the order of v. -/
def deinterleave (l : List Int) : List Int := (List.range 40320).map fun v => l.getD (streamPos v) 0

/-- Hard decisions of LLRs: 0 reads as bit 0 (R160). -/
def hardBits (l : List Int) : BitVec 40320 := BitVec.ofNat 40320 (bitsNat (l.map fun v => decide (v < 0)))

end Sys2Proof.Machine
end

