-- ==== Sys2Proof/Machine/Fec.lean ====
section
/-! DEFINITION. Line code, receive side: the parity checks, block lock, the decoder's window, rate watch and rate
mismatch, measurement intervals (chapter 05). -/

namespace Sys2Proof.Machine

/-! ### Block lock (R161, R162) -/

/-- The block of LLRs from stream position `k` on, as they arrived. -/
def Fec.lineAt (f : Fec) (k : Nat) : List (Int × Nat) := (f.llrs.drop k).take 40320

/-- Hard decisions of six blocks from a position on. -/
def Fec.sixAt (f : Fec) (pos : Nat) : List (BitVec 40320) :=
  (List.range 6).map fun k => hardBits (deinterleave ((f.lineAt (pos + 40320 * k)).map (·.1)))

/-- Rates at which the last four of six blocks pass the test, each with the two before it (R160, R161). -/
def lockRates (l : List (BitVec 40320)) : List Nat :=
  if l.length ≠ 6 then [] else
  (List.range 8).filter fun r => (List.range 4).all fun k =>
    fecPass (l.getD (k + 2) 0) r [(l.getD (k + 1) 0, r), (l.getD k 0, r)]

/-- BLOCK_LOCK (R161, R162): a position passed the test at one rate in 4 consecutive blocks: the hard decisions of the two
blocks before them and of the four, or none where State's LLRs show them. The last two are context for the blocks that
follow (R156), at the lowest rate that passed. -/
def execBlockLock (x : Carrier) (pos : Fin 40320) (blocks : List (BitVec 40320)) (s : State) :
    Host.Outcome State Fault Refusal := live s fun s =>
  let f := (s.car x).fec
  let line := blocks.isEmpty && decide (pos.val + 6 * 40320 ≤ f.llrs.length)
  let l := if line then f.sixAt pos.val else blocks
  if f.st ≠ .hunt then s else
  match lockRates l with
  | [] => s
  | r :: _ =>
    let s := (s.clear 0x0501 x.ev 0).clear 0x0502 x.ev 0
    let s := s.modFec x fun f => { f with
      st := .locked, pos := pos.val, huntN := 0, detRate := none, mis := [], actRun := 0
      noneRun := 0, seen := [r, r], win := [], ctxLeft := 2, whole := false
      left := [(l.getD 5 0, r), (l.getD 4 0, r)], info := [], infoAt := 0
      llrs := if line then f.llrs.drop (pos.val + 6 * 40320) else f.llrs }
    s.frHunt x

/-- NO_BLOCK_LOCK (R161): 1,024 block periods in HUNT. -/
def execNoBlockLock (x : Carrier) (s : State) : Host.Outcome State Fault Refusal := live s fun s =>
  if (s.car x).fec.st = .hunt ∧ 1024 ≤ (s.car x).fec.huntN then s.raise 0x0501 x.ev 0 else s

/-- LOSS_OF_BLOCK_LOCK (R161, R176): 64 consecutive blocks passed at no rate. -/
def execLossOfBlockLock (x : Carrier) (s : State) : Host.Outcome State Fault Refusal := live s fun s =>
  if (s.car x).fec.st = .locked ∧ 64 ≤ (s.car x).fec.noneRun ∧ (s.car x).fec.flush = none then
    let s := ((s.bumpx .CAR_FEC_LOBL x).raise 0x0502 x.ev 0).modFec x fun f => { f with win := [] }
    (s.fecUnlock x .hunt).settle x
  else s

/-! ### The window (R163 to R165, R170, R172) -/

/-- The two blocks before the next one to enter, newest first: signs and rate; the context of block lock before the window
holds two. -/
def Fec.before (f : Fec) : List (BitVec 40320 × Nat) := (f.win.map (fun w => (w.signs, w.rate)) ++ f.left).take 2

/-- Scale a block's LLRs by their erased fractions (R170). -/
def eraseScale (w : Nat) (l : List (Int × Nat)) : List Int :=
  l.map fun e => roundDiv (e.1 * ((256 - w * e.2 : Nat) : Int)) 256

/-- A block of State's LLRs as the decoder takes it (R158, R170). -/
def lineBlk (w rate : Nat) (ctx : Bool) (l : List (Int × Nat)) : FecBlk :=
  let v := deinterleave (eraseScale w l)
  ⟨hardBits v, rate, l.any fun e => e.2 != 0, ctx, some v⟩

/-- Decisions on the window, oldest first, leave every check that involves a bit of the oldest block satisfied: those of its
own rows and of the two blocks after it (R156, R165). -/
def postGood (left : List (BitVec 40320 × Nat)) (l : List (BitVec 40320 × Nat)) : Bool :=
  match l with
  | [] => true
  | a :: r =>
    let good (b : BitVec 40320 × Nat) (before : List (BitVec 40320 × Nat)) := fecUnsat b.1 b.2 before == 0
    good a left && (match r with
      | [] => true
      | b :: r => good b (a :: left) && (match r with
        | [] => true
        | c :: _ => good c [b, a]))

/-- The window of 8 blocks, oldest first, the missing later ones wholly erased (R164). -/
def Fec.held (f : Fec) : List FecBlk :=
  f.win.reverse ++ List.replicate (8 - f.win.length) ⟨0, f.actRate, true, true, some (List.replicate 40320 0)⟩

/-- The passes run, up to `max`, and the decisions they leave, on a window of LLRs (R164): they stop as soon as the oldest
block's checks hold. -/
def sweepGo (left : List (BitVec 40320 × Nat)) (rates : List Nat) (llr : List (List Int)) (p max : Nat) :
    Nat × List (BitVec 40320) :=
  let post := (List.range llr.length).map (Config.fecSweep left (llr.zip rates) p)
  match max with
  | 0 => (p, post)
  | max + 1 => if postGood left (post.zip rates) then (p, post) else sweepGo left rates llr (p + 1) max

/-- Passes a block may take, capped while the heat shedding of R551 caps them. -/
def State.maxPass (s : State) (x : Carrier) : Nat :=
  let m := s.cfx F.CAR_FEC_CTL_MAX_PASS x + 1
  if s.sys.shed.contains .passCap then min m 8 else m

/-- The oldest block leaves the window: `post` the window's bits as decoded, oldest first (a block without an entry is left as
its LLRs' signs say), `passes` run; context blocks are not delivered, others go to the framer with their uncorrected flag (R164, R165, R173, R178). -/
def State.fecLeave (s : State) (x : Carrier) (post : List (BitVec 40320)) (passes : Nat) : State :=
  let f := (s.car x).fec
  match f.win.getLast? with
  | none => s
  | some b =>
    let w := (indexed f.held).map fun e => (post.getD e.1 e.2.signs, e.2.rate)
    let out := post.headD b.signs
    let bad := !postGood f.left w
    let n := if bad then s.maxPass x else min passes (s.maxPass x)
    let s := s.modFec x fun f => { f with win := f.win.dropLast, left := ((out, b.rate) :: f.left).take 2 }
    if b.context then s else
    let cor := popcount 40320 (out ^^^ b.signs).toNat
    let s := s.modFec x fun f => { f with
      bitsDec := f.bitsDec + 40320, bitsCor := f.bitsCor + cor, blocks := f.blocks + 1, passes := f.passes + n
      unc10 := f.unc10 + b2n bad, info := f.info ++ [(b.rate, out, bad)] }
    let s := ((s.bumpx64 .CAR_FEC_BLK_LO x).signal 0x0010 x.ev 0 n).signal 0x0011 x.ev 0
    let s := { s with io := s.io.bumpUnits ⟨.CAR_FEC_CORR_LO, carIdx .CAR_FEC_CORR_LO x 0⟩ 1024 cor }
    if bad then s.bumpx .CAR_FEC_UNC x else s

/-- The decoder's passes on the window: on State's LLRs where every block has them, else as told (R164). -/
def State.fecDecode (s : State) (x : Carrier) (post : List (BitVec 40320)) (passes : Nat) : State :=
  let f := (s.car x).fec
  let w := f.held
  if w.all (·.llr.isSome) then
    let r := sweepGo f.left (w.map (·.rate)) (w.map fun b => b.llr.getD []) 0 (s.maxPass x)
    s.fecLeave x r.2 r.1
  else s.fecLeave x post passes

/-- The watch's test of an entering block (R172): it passes at the new rate and fails at the old one. -/
def State.fecWatch (s : State) (x : Carrier) (b : BitVec 40320) (before : List (BitVec 40320 × Nat)) : State :=
  let f := (s.car x).fec
  match f.watch with
  | some (n, _) =>
    if fecPass b n before && !fecPass b f.actRate before then
      (s.modFec x fun f => { f with actRate := n, watch := none, mis := [], actRun := 0 }).occ 0x0506 x.ev 0
    else s
  | none => s

/-- Runs of R161 and R163 after an entering block, tested at each rate with the blocks before it at the rates at which they
passed themselves (R156). -/
def Fec.test (f : Fec) (b : BitVec 40320) (before : List (BitVec 40320 × Nat)) : Fec :=
  let before := (indexed before).map fun e => (e.2.1, f.seen.getD e.1 e.2.2)
  if fecPass b f.actRate before then
    { f with mis := [], actRun := f.actRun + 1, noneRun := 0, seen := (f.actRate :: f.seen).take 2 }
  else
    let runs := (List.range 8).map fun r => if r != f.actRate && fecPass b r before then f.mis.getD r 0 + 1 else 0
    match runs.findIdx? (· != 0) with
    | some r => { f with mis := runs, actRun := 0, noneRun := 0, seen := (r :: f.seen).take 2 }
    | none => { f with mis := [], actRun := 0, noneRun := f.noneRun + 1, seen := (f.actRate :: f.seen).take 2 }

/-- The other rate at which 4 blocks in a row have passed, failing at the active one (R163); the lowest of several. -/
def Fec.misRate (f : Fec) : Option Nat := f.mis.findIdx? (4 ≤ ·)

/-- A block enters the window (R163, R170, R172); once 8 are held the oldest leaves. -/
def State.fecEnter (s : State) (x : Carrier) (mk : Nat → Bool → FecBlk) (post : List (BitVec 40320)) (passes : Nat) :
    State :=
  let f := (s.car x).fec
  let before := f.before
  let b := (mk f.actRate (decide (0 < f.ctxLeft))).signs
  let s := s.fecWatch x b before
  let s := s.modFec x fun f => { f.test b before with
    win := mk f.actRate (decide (0 < f.ctxLeft)) :: f.win, ctxLeft := f.ctxLeft - 1 }
  let s := if (mk f.actRate false).erased then s.bumpx .CAR_FEC_ERASED x else s
  if 8 ≤ (s.car x).fec.win.length then s.fecDecode x post passes else s

/-- The flush takes the oldest block out, as though the missing later ones were wholly erased; with the window empty it is
over (R161, R164). -/
def State.fecFlush (s : State) (x : Carrier) (post : List (BitVec 40320)) (passes : Nat) : State :=
  let s := s.fecDecode x post passes
  if (s.car x).fec.win = [] then (s.flushEnd x).settle x else s

/-- CODE_BLOCK_DECODE (R161, R163 to R165, R170, R172): in LOCKED a block enters, and the oldest leaves; the flush delivers
the oldest; in HUNT a block period passes. `post`: the window's bits as decoded after `passes`, oldest first, where State
holds no LLRs to decode. -/
def execCodeBlockDecode (x : Carrier) (block : BlkIn) (post : List (BitVec 40320)) (passes : Nat) (s : State) :
    Host.Outcome State Fault Refusal := live s fun s =>
  let f := (s.car x).fec
  let w := s.cfx F.CAR_FEC_CTL_ERASE_WEIGHT x
  match f.st, block with
  | .locked, .given b er => if f.flush.isSome then s else s.fecEnter x (fun r c => ⟨b, r, er, c, none⟩) post passes
  | .locked, .line =>
    if f.llrs.length < 40320 then s else
    let l := f.lineAt 0
    (s.modFec x fun f => { f with llrs := f.llrs.drop 40320 }).fecEnter x (fun r c => lineBlk w r c l) post passes
  | .locked, .flush => if f.flush.isSome && decide (f.llrs.length < 40320) then s.fecFlush x post passes else s
  | .hunt, .flush => s
  | .hunt, _ => s.modFec x fun f => { f with
      huntN := f.huntN + 1, llrs := if 282240 ≤ f.llrs.length then f.llrs.drop 40320 else f.llrs }
  | .idle, _ => s

/-- RATE_MISMATCH (R163, R221 step 4): 4 blocks in a row at one other rate, or at the active one. -/
def execRateMismatch (x : Carrier) (s : State) : Host.Outcome State Fault Refusal := live s fun s =>
  let f := (s.car x).fec
  if f.st ≠ .locked then s
  else if f.misRate.isSome ∧ f.detRate ≠ f.misRate then
    let s := (s.modFec x fun f => { f with detRate := f.misRate }).raise 0x0503 x.ev 0
    match (s.car x).plan.recov with
    | some v =>
      let cur := if v.onNew then v.next else v.prev
      let oth := if v.onNew then v.prev else v.next
      if f.misRate = some (recRate oth.body) ∧ f.misRate ≠ some (recRate cur.body) then s.recovSwap x else s
    | none => s
  else if 4 ≤ f.actRun then (s.modFec x fun f => { f with detRate := none }).clear 0x0503 x.ev 0
  else s

/-- RATE_SWITCH_MISSED (R172): the received count has reached the target plus one. -/
def execRateSwitchMissed (x : Carrier) (s : State) : Host.Outcome State Fault Refusal := live s fun s =>
  match (s.car x).fec.watch with
  | some (_, t) =>
    if t + 1 ≤ (s.car x).tr.mfc then (s.modFec x fun f => { f with watch := none }).occ 0x0507 x.ev 0 else s
  | none => s

/-! ### Intervals (R173 to R175) -/

/-- MARGIN of R173 for `cor` corrected of `dec` bits, as a pinch code: at an error ratio of one half the logarithm is that
of 0, and above it there is none (R6). -/
def fecMargin (cor dec rate passes : Nat) : Nat :=
  if cor = 0 then 0x7FFF
  else if dec = 2 * cor then 0x8001
  else if dec < 2 * cor then noMeas
  else
    let y := ferfcInv (frat (2 * cor) dec)
    pinchCode (fround (flog10 (fmul (fsqrt (2 * fone)) y)) 1280 - rateQ rate - passPenalty passes)

/-- Judge the FEC-degraded defect (R174). -/
def State.fecDegraded (s : State) (x : Carrier) (m : Nat) : State :=
  let thr := s.cfx F.CAR_FEC_THR_DEG_MARGIN x
  let f := (s.car x).fec
  if thr = 0x8000 ∨ m = 0x8000 then s
  else
    let low := if sgn 16 m < sgn 16 thr then f.degLow + 1 else 0
    let high := if sgn 16 thr + 16 ≤ sgn 16 m then f.degHigh + 1 else 0
    let s := s.modFec x fun f => { f with degLow := low, degHigh := high }
    if 3 ≤ low then s.raise 0x0504 x.ev 0 else if 10 ≤ high then s.clear 0x0504 x.ev 0 else s

/-- FEC_INTERVAL (R173, R174): the end of 100 ms of device time. -/
def execFecInterval (x : Carrier) (s : State) : Host.Outcome State Fault Refusal := live s fun s =>
  let f := (s.car x).fec
  let ok := f.whole && f.st == .locked && f.bitsDec != 0
  let m := if ok then fecMargin f.bitsCor f.bitsDec f.actRate (s.maxPass x) else 0x8000
  let s := s.modFec x fun f => { f with
    ber := if ok then (roundDiv (f.bitsCor * 1000000000) f.bitsDec).toNat else 0xFFFFFFFF
    margin := m
    avgPass := if f.blocks = 0 then 0 else (roundDiv (f.passes * 256) f.blocks).toNat
    bitsDec := 0, bitsCor := 0, blocks := 0, passes := 0, whole := f.st == .locked }
  s.fecDegraded x m

/-- UNCORRECTED_INTERVAL (R175): the end of 10 ms of device time. -/
def execUncorrectedInterval (x : Carrier) (s : State) : Host.Outcome State Fault Refusal := live s fun s =>
  let f := (s.car x).fec
  let n := max 1 (s.cfx F.CAR_FEC_THR_UNC_N x)
  let bad := if n ≤ f.unc10 then f.uncRun + 1 else 0
  let ok := if f.unc10 = 0 then f.okRun + 1 else 0
  let s := s.modFec x fun f => { f with unc10 := 0, uncRun := bad, okRun := ok }
  if 3 ≤ bad then s.raise 0x0505 x.ev 0 else if 10 ≤ ok then s.clear 0x0505 x.ev 0 else s

end Sys2Proof.Machine
end

