-- ==== Sys2Proof/Machine/Window.lean ====
section
/-! DEFINITION. The bytes of the on-chip tables that software reads and writes through table windows, and of the capture
buffers (R85, R100, R146, R446, R500): one list of cells in canonical form. An unlisted byte reads as zero. -/

namespace Sys2Proof.Machine

/-- Cells in strictly rising address order, none before `lo`, none zero. -/
def cellsFrom (lo : Nat) (m : List Host.Cell) : Bool :=
  match m with
  | [] => true
  | (a, b) :: r => lo ≤ a && b != 0 && cellsFrom (a + 1) r

/-- The canonical form of the cells. -/
def Memory.wf (m : List Host.Cell) : Bool := cellsFrom 0 m

/-- The byte at an address. -/
def cellsGet (m : List Host.Cell) (a : Nat) : Byte :=
  match m with
  | [] => 0
  | (k, b) :: r => if a < k then 0 else if a = k then b else cellsGet r a

/-- The cells with byte `v` at address `a`; writing zero removes the cell. -/
def cellsPut (m : List Host.Cell) (a : Nat) (v : Byte) : List Host.Cell :=
  match m with
  | [] => if v = 0 then [] else [(a, v)]
  | (k, b) :: r =>
    if a < k then (if v = 0 then (k, b) :: r else (a, v) :: (k, b) :: r)
    else if a = k then (if v = 0 then r else (a, v) :: r)
    else (k, b) :: cellsPut r a v

/-- Write a run of bytes from an address. -/
def cellsWrite (m : List Host.Cell) (a : Nat) (l : Bytes) : List Host.Cell :=
  match l with
  | [] => m
  | b :: r => cellsWrite (cellsPut m a b) (a + 1) r

/-- Read `n` bytes from an address. -/
def cellsRead (m : List Host.Cell) (a n : Nat) : Bytes := (List.range n).map fun i => cellsGet m (a + i)

/-- Write bytes of the windows. -/
def State.winWrite (s : State) (a : Nat) (l : Bytes) : State :=
  { s with mem := { s.mem with windows := cellsWrite s.mem.windows a l } }

/-- Read bytes of the windows. -/
def State.winRead (s : State) (a n : Nat) : Bytes := cellsRead s.mem.windows a n

end Sys2Proof.Machine
end

