-- ==== Sys2Proof/Machine/Rxc.lean ====
section
/-! DEFINITION. Receive core: lock states, defects, SNR measurement, captures (chapter 04). -/

namespace Sys2Proof.Machine

/-! ### Lock (R131, R134, R152) -/

/-- A detection forms a pair with an earlier one (R134): exactly a symbol frame of 81,920 samples apart, ±1, at hypotheses
no more than one step apart. -/
def detPair (t : Nat) (hyp : Int) (d : Nat × Int) : Bool :=
  decide (d.1 + 81919 ≤ t ∧ t ≤ d.1 + 81921 ∧ (hyp - d.2).natAbs ≤ 1)

/-- ALIGNMENT_DETECTION (R131, R134, R135): an alignment block found at a time in input samples (5/4 per symbol), at
frequency hypothesis `hyp`, −12 to 12 in steps of 250 MHz. Where State holds the samples there, the correlation must show
it. The symbol frame of TRAIN starts with the second detection of a pair. -/
def execAlignmentDetection (x : Carrier) (t : Nat) (hyp : Int) (s : State) : Host.Outcome State Fault Refusal :=
  live s fun s =>
  if (s.car x).rxc.st ≠ .hunt ∨ 12 < hyp.natAbs ∨ !s.alignSeen x t hyp then s
  else if (s.car x).rxc.det.any (detPair t hyp) then
    ((s.clear 0x0402 x.ev 0).rxcTo x .train).modRxc x fun c => { c with
      freq := hyp * 250000, clk := 0, framePos := t * 2 ^ 32, sums := [], sums10 := [], noiseF := [] }
  else s.modRxc x fun c => { c with det := (t, hyp) :: c.det.filter fun d => t ≤ d.1 + 81921 }

/-- LLRs flow: the block aligner leaves IDLE, now or when its flush is over (R141, R161). -/
def State.llrStart (s : State) (x : Carrier) : State :=
  if (s.car x).fec.st = .idle then s.modFec x fun f => { f with st := .hunt, huntN := 0, llrs := [] }
  else s.modFec x fun f => { f with flush := f.flush.map fun _ => true }

/-- LOCK_ACQUIRED (R134, R143, R152): 16 good symbol frames in TRAIN. -/
def execLockAcquired (x : Carrier) (s : State) : Host.Outcome State Fault Refusal := live s fun s =>
  let c := (s.car x).rxc
  let thr := s.cfx F.CAR_RXC_THR_LOCK_SNR x
  let ok := if thr = 0x8000 then 16 ≤ c.inTrain else 16 ≤ c.good
  if c.st = .train ∧ ok then
    let s := (s.rxcTo x .locked).modRxc x fun c => { c with winOk := true, mean10ok := false, sums := [], sums10 := [] }
    let s := (s.clear 0x0401 x.ev 0).occ 0x0408 x.ev 0
    (s.llrStart x).settle x
  else s

/-- Return to HUNT from a state. -/
def State.toHunt (s : State) (x : Carrier) : State := (s.rxcTo x .hunt).settle x

/-- TRAINING_TIMEOUT (R134, R152). -/
def execTrainingTimeout (x : Carrier) (s : State) : Host.Outcome State Fault Refusal := live s fun s =>
  if (s.car x).rxc.st = .train ∧ 4096 ≤ (s.car x).rxc.inTrain then
    ((s.bumpx .CAR_RXC_LOL x).occ 0x0403 x.ev 0).toHunt x
  else s

/-- ALIGNMENT_MISSED_LOSS (R134). -/
def execAlignmentMissedLoss (x : Carrier) (s : State) : Host.Outcome State Fault Refusal := live s fun s =>
  if (s.car x).rxc.st = .locked ∧ 8 ≤ (s.car x).rxc.missed then s.toHunt x else s

/-- PILOT_SNR_LOSS (R134). -/
def execPilotSnrLoss (x : Carrier) (s : State) : Host.Outcome State Fault Refusal := live s fun s =>
  if (s.car x).rxc.st = .locked ∧ 64 ≤ (s.car x).rxc.low ∧ s.cfx F.CAR_RXC_THR_LOCK_SNR x ≠ 0x8000 then s.toHunt x
  else s

/-- OFFSET_LOSS (R134): the frequency offset in kHz or the clock offset in ppb, as last measured, is out of range. -/
def execOffsetLoss (x : Carrier) (s : State) : Host.Outcome State Fault Refusal := live s fun s =>
  let c := (s.car x).rxc
  if c.st = .locked ∧ (3500000 < c.freq.natAbs ∨ 200000 < c.clk.natAbs) then s.toHunt x else s

/-- NO_ALIGNMENT_FOUND (R152): 65,536 symbol frames in HUNT. -/
def execNoAlignmentFound (x : Carrier) (s : State) : Host.Outcome State Fault Refusal := live s fun s =>
  if (s.car x).rxc.st = .hunt ∧ 65536 ≤ (s.car x).rxc.inHunt then s.raise 0x0402 x.ev 0 else s

/-- Realign the phase of subcarrier `i`, polarisation `p`, to the pilot, and count a slip (R133). -/
def State.phaseSlip (s : State) (x : Carrier) (i : Nat) (p : Bool) (ref : Cx) : State :=
  (s.modRxc x fun c => { c with
    phase := lmod (c.phase ++ List.replicate (i + 1 - c.phase.length) ((fone, 0), (fone, 0))) i fun q =>
      if p then (q.1, ref) else (ref, q.2) }).bumpx .CAR_RXC_SLIP x

/-- PHASE_SLIP (R133): the pilot's phase of a subcarrier and polarisation lies more than π/4 from the decision-directed
one, by `quarter` turns of π/2 to the nearest. -/
def execPhaseSlip (x : Carrier) (i : Fin 16) (p : Bool) (quarter : Fin 4) (s : State) :
    Host.Outcome State Fault Refusal := live s fun s =>
  if (s.car x).rxc.st = .train ∨ (s.car x).rxc.st = .locked then
    let q := (s.car x).rxc.phase.getD i.val ((fone, 0), (fone, 0))
    s.phaseSlip x i p (cmul (if p then q.2 else q.1) (cturn quarter.val 4))
  else s

/-- CLOCK_OFFSET_DEFECT (R152): the offset in ppb has stood on one side of a limit for 1 ms. -/
def execClockOffsetDefect (x : Carrier) (s : State) : Host.Outcome State Fault Refusal := live s fun s =>
  let ppb := (s.car x).rxc.clk
  if (s.car x).rxc.st ≠ .locked then s
  else if 100000 < ppb.natAbs then s.raise 0x0404 x.ev 0
  else if ppb.natAbs ≤ 90000 then s.clear 0x0404 x.ev 0
  else s

/-- Energy of the two outer taps at each end of a filter, and of the filter. -/
def outerTaps (h : List Cx) : Nat × Nat :=
  let e (l : List Cx) := (fsum (l.map cnorm)).toNat
  (e (h.take 2) + e (h.drop (h.length - 2)), e h)

/-- The largest share of any filter. -/
def outerShare (t : List (List (List Cx))) : Nat × Nat :=
  (t.flatMap fun f => f.map outerTaps).foldl (fun a b => if a.1 * b.2 < b.1 * a.2 then b else a) (0, 1)

/-- OUTER_TAPS_DEFECT (R152): for 1 s the largest share of a filter's energy in its two outer taps at each end, as a
fraction; none: that of State's taps. -/
def execOuterTapsDefect (x : Carrier) (share : Option (Nat × Nat)) (s : State) : Host.Outcome State Fault Refusal :=
  live s fun s =>
  let e := share.getD (outerShare (s.car x).rxc.taps)
  let num := e.1
  let den := e.2
  if den < 16 * num then s.raise 0x0406 x.ev 0
  else if 32 * num < den then s.clear 0x0406 x.ev 0
  else s

/-! ### SNR (R142 to R145) -/

/-- Measured energies of a subcarrier in one window: mean symbol energy and noise variance on X and on Y. -/
abbrev ScMeas := Nat × Nat × Nat × Nat

/-- 10 log10 of a ratio in pinches, held to the field's range (R6): −32,767 for a ratio of 0, and no measurement where
neither term is measured. -/
def ratioPinch (a b : Nat) : Nat :=
  if b = 0 then (if a = 0 then noMeas else 0x7FFF)
  else if a = 0 then 0x8001
  else pinchCode (fround (flog10 (frat a b)) 640)

/-- SNR_X and SNR_Y of a subcarrier (RXC_SNR). -/
def snrWord (m : ScMeas) : Word := BitVec.ofNat 32 (ratioPinch m.2.1 m.2.2.2 * 65536 + ratioPinch m.1 m.2.2.1)

/-- SNR and NOISE of a subcarrier (RXC_NOISE); `tot` the sum of energies over the subcarriers. -/
def noiseWord (l : List ScMeas) (m : ScMeas) : Word :=
  let tot := sumN (l.map fun m => m.1 + m.2.1)
  let n := m.2.2.1 + m.2.2.2
  BitVec.ofNat 32 (ratioPinch (m.1 + m.2.1) n * 65536 + ratioPinch (n * l.length) tot)

/-- MEAN_SNR: 10 log10 of the mean linear SNR over the subcarriers. -/
def meanPinch (l : List ScMeas) : Nat :=
  if l = [] then noMeas else
  if l.any (fun m => m.2.2.1 + m.2.2.2 == 0) then
    (if l.any (fun m => m.2.2.1 + m.2.2.2 == 0 && m.1 + m.2.1 == 0) then noMeas else 0x7FFF)
  else
    let t := l.foldr (fun m a => frat (m.1 + m.2.1) (m.2.2.1 + m.2.2.2) + a) 0 / max 1 l.length
    if t ≤ 0 then 0x8001 else pinchCode (fround (flog10 t) 640)

/-- MIN_SNR: the lowest SNR field; no measurement when one is missing. -/
def minPinch (l : List ScMeas) : Nat :=
  if l = [] ∨ l.any (fun m => m.2.2.1 + m.2.2.2 == 0 && m.1 + m.2.1 == 0) then noMeas else
  usg 16 (l.foldl (fun a m => min a (pinch (ratioPinch (m.1 + m.2.1) (m.2.2.1 + m.2.2.2)))) 32767)

/-- Judge SNR degraded after a valid window (R152). -/
def State.snrDegraded (s : State) (x : Carrier) (mean : Nat) : State :=
  let thr := s.cfx F.CAR_RXC_THR_SNR_DEG x
  if thr = 0x8000 ∨ mean = 0x8000 then s else
  let c := (s.car x).rxc
  let low := if pinch mean < pinch thr then c.degLow + 1 else 0
  let high := if pinch thr + 16 ≤ pinch mean then c.degHigh + 1 else 0
  let s := s.modRxc x fun c => { c with degLow := low, degHigh := high }
  if 2 ≤ low then s.raise 0x0405 x.ev 0 else if 2 ≤ high then s.clear 0x0405 x.ev 0 else s

/-- A subcarrier's energies from its sums on X and on Y. -/
def scMeas (e : ScSum × ScSum) : ScMeas := (e.1.meas.1, e.2.meas.1, e.1.meas.2, e.2.meas.2)

/-- SNR_WINDOW_END (R142, R143, R152): the window's measurements, one per subcarrier; none: those of the known symbols that
State took in. -/
def execSnrWindowEnd (x : Carrier) (m : Option (List (Nat × Nat × Nat × Nat))) (s : State) :
    Host.Outcome State Fault Refusal := live s fun s =>
  let n := 2 ^ s.cfx F.CAR_RXC_CTL_SC_LOG2 x
  let c := (s.car x).rxc
  let m := m.getD (c.sums.map scMeas)
  let ok := c.winOk && c.st == .locked && m.length == n
  let mean := if ok then meanPinch m else 0x8000
  let s := s.modRxc x fun c => { c with
    snr := if ok then m.map snrWord else []
    noise := if ok then m.map (noiseWord m) else []
    mean := mean, min := if ok then minPinch m else 0x8000
    winOk := c.st == .locked, sums := [] }
  s.snrDegraded x mean

/-- The 10 ms that ended, in a running Press comparison (R104, R105, R145): an interval without a value ends it. -/
def PressRun.take (r : PressRun) (v : Nat) : Option PressRun :=
  if r.skip then some { r with skip := false }
  else if r.after.length = r.window then some r
  else if isMeas v then some { r with after := r.after ++ [v] }
  else none

/-- MEAN_SNR_INTERVAL (R145): the mean of 10 ms; an interval not wholly in LOCKED gives no value. -/
def execMeanSnrInterval (x : Carrier) (m : Option (List (Nat × Nat × Nat × Nat))) (s : State) :
    Host.Outcome State Fault Refusal := live s fun s =>
  let c := (s.car x).rxc
  let m := m.getD (c.sums10.map scMeas)
  let ok := c.mean10ok && c.st == .locked && m.length == 2 ^ s.cfx F.CAR_RXC_CTL_SC_LOG2 x
  let v := if ok then meanPinch m else noMeas
  let s := s.modRxc x fun c => { c with
    mean10 := (v :: c.mean10).take 255, mean10ok := c.st == .locked, sums10 := [] }
  s.modFe x fun f => { f with cmp := f.cmp.bind fun r => r.take v }

/-! ### Captures (R146 to R151) -/

/-- Bytes of an entry of a source. -/
def capEntry (source : Nat) : Nat := if source = 3 then 4 else 8

/-- Offset of a carrier's capture buffer window (R500). -/
def capBase (x : Carrier) : Nat :=
  match x with
  | .A => 0x2400000
  | .B => 0x2800000

/-- The input that a source needs at the trigger (R146). -/
def capReady (c : Rxc) (source : Nat) : Bool :=
  if 2 ≤ source then c.st == .train || c.st == .locked else c.st != .disabled && c.st != .waitInput

/-- A region that a capture may use: READY and named by no user (R456). -/
def State.capRegion (s : State) (g : Nat) : Bool :=
  (agetD s.cxl.rgns g rgnReset).st == .ready && !rgnNamed s.rd g

/-- The fill starts (R148, R149): what the header records of the trigger. The snapshot of taps is taken at the next
symbol-frame boundary. -/
def State.capStart (s : State) (x : Carrier) : State :=
  let lock := (s.car x).rxc.st == .locked
  let n := 2 ^ s.cfx F.CAR_RXC_CTL_SC_LOG2 x
  let kbd := s.cfx F.CAR_RXC_RATE_KBD x
  let taps := s.cfx F.CAR_RXC_CTL_TAPS x
  let t := s.sys.dtime
  s.modRxc x fun c => { c with cap := c.cap.map fun k => { k with
    st := .filling, flags := if lock then 0 else 1, dtime := t, rate := kbd, scCount := n
    taps := if k.source = 3 then taps else 0, pilot := c.pilot, sfcFirst := c.sfc, snap := k.source != 3 } }

/-- CAPTURE (R146, R147, R456, R494): armed, or filling at once. While captures are suspended for heat (R551), and for an
immediate trigger without the input that the source needs, it is refused (DESIGN CHOICE, log 71). -/
def execCapture (fn : Fn) (r : Nat) (s : State) : Host.Outcome State Fault Refusal :=
  command fn r 0x0301 s fun d _ s =>
    let x := carOf (byteAt d 16)
    let src := byteAt d 17
    if (s.car x).rxc.cap.isSome then stop 2 0
    else if s.sys.shed.contains .aux ∨ !s.capRegion (byteAt d 25) ∨ (byteAt d 24 = 0 ∧ !capReady (s.car x).rxc src) then stop 11 4
    else (0, 0, fun s =>
      let k : Capture := ⟨.armed, src, if 2 ≤ src then leAt d 18 2 else 0, leAt d 20 4, byteAt d 24, leAt d 26 2,
        leAt d 28 8, byteAt d 25, leAt d 36 8, 0, 0, 0, 0, 0, 0, 0, 0, 0, 0, false, []⟩
      let s := s.modRxc x fun c => { c with cap := some k }
      if byteAt d 24 = 0 then s.capStart x else s)

/-- CAPTURE_TRIGGER (R147, R148): the count or the event (its code) that an armed capture waits for. A count that has
passed when the capture is armed starts it at the next trigger, and a trigger without the input that the source needs
leaves it armed (DESIGN CHOICE, log 71). -/
def execCaptureTrigger (x : Carrier) (code : Nat) (s : State) : Host.Outcome State Fault Refusal :=
  live s fun s =>
  match (s.car x).rxc.cap with
  | some k =>
    let hit := if k.trigger = 1 then k.sfc ≤ (s.car x).rxc.sfc else k.event = code
    if k.st = .armed ∧ hit ∧ capReady (s.car x).rxc k.source then s.capStart x else s
  | none => s

/-- The bytes of an entry of sources 0 to 2 (R150): of source 0 each sample with its erasure flag in bit 8, of the others
signed values, saturating. -/
def CapEnt.bytes (e : CapEnt) : Bytes :=
  match e with
  | .adc v => padTo 8 (v.flatMap fun b => leBytes 2 (256 * b2n b.1 + b.2.toNat))
  | .vals v => padTo 8 (v.flatMap fun c => leBytes 2 (usg 16 (clampI (-32767) 32767 c)))

/-- An entry is one of a source: four samples of source 0, four components of sources 1 and 2. -/
def CapEnt.fits (source : Nat) (e : CapEnt) : Bool :=
  match e with
  | .adc v => source == 0 && v.length == 4
  | .vals v => (source == 1 || source == 2) && v.length == 4

/-- The bytes of a snapshot of taps (R150): by subcarrier of the mask, filter and tap, 0x4000 for one. -/
def tapBytes (mask : Nat) (taps : List (List (List Cx))) : Bytes :=
  (indexed taps).flatMap fun e => if bit mask e.1 then
    e.2.flatMap fun h => h.flatMap fun c =>
      leBytes 2 (usg 16 (clampI (-32767) 32767 (fround c.1 16384))) ++
        leBytes 2 (usg 16 (clampI (-32767) 32767 (fround c.2 16384)))
    else []

/-- The snapshot of taps at a symbol-frame boundary (R146, R149). -/
def State.capSnap (s : State) (x : Carrier) : State :=
  let t := s.sys.dtime
  s.modRxc x fun c => { c with cap := c.cap.map fun k =>
    if k.st = .filling ∧ !k.snap then
      { k with snap := true, dtime := t, sfcFirst := c.sfc, got := (tapBytes k.mask c.taps).take (4 * k.count) }
    else k }

/-- A capture of this source takes entries of the signals that State holds, up to its count (R146, R150). -/
def State.capTake (s : State) (x : Carrier) (source : Nat) (b : Capture → Bytes) : State :=
  match (s.car x).rxc.cap with
  | some k =>
    if k.st = .filling ∧ k.source = source ∧ !bit k.flags 3 then
      s.modRxc x fun c => { c with cap := some { k with got := (k.got ++ b k).take (8 * k.count) } }
    else s
  | none => s

/-- Memory of a carrier's capture buffer (R436). -/
def capMem (x : Carrier) : Nat := 4 + x.num

/-- Write a capture's entries to its buffer, word by word. -/
def State.capFill (s : State) (x : Carrier) (b : Bytes) : State :=
  (s.winWrite (capBase x) b).each (List.range ((b.length + 7) / 8)) fun s w => s.memFull (capMem x) w

/-- The 64-byte header (R149). -/
def Capture.header (k : Capture) (x : Carrier) : Bytes :=
  let b := [1, 0, BitVec.ofNat 8 k.source, BitVec.ofNat 8 x.num] ++ leBytes 2 k.mask ++
    [BitVec.ofNat 8 k.scCount, BitVec.ofNat 8 k.flags] ++ leBytes 8 (k.dtime / 65536) ++ leBytes 2 (k.dtime % 65536) ++
    leBytes 2 k.startSym ++ leBytes 4 k.rate ++ leBytes 4 k.taken ++ leBytes 2 (capEntry k.source) ++
    [BitVec.ofNat 8 k.taps, BitVec.ofNat 8 k.pilot] ++ leBytes 8 k.sfcFirst ++ leBytes 4 k.poisoned ++
    List.replicate 16 0
  b ++ leBytes 4 (crc32c b)

/-- Start the drain (R148, R149): the header goes out where the region is READY. -/
def State.capDrain (s : State) (x : Carrier) (k : Capture) (taken startSym : Nat) : State :=
  let k := { k with st := .draining, taken := taken, startSym := if k.source = 2 then startSym else 0 }
  let s := s.modRxc x fun c => { c with cap := some k }
  if (agetD s.cxl.rgns k.region rgnReset).st = .ready then s.emit (.cxlWrite k.region k.offset (k.header x)) else s

/-- CAPTURE_FILL_END (R148 to R150): the entries taken from State's signals, or, where it holds none, those that the row tells,
with the symbol index of the first one. A fill ends with its last entry, or earlier when it is stopped. -/
def execCaptureFillEnd (x : Carrier) (startSym : Nat) (entries : List CapEnt) (s : State) :
    Host.Outcome State Fault Refusal := live s fun s =>
  match (s.car x).rxc.cap with
  | some k =>
    let stopped := bit k.flags 3
    let n := capEntry k.source
    if k.st ≠ .filling ∨ (!k.snap ∧ !stopped) then s
    else if k.source = 3 then (s.capFill x k.got).capDrain x k (k.got.length / n) 0
    else if k.got ≠ [] then
      if k.got.length = n * k.count ∨ stopped then (s.capFill x k.got).capDrain x k (k.got.length / n) 0 else s
    else if entries.all (·.fits k.source) ∧ (entries.length = k.count ∨ (stopped ∧ entries.length ≤ k.count)) then
      (s.capFill x (entries.flatMap CapEnt.bytes)).capDrain x k entries.length startSym
    else s
  | none => s

/-- CAPTURE_STOP (R148). -/
def execCaptureStop (fn : Fn) (r : Nat) (s : State) : Host.Outcome State Fault Refusal :=
  command fn r 0x0302 s fun d _ s =>
    let x := carOf (byteAt d 16)
    match (s.car x).rxc.cap with
    | some k =>
      match k.st with
      | .armed => (0, 0, fun s => (s.modRxc x fun c => { c with cap := none }).occ 0x040A x.ev 0 [3])
      | .filling => (0, 0, fun s => s.modRxc x fun c => { c with
          cap := some { k with flags := k.flags ||| 8 } })
      | .draining => stop 10 0
    | none => stop 10 0

/-- Entries of a capture that lie in a poisoned word of its buffer (R151). -/
def State.capPoison (s : State) (x : Carrier) (k : Capture) : List Nat :=
  (List.range k.taken).filter fun i => s.poisoned (capMem x) (i * capEntry k.source / 8)

/-- CAPTURE_DONE (R148, R149, R151, R152): the drain's last write; entries of poisoned words go out as zero, and the header
counts them. -/
def execCaptureDone (x : Carrier) (s : State) : Host.Outcome State Fault Refusal := live s fun s =>
  match (s.car x).rxc.cap with
  | some k =>
    if k.st = .draining ∧ (agetD s.cxl.rgns k.region rgnReset).st = .ready then
      let n := capEntry k.source
      let bad := s.capPoison x k
      let k := if bad = [] then k else { k with poisoned := bad.length, flags := k.flags ||| 4 }
      let data := (List.range k.taken).flatMap fun i =>
        if bad.contains i then List.replicate n 0 else s.winRead (capBase x + n * i) n
      let s := (s.emit (.cxlWrite k.region (k.offset + 64) data)).emit (.cxlWrite k.region k.offset (k.header x))
      (s.modRxc x fun c => { c with cap := none }).occ 0x0409 x.ev 0
    else s
  | none => s

/-- CAPTURE_FAILED (R151, R483): cause 1, the region is not assigned or not READY; cause 2, it or its port failed before
the drain ended. -/
def execCaptureFailed (x : Carrier) (s : State) : Host.Outcome State Fault Refusal := live s fun s =>
  match (s.car x).rxc.cap with
  | some k =>
    let g := (agetD s.cxl.rgns k.region rgnReset).st
    if k.st = .draining ∧ g ≠ .ready then
      (s.modRxc x fun c => { c with cap := none }).occ 0x040A x.ev 0 [if g = .failed then 2 else 1]
    else s
  | none => s

end Sys2Proof.Machine
end

