-- ==== Sys2Proof/Machine/Press.lean ====
section
/-! DEFINITION. Dispersion table, trim, blind estimation and the Press stages (chapter 03). -/

namespace Sys2Proof.Machine

/-! ### The dispersion table (R80 to R86) -/

/-- Block size N at a symbol rate (R80). -/
def blockN (kbd : Nat) : Nat := if kbd ≤ 128000000 then 65536 else 131072

/-- Entry `k` of a generated table, IM above RE (R82, R83): the turn of the phase is D c f² / (2 fc²). -/
def cdeEntry (d n : Int) (kbd k : Nat) : Word :=
  let bn := blockN kbd
  if bn ≤ k then 0 else
  let k' : Int := if k < bn / 2 then k else (k : Int) - bn
  let fc : Nat := (193100000000000 + n * 6250000000).toNat
  let num : Int := d * 299792458 * (k' * k') * 25 * ((kbd * kbd : Nat) : Int) * 1000
  let den : Nat := 32 * bn * bn * fc * fc
  BitVec.ofNat 32 (usg 16 (fround (fsinTurn num den) 16384) * 65536 + usg 16 (fround (fcosTurn num den) 16384))

/-- A stored table entry: as written since, or as generated; entries 65,536 and above keep the generation that wrote
them (R82, R84). -/
def Fe.entry (f : Fe) (k : Nat) : Word :=
  match aget f.tab k, (if k < 65536 then f.gen else f.genHi) with
  | some w, _ => w
  | none, some (d, n, kbd) => cdeEntry d n kbd k
  | none, none => 0

/-- A field written together in its active value and its staging copy (R84, R428). -/
def State.setBoth (s : State) (f : Fref) (x : Carrier) (v : Nat) : State :=
  (s.setFieldx f x 0 v).stagex f x v

/-- Write TRIM.TARGET (R84, R90, R91): active value and staging copy together, for an estimate as for a regeneration (DESIGN
CHOICE, log 58). -/
def State.setTarget (s : State) (x : Carrier) (v : Int) : State := s.setBoth F.CAR_CDE_TRIM_TARGET x (usg 16 v)

/-- Total dispersion that the equaliser compensates (R87), and that Press takes; in custom mode CDE_VALUE (R85). -/
def State.totalD (s : State) (x : Carrier) : Int :=
  if s.cfx F.CAR_CDE_CTL_TABLE_MODE x = 1 then s.cfxI F.CAR_CDE_VALUE_D x else (s.car x).fe.act + (s.car x).fe.trim

/-- A span of the table in use: number, length in m, loss in pinches, dispersion in 1/1,000 ps/nm/km, launch power, fibre
type. -/
structure Span where
  num    : Nat
  len    : Nat
  loss   : Nat
  disp   : Int
  launch : Int
  fibre  : Nat
deriving DecidableEq, Repr

/-- The spans of non-zero length, from the transmitter, with the fitted launch power where the fit is valid (R98, R99,
R362, R367). -/
def State.spans (s : State) (x : Carrier) : List Span :=
  (List.range (min 256 (s.cfx F.CAR_CM_SPANS_COUNT x))).filterMap fun i =>
    let n := s.cfx F.CAR_CM_SPAN0_LENGTH_M x i
    let fit := agetD (s.car x).cm.fits i fitReset
    if n = 0 then none else some ⟨i, n, s.cfx F.CAR_CM_SPAN1_LOSS x i, s.cfxI F.CAR_CM_SPAN2_DISP x i,
      (if fit.valid then pinch fit.launch else s.cfxI F.CAR_CM_SPAN1_LAUNCH x i), s.cfx F.CAR_CM_SPAN0_FIBRE x i⟩

/-- Dispersion of a span in 10⁻⁶ ps/nm before the scaling of R101. -/
def Span.d (p : Span) : Int := p.disp * p.len

/-- The same of a list of spans. -/
def spanSum (l : List Span) : Int := l.foldr (fun q a => q.d + a) 0

/-- The span-dispersion defect at a recomputation (R101): the factor CDE_ACT + Dt over the sum. Without a span table there
is no factor, and the defect clears; where the spans' dispersions sum to zero no factor gives the total, and it is
raised (DESIGN CHOICE, log 58). -/
def State.spanDisp (s : State) (x : Carrier) : State :=
  match s.spans x with
  | [] => s.clear 0x030B x.ev 0 [0xFF]
  | l =>
    let sum := spanSum l
    let t := s.totalD x * 1000000
    if sum = 0 ∨ 2 * sum.natAbs < 100 * (t - sum).natAbs then s.raise 0x030B x.ev 0 [0xFF]
    else if 1000 * (t - sum).natAbs ≤ 15 * sum.natAbs then s.clear 0x030B x.ev 0 [0xFF]
    else s

/-- Start to generate the table for a dispersion (R84): TARGET becomes zero, which is within its range (R111). -/
def State.regen (s : State) (x : Carrier) (d : Int) : State :=
  (((s.modFe x fun f => { f with cde := 1, genD := d, trim := 0 }).setTarget x 0).clear 0x0305 x.ev 0 [0xFF]).settle x

/-- The words of a memory below `n` are written anew: their poison and errors go (R84, R434). -/
def State.memBelow (s : State) (m n : Nat) : State :=
  let s := s.modMem m fun q => { q with
    poison := q.poison.filter (fun e => n ≤ e.1), errs := q.errs.filter (fun e => n ≤ e.1)
    reread := q.reread.filter (fun w => n ≤ w) }
  (if m < 2 ∧ (s.memo m).poison = [] then s.clear 0x0306 (m + 1) 0 [0xFF] else s).memInjectAt m 0

/-- TABLE_READY (R84, R86, R101): regeneration has written its last of N entries. -/
def execTableReady (x : Carrier) (s : State) : Host.Outcome State Fault Refusal := live s fun s =>
  if (s.car x).fe.cde = 1 then
    let n := s.cfxI F.CAR_CDE_GRID_N x
    let kbd := s.cfx F.CAR_RXC_RATE_KBD x
    let bn := blockN kbd
    let s := s.modFe x fun f =>
      let g := some (f.genD, n, kbd)
      { f with cde := 2, act := f.genD, gen := g, genHi := if bn = 65536 then f.genHi else g
               tab := f.tab.filter fun e => bn ≤ e.1 }
    let s := s.memBelow x.num (bn / 2)
    ((s.occ 0x0302 x.ev 0 [0xFF]).spanDisp x).settle x
  else s

/-- The equaliser starts on the stored table, or waits for its load (R85). -/
def State.cdeCustom (s : State) (x : Carrier) : State :=
  if s.cfx F.CAR_CDE_CTL_LOAD_EN x = 1 then (s.modFe x fun f => { f with cde := 3 }).settle x
  else ((s.modFe x fun f => { f with cde := 2 }).occ 0x0302 x.ev 0 [0xFF]).settle x

/-- Write CDE_CTL.LOAD_EN (R85). -/
def State.loadEn (s : State) (x : Carrier) (v : Bool) : State :=
  let old := s.cfx F.CAR_CDE_CTL_LOAD_EN x
  let s := s.setFieldx F.CAR_CDE_CTL_LOAD_EN x 0 (b2n v)
  if old = b2n v ∨ s.cfx F.CAR_CDE_CTL_TABLE_MODE x = 0 ∨ (s.car x).fe.cde = 0 then s else s.cdeCustom x

/-- LOAD_EN_WRITE (R85). -/
def execLoadEnWrite (x : Carrier) (v : Bool) (s : State) : Host.Outcome State Fault Refusal := live s fun s =>
  s.loadEn x v

/-- FE_LIMIT_CLEAR (R77): the DC value of converter `which` 0 to 3, or the IQ pair of polarisation `which` − 4, has been
inside its range by 1/8 of the range for 1 s. -/
def execFeLimitClear (x : Carrier) (which : Fin 6) (s : State) : Host.Outcome State Fault Refusal := live s fun s =>
  let w := which.val
  let inside (lo v hi : Int) : Bool := decide (8 * lo + (hi - lo) ≤ 8 * v ∧ 8 * v ≤ 8 * hi - (hi - lo))
  if w < 4 then
    if inside (-2047) (s.cfxI F.CAR_FE_DC_VALUE x w) 2047 then s.clear 0x0301 x.ev w [0xFF] else s
  else if inside 0x2000 (s.cfx F.CAR_FE_IQ_GAIN x (w - 4)) 0x6000 &&
      inside (-16384) (s.cfxI F.CAR_FE_IQ_PHASE x (w - 4)) 16384 then
    s.clear 0x0301 x.ev 0 [BitVec.ofNat 8 (w - 4)] w
  else s

/-! ### Blind estimation (R88 to R92) -/

/-- The first point and the number of points of a coarse scan (R88). -/
def State.srch (s : State) (x : Carrier) : Int × Nat :=
  let m : Int := dMax (s.cfx F.CAR_RXC_RATE_KBD x)
  let lo := s.cfxI F.CAR_CDE_SRCH_LO_D x
  let hi := s.cfxI F.CAR_CDE_SRCH_HI_D x
  if hi ≤ lo ∨ lo < -m ∨ m < lo ∨ hi < -m ∨ m < hi then (-m, (2 * m / 400).toNat + 1)
  else (lo, ((hi - lo) / 400).toNat + 1)

/-- Start an estimate: a tracking one is centred on CDE_ACT + Dt (R88, R91). -/
def State.estStart (s : State) (x : Carrier) (k : EstKind) : State :=
  let r := match k with
    | .tracking => ((s.car x).fe.act + (s.car x).fe.trim, 1)
    | _ => s.srch x
  s.modFe x fun f => { f with est := some k, tries := 0, estLo := r.1, estN := r.2 }

/-- ESTIMATE (R88): ignored while one runs. While RX_EN is 0 the estimator runs all the same (DESIGN CHOICE, log 58). -/
def execEstimate (x : Carrier) (s : State) : Host.Outcome State Fault Refusal := live s fun s =>
  if (s.car x).fe.est.isNone then s.estStart x .commanded else s

/-- TRACK_INTERVAL (R90). -/
def execTrackInterval (x : Carrier) (s : State) : Host.Outcome State Fault Refusal := live s fun s =>
  if s.cfx F.CAR_CDE_CTL_SOURCE x = 2 ∧ (s.car x).fe.est = none ∧ (s.car x).fe.cde = 2 then s.estStart x .tracking
  else s

/-- ACQUISITION_TIMEOUT (R88, R90): 10 ms of continuous loss of symbol-frame lock. A carrier that has not been in LOCKED
since its enabling has no loss that stands, and no further acquisition (DESIGN CHOICE, log 58). -/
def execAcquisitionTimeout (x : Carrier) (s : State) : Host.Outcome State Fault Refusal := live s fun s =>
  let src := s.cfx F.CAR_CDE_CTL_SOURCE x
  if (src = 1 ∨ src = 2) ∧ (s.car x).rxc.st ≠ .locked ∧ s.stands 0x0401 x.ev 0 ∧
      s.cfx F.CAR_RXC_CTL_RX_EN x = 1 ∧ (s.car x).fe.est ≠ some .acquisition then s.estStart x .acquisition
  else s

/-- Set TRIM.TARGET held within its limit, and judge the trim-limit defect (R91); a TARGET committed in the same cycle
stands (R92). -/
def State.trimTo (s : State) (x : Carrier) (d : Int) : State :=
  if (s.car x).fe.tgtAt = some s.sys.dtime then s else
  (s.setTarget x (clampI (-4096) 4096 d)).defect (4096 < d.natAbs) 0x0305 x.ev 0 [0xFF]

/-- Apply a valid acquisition estimate (R90). -/
def State.estApply (s : State) (x : Carrier) (v : Int) : State :=
  let d := v - (s.car x).fe.act
  let s := s.modFe x fun f => { f with inUse := true }
  if d.natAbs ≤ 400 ∨ s.cfx F.CAR_CDE_CTL_TABLE_MODE x = 1 then s.trimTo x d else s.regen x v

/-- Apply a valid tracking estimate (R91). -/
def State.estTrack (s : State) (x : Carrier) (v : Int) : State :=
  let f := (s.car x).fe
  if 5 ≤ (v - (f.act + f.trim)).natAbs then s.trimTo x (v - f.act) else s

/-- The dispersion of the hypothesis that scored best (R88): fine point `j` of 161 around coarse point `i`. -/
def Fe.estPoint (f : Fe) (i : Nat) (j : Fin 161) : Int := f.estLo + 400 * (min i (f.estN - 1) : Nat) + 5 * ((j.val : Int) - 80)

/-- ESTIMATE_DONE (R89 to R92): the best coarse and fine points and CONF. CDE_EST keeps the last valid result (DESIGN
CHOICE, log 58). With SOURCE 0 a result is reported and not applied; one of the cycle in which a commit regenerated the
table or changed SOURCE is discarded. -/
def execEstimateDone (x : Carrier) (i : Nat) (j : Fin 161) (conf : Fin 256) (s : State) :
    Host.Outcome State Fault Refusal := live s fun s =>
  match (s.car x).fe.est with
  | none => s
  | some k =>
    if (s.car x).fe.estCut = some s.sys.dtime then s.modFe x fun f => { f with est := none, tries := 0 }
    else if 96 ≤ conf.val then
      let v := (s.car x).fe.estPoint i j
      let s := s.modFe x fun f => { f with est := none, tries := 0, estD := v, conf := conf.val, valid := true }
      let s := (s.clear 0x0304 x.ev 0 [0xFF]).occ 0x0303 x.ev 0 [0xFF]
      let src := s.cfx F.CAR_CDE_CTL_SOURCE x
      match k with
      | .tracking => if src = 2 then s.estTrack x v else s
      | _ => if src = 0 then s else s.estApply x v
    else
      let n := (s.car x).fe.tries + 1
      if n < 3 then s.modFe x fun f => { f with tries := n, conf := conf.val, valid := false }
      else (s.modFe x fun f => { f with est := none, tries := 0, conf := conf.val, valid := false }).raise 0x0304 x.ev 0
        [0xFF]

/-! ### Press segments (R98 to R102) -/

/-- STEPS. -/
def State.steps (s : State) (x : Carrier) : Nat := s.cfx F.CAR_PRESS_CTL_STEPS x

/-- Steps that carry segments: m of R98, or STEPS with no span table (R102). -/
def State.segCount (s : State) (x : Carrier) : Nat :=
  match s.spans x with
  | [] => s.steps x
  | l => min (s.steps x) l.length

/-- The spans of step `k` (R98). -/
def State.segSpans (s : State) (x : Carrier) (k : Nat) : List Span :=
  let l := s.spans x
  let n := l.length
  let m := min (s.steps x) n
  if m ≤ k then [] else
  let q := n / m
  let r := n % m
  let off := k * q + min k r
  let size := q + (if k < r then 1 else 0)
  (l.drop (n - off - size)).take size

/-- Linear power of a launch code, in mW. -/
def launchLin (p : Int) : Int := fpow10 (frat p 640)

/-- Mean launch power of a segment in pinches; no value without spans (R99). -/
def segPower (l : List Span) : Nat :=
  match l with
  | [] => noMeas
  | _ => pinchCode (fround (flog10 (l.foldr (fun p a => launchLin p.launch + a) 0 / l.length)) 640)

/-- Energy and first moment along a span, per unit of launch power: ∫ e^(−az/L) and ∫ z e^(−az/L). -/
def Span.energy (p : Span) : Int × Int :=
  let a := fmul (frat p.loss 640) fln10
  if a = 0 then (p.len * fone, (p.len * p.len : Nat) * fone / 2)
  else
    let e := fexp (-a)
    (p.len * fdiv (fone - e) a, (p.len * p.len : Nat) * fdiv (fdiv (fone - fmul e (fone + a)) a) a)

/-- Position of a segment's centroid in metres from its start, in fixed point (R99). -/
def segCentroid (l : List Span) : Int :=
  let t := l.foldl (fun (a : Nat × Int × Int) p =>
    let w := launchLin p.launch
    let e := p.energy
    (a.1 + p.len, a.2.1 + fmul w e.1, a.2.2 + fmul w (a.1 * e.1 + e.2))) (0, 0, 0)
  fdiv t.2.2 t.2.1

/-- Dispersion up to a position in a list of spans, in 10⁻⁶ ps/nm, fixed point. -/
def dispTo (l : List Span) (z : Int) : Int :=
  match l with
  | [] => 0
  | p :: r => if z ≤ p.len * fone then p.disp * z else p.d * fone + dispTo r (z - p.len * fone)

/-- The dispersion from the transmitter to the nonlinear point of step `k` before the scaling of R101 (R99). -/
def State.segAt (s : State) (x : Carrier) (k : Nat) : Int :=
  match s.segSpans x k with
  | [] => 0
  | p :: r =>
    let before := (s.spans x).takeWhile (fun q => q.num != p.num)
    spanSum before * fone + dispTo (p :: r) (segCentroid (p :: r))

/-- c_k of a step in fixed point, in ps/nm (R99, R101, R102). -/
def State.segCF (s : State) (x : Carrier) (k : Nat) : Int :=
  match s.spans x with
  | [] => if s.steps x ≤ k then 0 else frat (s.totalD x * ((s.steps x : Int) - 1 - k)) (s.steps x)
  | l => if spanSum l = 0 then 0 else (s.car x).fe.set.at_.getD k 0 * s.totalD x / spanSum l

/-- c_k of a step as PRESS_DET shows it. -/
def State.segC (s : State) (x : Carrier) (k : Nat) : Int :=
  match s.spans x with
  | [] => if s.steps x ≤ k then 0 else roundDiv (s.totalD x * ((s.steps x : Int) - 1 - k)) (s.steps x)
  | _ => fround (s.segCF x k)

/-- The fibre type of the span that holds a position in a segment; code 0 without a span (R100, R102). -/
def fibreAt (l : List Span) (z : Int) : Nat :=
  match l with
  | [] => 0
  | [p] => p.fibre
  | p :: r => if z ≤ p.len * fone then p.fibre else fibreAt r (z - p.len * fone)

/-- Effective length of a segment in km, its spans weighted by launch power (R99). -/
def segLen (l : List Span) : Int :=
  match l with
  | [] => 0
  | _ => fdiv (fsum (l.map fun p => fmul (launchLin p.launch) p.energy.1)) (fsum (l.map fun p => launchLin p.launch) / l.length)
      / 1000

/-- The coefficient set that the span table and the map give (R99). -/
def State.pressNew (s : State) (x : Carrier) : PressSet :=
  let k := List.range (s.steps x)
  ⟨k.map fun k => segPower (s.segSpans x k), k.map (s.segAt x), k.map fun k => segLen (s.segSpans x k),
    k.map fun k => fibreAt (s.segSpans x k) (segCentroid (s.segSpans x k))⟩

/-- A new set with each power within SLEW of the active one (R103). -/
def State.pressSlewed (s : State) (x : Carrier) : PressSet :=
  let slew : Int := s.cfx F.CAR_PRESS_GUARD_SLEW x
  let new := s.pressNew x
  let old := (s.car x).fe.set.pow
  { new with pow := (List.range new.pow.length).map fun k =>
    let n := new.pow.getD k noMeas
    let o := old.getD k noMeas
    if isMeas n && isMeas o then usg 16 (clampI (pinch o - slew) (pinch o + slew) (pinch n)) else n }

/-- A commit's recomputation: the set takes effect as committed, a guard comparison ends, a waiting set is formed anew for
the new layout (R101, R107). A set that waits as FOLLOW becomes 0 is still applied (DESIGN CHOICE, log 58). -/
def State.pressCommit (s : State) (x : Carrier) : State :=
  let new := s.pressNew x
  let s := s.modFe x fun f => { f with
    set := new, prevSet := ⟨[], [], [], []⟩, restore := false, waitSet := if f.restore then none else f.waitSet
    cmp := match f.cmp with
      | some r => if r.kind = .guard then none else some r
      | none => none }
  let wait := s.pressSlewed x
  (s.modFe x fun f => { f with waitSet := f.waitSet.map fun _ => wait }).spanDisp x

/-- A set formed from a new map (R103); a newer set replaces one that waits. -/
def State.pressFollow (s : State) (x : Carrier) : State :=
  let f := (s.car x).fe
  if s.cfx F.CAR_PRESS_CTL_FOLLOW x = 0 ∨ f.followStop ∨ s.steps x = 0 then s else
  let new := s.pressSlewed x
  (s.modFe x fun f => if f.restore then f else { f with waitSet := some new }).spanDisp x

/-- Steps of a carrier shed for heat (R551). -/
def State.shedSteps (s : State) (x : Carrier) : List Nat := s.sys.shed.filterMap fun h => match h with
  | .step y k => if y = x then some k else none
  | _ => none

/-- Steps are shed (R552). -/
def State.stepsShed (s : State) : Bool := !(s.shedSteps .A).isEmpty || !(s.shedSteps .B).isEmpty

/-- A step is assigned and active as committed (R95, R98). -/
def State.stepSet (s : State) (x : Carrier) (k : Nat) : Bool :=
  k < s.segCount x && bit (s.cfx F.CAR_PRESS_ACT_ACTIVE x) k

/-- A step takes part: active as committed, and not made transparent (R105, R109, R550 to R552). -/
def State.stepActive (s : State) (x : Carrier) (k : Nat) : Bool :=
  let f := (s.car x).fe
  s.stepSet x k && !f.autoOff && !f.deadSteps.contains k && !f.heldSteps.contains k && !s.sys.shutdown &&
    !(s.shedSteps x).contains k

/-- With no step shed, no committed step is held back (R552). -/
def State.shedFree (s : State) : State :=
  if s.stepsShed then s else
  (s.modFe .A fun f => { f with heldSteps := [] }).modFe .B fun f => { f with heldSteps := [] }

/-- Shed steps at a commit (R552): those it makes transparent or unassigns are shed no more, and those that it makes
active are held back while steps are shed. `was`: the steps set before. -/
def State.shedCommit (s : State) (x : Carrier) (was : List Nat) : State :=
  let new := if s.stepsShed then (List.range 64).filter fun k => s.stepSet x k && !was.contains k else []
  let keep (h : Shed) : Bool := match h with
    | .step y k => y != x || s.stepSet x k
    | _ => true
  ((s.modSys fun y => { y with shed := y.shed.filter keep }).modFe x fun f => { f with
    heldSteps := (f.heldSteps ++ new).filter (s.stepSet x) }).shedFree

/-- Active steps of a carrier. -/
def State.activeSteps (s : State) (x : Carrier) : List Nat := (List.range (s.steps x)).filter (s.stepActive x)

/-- The comparison of R104 or R105 that starts now: the intervals of 10 ms before it are those last measured. -/
def State.pressRun (s : State) (x : Carrier) (kind : PressCmp) : PressRun :=
  let n := max 1 (s.cfx F.CAR_PRESS_GUARD_WINDOW x)
  ⟨kind, n, true, (s.car x).rxc.mean10.take n, []⟩

/-- A comparison that can be made: no interval before it is without a value (R145). -/
def PressRun.usable (r : PressRun) : Bool := r.before.length == r.window && r.before.all isMeas

/-- A waiting set takes effect at a symbol-frame boundary, unless a comparison runs or steps are shed (R103, R104,
R552). -/
def State.pressBoundary (s : State) (x : Carrier) : State :=
  let f := (s.car x).fe
  match f.waitSet with
  | some p =>
    if f.restore then s.modFe x fun f => { f with set := p, prevSet := ⟨[], [], [], []⟩, waitSet := none, restore := false }
    else if f.cmp.isSome ∨ s.stepsShed then s
    else
      let run := s.pressRun x .guard
      let guard := s.cfx F.CAR_PRESS_GUARD_DROP x != 0x8000 && run.usable
      (s.modFe x fun f => { f with
        set := p, prevSet := f.set, waitSet := none, cmp := if guard then some run else none }).occ 0x0307 x.ev 0 [0xFF]
  | none => s

/-- A running comparison of this kind whose last interval has ended: the sums of the MEAN_SNR values before and after its
boundary (the mean over the window is that of the pinch values: DESIGN CHOICE, log 58). -/
def Fe.compared (f : Fe) (k : PressCmp) : Option (Nat × Int × Int) :=
  match f.cmp with
  | some r =>
    if r.kind = k ∧ r.after.length = r.window then
      some (r.window, r.before.foldr (fun v a => pinch v + a) 0, r.after.foldr (fun v a => pinch v + a) 0)
    else none
  | none => none

/-- PRESS_GUARD_COMPARE (R104): WINDOW intervals have ended since the boundary. The previous set takes the place of a newer
set that waits, and no map's set replaces it before its boundary (DESIGN CHOICE, log 58). -/
def execPressGuardCompare (x : Carrier) (s : State) : Host.Outcome State Fault Refusal := live s fun s =>
  match (s.car x).fe.compared .guard with
  | none => s
  | some (w, before, after) =>
    let s := s.modFe x fun f => { f with cmp := none, lastDelta := pinchCode (roundDiv (after - before) w) }
    if pinch (s.cfx F.CAR_PRESS_GUARD_DROP x) * w < before - after then
      let n := (s.car x).fe.reverts + 1
      let s := (s.modFe x fun f => { f with
        waitSet := some f.prevSet, restore := true, reverts := n % 256 }).occ 0x0308 x.ev 0 [0xFF]
      if 3 ≤ n then (s.modFe x fun f => { f with followStop := true }).raise 0x0309 x.ev 0 [0xFF] else s
    else s.modFe x fun f => { f with reverts := 0 }

/-- PRESS_GAIN_COMPARE (R105). -/
def execPressGainCompare (x : Carrier) (s : State) : Host.Outcome State Fault Refusal := live s fun s =>
  match (s.car x).fe.compared .gain with
  | none => s
  | some (w, before, after) =>
    let s := s.modFe x fun f => { f with cmp := none, lastDelta := pinchCode (roundDiv (after - before) w) }
    if after < before then
      let off := s.cfx F.CAR_PRESS_CTL_AUTO_OFF x == 1
      (s.modFe x fun f => { f with noGain := true, autoOff := f.autoOff || off }).raise 0x030A x.ev 0 [0xFF]
    else (s.modFe x fun f => { f with noGain := false }).clear 0x030A x.ev 0 [0xFF]

/-- ξ is 1/16 inside its range: the ξ-limit defect clears (R106). -/
def State.xiInside (s : State) (x : Carrier) : State :=
  let v := s.cfx F.CAR_PRESS_XI_XI x
  if 0x2400 ≤ v ∧ v ≤ 0x5C00 then s.clear 0x030C x.ev 0 [0xFF] else s

/-- XI_ADAPT (R106): the mean SNR code of the window that ends. With no active step ξ stays, and between two windows of
equal SNR the direction is kept (DESIGN CHOICE, log 58). -/
def execXiAdapt (x : Carrier) (snr : Nat) (s : State) : Host.Outcome State Fault Refusal := live s fun s =>
  let f := (s.car x).fe
  if s.cfx F.CAR_PRESS_CTL_ADAPT x = 0 ∨ s.activeSteps x = [] ∨ !isMeas snr then s else
  let up := if isMeas f.xiSnr && decide (pinch snr < pinch f.xiSnr) then !f.xiUp else f.xiUp
  let v : Int := (s.cfx F.CAR_PRESS_XI_XI x : Int) + (if up then 256 else -256)
  let w := clampI 0x2000 0x6000 v
  let s := (s.setFieldx F.CAR_PRESS_XI_XI x 0 w.toNat).modFe x fun f => { f with xiUp := up, xiSnr := snr }
  if w = 0x2000 ∨ w = 0x6000 then s.raise 0x030C x.ev 0 [0xFF] else s.xiInside x

/-- A change of STEPS interrupts the input for 2.5 N / Fs, which is 4 symbol frames above 128 GBd and 2 otherwise (R95). -/
def State.stepsCut (s : State) (x : Carrier) : State :=
  let n := if s.cfx F.CAR_RXC_RATE_KBD x ≤ 128000000 then 2 else 4
  (s.modRxc x fun c => { c with interrupted := n }).settle x

/-- With an engine for every assigned step, no step lacks one (R109). -/
def State.enginesFree (s : State) : State :=
  if s.steps .A + s.steps .B + s.retired.length ≤ 48 then
    (s.modFe .A fun f => { f with deadSteps := [] }).modFe .B fun f => { f with deadSteps := [] }
  else s

/-- Engine `e`, which serves step `use` or none, is retired (R109); `data` when the fault lies in its data memory. A
free engine is loaded for the step; without one the step goes transparent, or the carrier restarts with one step
less. -/
def State.engineRetire (s : State) (e : Nat) (use : Option (Carrier × Nat)) (data : Bool) : State :=
  if s.retired.contains e then s else
  let s := { s with retired := e :: s.retired }
  match use with
  | none => s.occ 0x030D 0 0 [0xFF]
  | some (x, k) =>
    let s := s.occ 0x030D x.ev k [0xFF]
    if s.steps x ≤ k then s
    else if s.steps .A + s.steps .B + s.retired.length ≤ 48 then
      s.modFe x fun f => { f with takeover := f.takeover ++ [k] }
    else if data then
      ((((s.setBoth F.CAR_PRESS_CTL_STEPS x (s.steps x - 1)).pressCommit x).shedCommit x
        (List.range 64)).enginesFree).stepsCut x
    else s.modFe x fun f => { f with deadSteps := if f.deadSteps.contains k then f.deadSteps else k :: f.deadSteps }

/-- ENGINE_TAKEOVER (R109): at a symbol-frame boundary the engine loaded for step `k` takes over, without a hit. -/
def execEngineTakeover (x : Carrier) (k : Nat) (s : State) : Host.Outcome State Fault Refusal := live s fun s =>
  s.modFe x fun f => { f with takeover := f.takeover.filter (· ≠ k) }

/-! ### Filter sets and nonlinear coefficients (R93, R99, R100, R102, R363) -/

/-- Index of a set's words: fibre type × 7 + rate point, 120 words of two taps. -/
def filtKey (x : Carrier) (set w : Nat) : RegKey := ⟨.PRESS_FILT, carIdx .PRESS_FILT x (set * 120 + w)⟩

/-- The rate point nearest a symbol rate, the lower one of two (R100). -/
def ratePoint (kbd : Nat) : Nat := min 6 ((kbd - 48000001) / 32000000)

/-- Fibre type of step `k` in the set in force (R100); code 0 without a span table. -/
def State.segFibre (s : State) (x : Carrier) (k : Nat) : Nat := (s.car x).fe.set.fib.getD k 0

/-- Tap `t` of hs_k (`own`) or hx_k in units of 2⁻¹⁴: pair `spans − 1` up to 7 of the set of the segment's fibre type and
the rate point (R99, R100); a set that was never replaced is as Barralia ships it. With no span table the spec names no
pair or type: pair 0 of fibre code 0 serves (DESIGN CHOICE, log 58). -/
def State.segTap (s : State) (x : Carrier) (k : Nat) (own : Bool) (t : Nat) : Int :=
  let set := s.segFibre x k * 7 + ratePoint (s.cfx F.CAR_RXC_RATE_KBD x)
  let i := min 7 ((s.segSpans x k).length - 1) * 30 + (if own then 0 else 15) + t
  let w := (aget s.regs.active (filtKey x set (i / 2))).getD (Config.pressFilt set (i / 2))
  sgn 16 (w.toNat / 65536 ^ (i % 2))

/-- γ of a fibre type in 1/(W km), in fixed point (R363). -/
def State.fibreGamma (s : State) (x : Carrier) (f : Nat) : Int :=
  match f with
  | 0 => frat 130 100
  | 1 => frat 78 100
  | 2 => frat 150 100
  | _ => frat (s.cfx F.CAR_CM_FIBRE_GAMMA x) 1024

/-- γ_k in radians (R99): the fibre's coefficient, the power-weighted effective length in km and the mean launch power in W,
both of the set in force. With no span table every step has the same, at the default coefficient (R102); the length and the
power are then stated nowhere. While a word of its coefficients is poisoned the step applies 0 (R436). -/
def State.segGamma (s : State) (x : Carrier) (k : Nat) : Int :=
  if s.mem.mems.any fun e => e.2.step == some (x, k) && e.2.poison != [] then 0 else
  match s.spans x, s.segSpans x k with
  | [], _ => if s.steps x ≤ k then 0 else fmul (s.fibreGamma x 0) (Config.segLoad (s.steps x))
  | _, [] => 0
  | _, _ =>
    let q := (s.car x).fe.set
    let p := q.pow.getD k noMeas
    if isMeas p then fmul (fmul (s.fibreGamma x (s.segFibre x k)) (q.len.getD k 0)) (launchLin (pinch p) / 1000) else 0

/-- TABLE_LOAD (R100, R494). -/
def execTableLoad (fn : Fn) (r : Nat) (s : State) : Host.Outcome State Fault Refusal :=
  command fn r 0x0201 s fun d b _ =>
    if leAt b 0 2 ≠ 1 then stop 3 16
    else if byteAt b 2 ≠ byteAt d 17 then stop 3 17
    else if byteAt b 3 ≠ byteAt d 18 then stop 3 18
    else
      let set := byteAt d 17 * 7 + byteAt d 18
      (0, 0, fun s => (List.range 120).foldl (fun s w =>
        let v := BitVec.ofNat 32 (leAt b (16 + 4 * w) 4)
        (s.stage (filtKey .A set w) v (-1)).stage (filtKey .B set w) v (-1)) s)

end Sys2Proof.Machine
end

