-- ==== Sys2Proof/Machine/Crease.lean ====
section
/-! DEFINITION. The crease map: integrations, span fits, conditions and the history in CXL memory (R360 to R376). -/

namespace Sys2Proof.Machine

/-- A span of the table with its place on the link (R362): number, start and end in metres, dispersion coefficient, fibre
type. -/
structure CmSpan where
  num   : Nat
  lo    : Nat
  hi    : Nat
  disp  : Int
  fibre : Nat
deriving DecidableEq, Repr

/-- The spans of non-zero length in use. -/
def State.cmSpans (s : State) (x : Carrier) : List CmSpan :=
  ((List.range (min 256 (s.cfx F.CAR_CM_SPANS_COUNT x))).foldl (fun (a : List CmSpan × Nat) i =>
    let n := s.cfx F.CAR_CM_SPAN0_LENGTH_M x i
    if n = 0 then a else (⟨i, a.2, a.2 + n, s.cfxI F.CAR_CM_SPAN2_DISP x i,
      s.cfx F.CAR_CM_SPAN0_FIBRE x i⟩ :: a.1, a.2 + n)) ([], 0)).1.reverse

/-- Δ in metres (R360). -/
def State.cmDelta (s : State) (x : Carrier) : Nat := max 1 (s.cfx F.CAR_CM_CTL_SPACING_M x)

/-- Resolution in metres at a dispersion coefficient (R361). -/
def cmRes (kbd : Nat) (disp : Int) : Nat :=
  1000 * 256000000 ^ 2 * 16800 / max 1 (kbd * kbd * disp.natAbs)

/-- Resolution around position `z` of carrier `x`'s link. -/
def State.cmResAt (s : State) (x : Carrier) (l : List CmSpan) (z : Nat) : Nat :=
  cmRes (s.cfx F.CAR_RXC_RATE_KBD x) (match l.find? (fun p => p.lo ≤ z && z < p.hi) with
    | some p => p.disp
    | none => s.cfxI F.CAR_CM_FIBRE_DEF_DISP x)

/-- End of the link in metres: of the last span, or, without spans, CDE_ACT + Dt at the default coefficient (R364). -/
def State.cmEnd (s : State) (x : Carrier) (l : List CmSpan) : Nat :=
  match l.getLast? with
  | some p => p.hi
  | none =>
    let d := s.cfxI F.CAR_CM_FIBRE_DEF_DISP x
    if d = 0 then 0 else (s.totalD x * 1000000 / d).toNat

/-- Bins from and to which a standing anomaly marks the map: ±1 resolution (R364). -/
def Anom.bins (a : Anom) (res delta : Nat) : Nat × Nat := (a.bin - res / delta, a.bin + res / delta)

/-- An entry of the map (R364). -/
def cmEntry (power : Option Int) (conf : Nat) (part anom start beyond : Bool) (confMin : Nat) : Word :=
  BitVec.ofNat 32 ((if beyond then noMeas else power.elim noMeas pinchCode) * 65536 + conf % 256 * 256 + 16 * b2n part +
    8 * b2n anom + 4 * b2n start + 2 * b2n beyond + b2n (decide (confMin ≤ conf % 256)))

/-- A condition of R368: raised when it holds in 2 complete integrations in a row, cleared when it fails in 2. Answers
the two runs, and the change. -/
def run2 (on : Bool) (up dn : Nat) : Nat × Nat × Option Bool :=
  if on then (up + 1, 0, if 1 ≤ up then some true else none)
  else (0, dn + 1, if 1 ≤ dn then some false else none)

/-- Raise or clear a defect as `run2` answers. -/
def State.settle2 (s : State) (c : Option Bool) (code : Nat) (x : Carrier) (index : Nat := 0) (data : Bytes := [])
    (sub : Nat := 0) : State :=
  match c with
  | some on => s.defect on code x.ev index data sub
  | none => s

/-- DATA of an anomaly record (R483). -/
def anomData (bin loss : Nat) : Bytes := leBytes 3 bin ++ leBytes 2 loss

/-- A step matches an anomaly or an earlier step: same span, within one resolution. -/
def nearStep (delta res : Nat) (span bin : Nat) (p : Nat × Nat × Nat) : Bool :=
  p.1 == span && decide ((max p.2.1 bin - min p.2.1 bin) * delta ≤ res)

/-- Standing loss anomalies follow the steps of a complete integration (R368, R369); a loss above the largest pinch code is
reported as that (R6). -/
def State.cmAnoms (s : State) (x : Carrier) (l : List CmSpan) (steps : List (Nat × Nat × Nat)) : State :=
  let thr := s.cfx F.CAR_CM_THR_ANOM_THR x
  let delta := s.cmDelta x
  let res (bin : Nat) := s.cmResAt x l (bin * delta)
  let inside := (steps.map fun p => (p.1, p.2.1, min 32767 p.2.2)).filter fun p => l.any fun q => q.num == p.1 && decide (q.lo + res p.2.1 < p.2.1 * delta ∧
    p.2.1 * delta < q.hi)
  let found := inside.filter fun p => isMeas thr && decide (sgn 16 thr < p.2.2)
  let stay := inside.filter fun p => isMeas thr && decide (sgn 16 thr - 2 < p.2.2)
  let old := (s.car x).cm
  let upd := old.anoms.map fun a =>
    match stay.find? (nearStep delta (res a.bin) a.span a.bin) with
    | some p => { a with loss := p.2.2, age := min 65535 (a.age + 1), miss := 0 }
    | none => { a with age := min 65535 (a.age + 1), miss := a.miss + 1 }
  let gone := upd.filter fun a => 2 ≤ a.miss
  let kept := upd.filter fun a => a.miss < 2
  let fresh := found.filter fun p => !(upd.any fun a => nearStep delta (res a.bin) a.span a.bin p)
  let new := fresh.filter fun p => old.cand.any (nearStep delta (res p.2.1) p.1 p.2.1)
  let anoms := kept ++ new.map fun p => ⟨p.1, p.2.1, p.2.2, 0, 0⟩
  let freed := (upd.take 64).any fun a => 2 ≤ a.miss
  let s := s.modCm x fun c => { c with
    anoms := anoms
    full := (c.full && !freed) || (decide (64 < anoms.length) && new != [])
    cand := fresh.filter fun p => !new.contains p }
  let s := gone.foldl (fun s a => s.clear 0x0D03 x.ev a.span (anomData a.bin a.loss) a.bin) s
  new.foldl (fun s p => (s.bumpx .CAR_CM_ANOM_CNT x).raise 0x0D03 x.ev p.1 (anomData p.2.1 p.2.2) p.2.1) s

/-- γ of a fibre type in pinches relative to 1/(W km) (R363); none for a custom coefficient of 0. -/
def State.gammaPinch (s : State) (x : Carrier) (f : Nat) : Option Int :=
  let g := s.fibreGamma x f
  if g ≤ 0 then none else some (fround (flog10 g) 640)

/-- P(z) from the correlation γ × P at a position (R358): γ of the fibre type there is divided out, that of code 0 where
no span lies. -/
def cmPower (l : List CmSpan) (g : List (Option Int)) (z : Nat) (corr : Option Int) : Option Int :=
  match g.getD ((l.find? fun p => p.lo ≤ z && z < p.hi).elim 0 CmSpan.fibre) none, corr with
  | some v, some c => some (c - v)
  | _, _ => none

/-- CONF of a standard deviation in 2⁻¹⁶ dB, which is 4 to the (64 − CONF) / 64 dB, held to its field (R366). -/
def cmConf (sd : Nat) : Nat :=
  if sd = 0 then 255 else (max 0 (min 255 (64 - fround (fdiv (flog10 (frat sd 65536)) (flog10 (2 * fone))) 32))).toNat

/-- The entries after a complete integration (R364). -/
def State.cmMap (s : State) (x : Carrier) (l : List CmSpan) (m : CmMeas) : List Word :=
  let delta := s.cmDelta x
  let fin := s.cmEnd x l
  let cm := s.cfx F.CAR_CM_CTL_CONF_MIN x
  let starts := l.map fun p => p.lo / delta
  let marks := (s.car x).cm.anoms.map fun a => a.bins (s.cmResAt x l (a.bin * delta)) delta
  let part : Bool := m.lock < 9000
  let bins := (m.bins ++ List.replicate (131072 - m.bins.length) none).take 131072
  let gs := (List.range 4).map (s.gammaPinch x)
  bins.zipIdx.map fun e =>
    let b := e.2
    cmEntry (cmPower l gs (b * delta + delta / 2) (e.1.map (·.1))) (e.1.elim 0 fun v => cmConf v.2) part (marks.any fun k => k.1 ≤ b && b ≤ k.2)
      (starts.contains b) (decide (fin ≤ b * delta)) cm

/-- The fit of a span (R367) from the new entries. -/
def State.cmFit (s : State) (x : Carrier) (map : List Word) (m : CmMeas) (p : CmSpan) : SpanFit :=
  let old := agetD (s.car x).cm.fits p.num fitReset
  let delta := s.cmDelta x
  let res := cmRes (s.cfx F.CAR_RXC_RATE_KBD x) p.disp
  let b0 := p.lo / delta
  let mine := (map.drop b0).take ((p.hi + delta - 1) / delta - b0)
  let ok := mine.filter fun w => bits w 0 0 == 1
  let used := (mine.zipIdx.filter fun e => bits e.1 0 0 == 1 && bits e.1 3 3 == 0 &&
    decide (p.lo + res ≤ (b0 + e.2) * delta)).map (·.1)
  let conf := if used = [] then 0
    else (roundDiv (sumN (used.map fun w => bits w 15 8) : Nat) used.length).toNat
  let steps : Int := sumN (((s.car x).cm.anoms.filter fun a => a.span == p.num).map (·.loss))
  let fit := (m.fits.find? fun f => f.1 == p.num).filter fun _ => used != []
  let valid := fit.isSome && decide (s.cfx F.CAR_CM_CTL_CONF_MIN x ≤ conf ∧ mine.length ≤ 2 * ok.length)
  match fit with
  | some f => { old with
      launch := pinchCode f.2.1, loss := pinchCode (f.2.2 + steps), conf := conf, valid := valid }
  | none => { old with launch := noMeas, loss := noMeas, conf := conf, valid := false }

/-- Launch deviation of a span (R368): a span that the table no longer lists has no valid fit, and the condition fails. -/
def State.cmDeviate (s : State) (x : Carrier) (n : Nat) (f : SpanFit) : State :=
  let thr := s.cfx F.CAR_CM_THR2_LAUNCH_THR x
  let on := f.valid && isMeas thr &&
    decide (sgn 16 thr < (pinch f.launch - s.cfxI F.CAR_CM_SPAN1_LAUNCH x n).natAbs)
  let r := run2 on f.devRun f.okRun
  let s := s.settle2 r.2.2 0x0D05 x 0 [] n
  s.modCm x fun c => { c with fits := aset c.fits n { f with
    devRun := r.1, okRun := r.2.1, deviate := s.stands 0x0D05 x.ev 0 n } }

/-- Span-table mismatch holds in this integration (R368). -/
def State.cmMismatch (s : State) (x : Carrier) (l : List CmSpan) (m : CmMeas) : Bool :=
  let thr := s.cfx F.CAR_CM_THR2_MISMATCH_THR x
  let rises := (m.rises.filter fun r => decide (sgn 16 thr < r.2)).map (·.1)
  let near (z y : Nat) : Bool := decide (max z y - min z y ≤ 2000)
  isMeas thr && l != [] && (rises.any (fun z => !l.any fun p => near z p.lo) ||
    l.tail.any fun p => decide (p.lo < 131072 * s.cmDelta x) && !rises.any (near p.lo))

/-- The slope of the valid spans' fitted launch powers against their start positions, in pinches per 1,000 km: the line of least
squares (DEDUCED, log 65). -/
def State.cmSlope (s : State) (x : Carrier) (l : List CmSpan) : Int :=
  let pts : List (Int × Int) := l.filterMap fun p =>
    let f := agetD (s.car x).cm.fits p.num fitReset
    if f.valid then some ((p.lo : Int), pinch f.launch) else none
  let n : Int := pts.length
  let sx := (pts.map (·.1)).sum
  let sy := (pts.map (·.2)).sum
  let den := n * (pts.map fun p => p.1 * p.1).sum - sx * sx
  if den = 0 then 0 else roundDiv ((n * (pts.map fun p => p.1 * p.2).sum - sx * sy) * 1000000) den.toNat

/-- Gain tilt and span-table mismatch after a complete integration (R368). -/
def State.cmLink (s : State) (x : Carrier) (l : List CmSpan) (m : CmMeas) : State :=
  let enough := 4 ≤ (l.filter fun p => (agetD (s.car x).cm.fits p.num fitReset).valid).length
  let thr := s.cfx F.CAR_CM_THR_TILT_THR x
  let tilt := s.cmSlope x l
  let t := run2 (enough && isMeas thr && decide (sgn 16 thr < tilt.natAbs)) (s.car x).cm.tiltRun (s.car x).cm.tiltOk
  let i := run2 (s.cmMismatch x l m) (s.car x).cm.misRun (s.car x).cm.misOk
  let slope := if enough then pinchCode tilt else noMeas
  let s := s.modCm x fun c => { c with
    slope := slope, tiltRun := t.1, tiltOk := t.2.1, misRun := i.1, misOk := i.2.1 }
  (s.settle2 t.2.2 0x0D04 x 0 (leBytes 2 slope)).settle2 i.2.2 0x0D06 x

/-- Bytes of a region (R456). -/
def State.rgnBytes (s : State) (g : Nat) : Nat := s.cf F.CXL_RGN_SIZE_SIZE g * 2097152

/-- CM_HIST_DEPTH (R371). -/
def State.cmDepth (s : State) (x : Carrier) : Nat :=
  let g := s.cfx F.CAR_CM_HIST_REGION x
  if g < 32 ∧ (agetD s.cxl.rgns g rgnReset).st ≠ .unassigned then s.rgnBytes g / 528384 else 0

/-- A history record can be written (R373). -/
def State.cmHistOk (s : State) (x : Carrier) : Bool :=
  let g := s.cfx F.CAR_CM_HIST_REGION x
  g < 32 && (agetD s.cxl.rgns g rgnReset).st == .ready && decide (0 < s.cmDepth x)

/-- INTEGRATION_END (R364 to R373): the integration's time is over. The shed of R551 keeps a map that it stopped
stopped. -/
def execIntegrationEnd (x : Carrier) (m : CmMeas) (s : State) : Host.Outcome State Fault Refusal := live s fun s =>
  if (s.car x).cm.run = false then s else
  let t0 := (s.car x).cm.start
  let s := s.modCm x fun c => { c with start := s.ns }
  if m.cover < 5000 then (s.bumpx .CAR_CM_DISCARD x).occ 0x0D02 x.ev 0 else
  let l := s.cmSpans x
  let s := (s.modCm x fun c => { c with seq := (c.seq + 1) % 2 ^ 32 }).occ 0x0D01 x.ev 0
  let s := s.cmAnoms x l m.steps
  let map := s.cmMap x l m
  let s := (s.modCm x fun c => { c with map := map }).memClean (2 + x.num)
  let s := l.foldl (fun s p => s.cmDeviate x p.num (s.cmFit x map m p)) s
  let off := (s.car x).cm.fits.filter fun e => !l.any fun p => p.num == e.1
  let s := off.foldl (fun s e => s.cmDeviate x e.1 { e.2 with launch := noMeas, loss := noMeas, conf := 0, valid := false }) s
  let s := s.modCm x fun c => { c with fits := c.fits.filter fun e => e.2.deviate || l.any fun p => p.num == e.1 }
  let s := (s.cmLink x l m).pressFollow x
  if s.cfx F.CAR_CM_CTL_HIST_EN x = 0 then s
  else if s.cmHistOk x then s.modCm x fun c => { c with hist := some (t0, s.ns, min 100 (m.lock / 100)) }
  else s.raise 0x0D08 x.ev 0

/-- A map entry as it is read (R364, R374): that of a poisoned word shows no power and no confidence. -/
def State.cmRead (s : State) (x : Carrier) (b : Nat) : Word :=
  let w := (s.car x).cm.map.getD b 0x80000000
  if s.poisoned (2 + x.num) (b / 2) then (w &&& 0x000000FF) ||| 0x80000000 else w

/-- CM_FIT of a span: launch power and loss, then confidence and flags (R377). -/
def State.cmFitWords (s : State) (x : Carrier) (n : Nat) : Word × Word :=
  let f := agetD (s.car x).cm.fits n fitReset
  let a := (s.car x).cm.anoms.any fun a => a.span == n
  (BitVec.ofNat 32 (f.launch * 65536 + f.loss),
   BitVec.ofNat 32 (f.conf * 256 + 4 * b2n f.deviate + 2 * b2n a + b2n f.valid))

/-- A word as four bytes (R1). -/
def wordBytes (w : Word) : Bytes := leBytes 4 w.toNat

/-- The record header of R372. -/
def State.cmHeader (s : State) (x : Carrier) (h : Nat × Nat × Nat) (poisoned : Nat) : Bytes :=
  let c := (s.car x).cm
  let fl := b2n (s.stands 0x0D07 x.ev 0) + 2 * b2n (s.stands 0x0D06 x.ev 0) + 4 * b2n (poisoned != 0)
  let b := leBytes 2 1 ++ [BitVec.ofNat 8 x.num, BitVec.ofNat 8 fl] ++ leBytes 4 c.seq ++ leBytes 8 h.1 ++
    leBytes 8 h.2.1 ++ leBytes 2 (s.cfx F.CAR_CM_CTL_INT_S x) ++ leBytes 2 (s.cfx F.CAR_CM_CTL_SPACING_M x) ++
    leBytes 2 (s.cfx F.CAR_CM_SPANS_COUNT x) ++ [BitVec.ofNat 8 h.2.2, 0] ++
    leBytes 4 (s.cfx F.CAR_RXC_RATE_KBD x) ++ leBytes 4 (usg 32 (s.totalD x)) ++ leBytes 2 c.slope ++
    leBytes 2 c.anoms.length ++ leBytes 4 poisoned ++ List.replicate 12 0
  b ++ leBytes 4 (crc32c b)

/-- HISTORY_WRITE_DONE (R371 to R373): header CRC zeroed, fits, entries, then the header. -/
def execHistoryWriteDone (x : Carrier) (s : State) : Host.Outcome State Fault Refusal := live s fun s =>
  match (s.car x).cm.hist with
  | none => s
  | some h =>
    let s := s.modCm x fun c => { c with hist := none }
    if s.cmHistOk x = false then s.raise 0x0D08 x.ev 0 else
    let g := s.cfx F.CAR_CM_HIST_REGION x
    let n := s.cmDepth x
    let r := (s.car x).cm.next % n
    let o := r * 528384
    let bad (b : Nat) : Bool := s.poisoned (2 + x.num) (b / 2)
    let poisoned := 2 * ((s.memo (2 + x.num)).poison.filter fun e => e.1 < 65536).length
    let ents := (List.range 131072).flatMap fun b => if bad b then [0, 0, 0, 0] else wordBytes (s.cmRead x b)
    let fits := (List.range 256).flatMap fun i =>
      let w := s.cmFitWords x i
      wordBytes w.1 ++ wordBytes w.2
    let s := s.emit (.cxlWrite g (o + 60) [0, 0, 0, 0])
    let s := s.emit (.cxlWrite g (o + 0x40) fits)
    let s := s.emit (.cxlWrite g (o + 0x1000) ents)
    let s := s.emit (.cxlWrite g o (s.cmHeader x h poisoned))
    (s.modCm x fun c => { c with next := (r + 1) % n }).clear 0x0D08 x.ev 0

/-- Start an integration, or stop the map (R365, R370): the commit's boundary abandons the one in progress. -/
def State.cmRestart (s : State) (x : Carrier) : State :=
  let on := s.cfx F.CAR_CM_CTL_EN x == 1 && !s.sys.shed.contains .aux
  s.modCm x fun c => { c with run := on, start := s.ns }

/-- Coverage short (R368), evaluated at each commit. -/
def State.cmCover (s : State) (x : Carrier) : State :=
  match (s.cmSpans x).getLast? with
  | some p => s.defect (decide (131072 * s.cmDelta x < p.hi)) 0x0D07 x.ev 0
  | none => s.clear 0x0D07 x.ev 0

/-- A committed threshold of 0x8000 clears what it disables (R8). -/
def State.cmThresholds (s : State) (x : Carrier) : State :=
  let off (f : Fref) : Bool := !isMeas (s.cfx f x)
  let s := if off F.CAR_CM_THR_ANOM_THR then
      ((s.car x).cm.anoms.foldl (fun s a => s.clear 0x0D03 x.ev a.span (anomData a.bin a.loss) a.bin) s).modCm x
        fun c => { c with anoms := [], cand := [], full := false }
    else s
  let s := if off F.CAR_CM_THR_TILT_THR then (s.clear 0x0D04 x.ev 0 (leBytes 2 (s.car x).cm.slope)).modCm x fun c =>
      { c with tiltRun := 0 } else s
  let s := if off F.CAR_CM_THR2_LAUNCH_THR then
      ((List.range 256).foldl (fun s n => s.clear 0x0D05 x.ev 0 [] n) s).modCm x fun c => { c with
        fits := c.fits.map fun e => (e.1, { e.2 with deviate := false, devRun := 0 }) }
    else s
  if off F.CAR_CM_THR2_MISMATCH_THR then (s.clear 0x0D06 x.ev 0).modCm x fun c => { c with misRun := 0 } else s

end Sys2Proof.Machine
end

