-- ==== Sys2Proof/Machine/Ciph.lean ====
section
/-! DEFINITION. The line cipher: key places, encryption and tags, key agreement (chapter 09). -/

namespace Sys2Proof.Machine

/-! ### Free values and bytes -/

/-- `n` bytes of a fresh free value. -/
def State.fresh (s : State) (n : Nat) : State × Bytes :=
  let d := s.draw
  (d.1, beBytes n (Config.freeBits (8 * n) d.2).toNat)

/-! ### The key table (R267) -/

/-- A channel's cipher state. -/
def State.ciphCh (s : State) (c : Nat) : CiphCh := agetD s.ciph.ch c ciphChReset
/-- Change it. -/
def State.modCiph (s : State) (c : Nat) (f : CiphCh → CiphCh) : State :=
  { s with ciph := { s.ciph with ch := aset s.ciph.ch c (f (s.ciphCh c)) } }
/-- A place. -/
def CiphCh.ent (h : CiphCh) (p : Nat) : Option KeyEnt := if p = 0 then h.p0 else h.p1
/-- Set a place. -/
def CiphCh.setEnt (h : CiphCh) (p : Nat) (e : Option KeyEnt) : CiphCh :=
  if p = 0 then { h with p0 := e } else { h with p1 := e }
/-- The transmit direction on a carrier. -/
def CiphCh.outp (h : CiphCh) (x : Carrier) : CiphOut :=
  match x with
  | .A => h.outA
  | .B => h.outB
/-- Change it. -/
def CiphCh.setOut (h : CiphCh) (x : Carrier) (o : CiphOut) : CiphCh :=
  match x with
  | .A => { h with outA := o }
  | .B => { h with outB := o }
/-- Change a channel's receive direction. -/
def State.modIn (s : State) (x : Carrier) (c : Nat) (f : CiphIn → CiphIn) : State := s.modCiph c fun h => h.modIn x f

/-- Receive carriers on which a channel owns slots. -/
def State.rxCars (s : State) (c : Nat) : List Carrier := [.A, .B].filter fun x => s.ownsSlot .CAR_TR_SLOT_RX x c
/-- Transmit carriers on which a channel owns slots. -/
def State.txCars (s : State) (c : Nat) : List Carrier := [.A, .B].filter fun x => s.ownsSlot .CAR_TR_SLOT_TX x c

/-- Carriers that the receive direction of a channel keeps places for: those with slots, or both while it has none (R267). -/
def State.keyCars (s : State) (c : Nat) : List Carrier := if s.rxCars c = [] then [.A, .B] else s.rxCars c

/-- A place is in use by a direction or kept as a fallback; `cs` the carriers that receive. -/
def CiphCh.used (h : CiphCh) (cs : List Carrier) (p : Nat) : Bool :=
  h.tx == some p || cs.any fun x => (h.inp x).place == some p || (h.inp x).fall == some p

/-- A free place: neither used nor holding an entry that waits (R267, R557). -/
def CiphCh.free (h : CiphCh) (cs : List Carrier) : Option Nat :=
  [0, 1].find? fun p => !h.used cs p && (h.ent p).isNone

/-- The entry has still to take over on a receiving carrier. -/
def KeyEnt.rxNew (e : KeyEnt) (x : Carrier) : Bool :=
  match x with
  | .A => e.rxNewA
  | .B => e.rxNewB

/-- An entry waits for a target. -/
def KeyEnt.waits (e : KeyEnt) (cs : List Carrier) : Bool := e.txNew || cs.any e.rxNew

/-- Zero a place; a carrier without slots that used it holds none. -/
def CiphCh.zeroPlace (h : CiphCh) (p : Nat) : CiphCh :=
  let off (i : CiphIn) : CiphIn := { i with
    place := if i.place = some p then none else i.place, fall := if i.fall = some p then none else i.fall }
  ((h.setEnt p none).modIn .A off).modIn .B off

/-- Zero the places that became free: neither used nor waiting (R267). -/
def CiphCh.sweep (h : CiphCh) (cs : List Carrier) : CiphCh :=
  let one (h : CiphCh) (p : Nat) : CiphCh :=
    match h.ent p with
    | some e => if h.used cs p || e.waits cs then h else h.zeroPlace p
    | none => h
  one (one h 0) 1

/-- Erase the places that no direction uses any more when EN has become 0 (R272); a key installed since waits in every
direction and stays. -/
def CiphCh.wipe (h : CiphCh) (cs : List Carrier) : CiphCh :=
  let one (h : CiphCh) (p : Nat) : CiphCh :=
    match h.ent p with
    | some e => if h.used cs p || (e.txNew && e.rxNewA && e.rxNewB) then h else h.zeroPlace p
    | none => h
  one (one h 0) 1

/-- The highest epoch a channel holds. -/
def CiphCh.topEpoch (h : CiphCh) : Nat := max ((h.p0.map (·.epoch)).getD 0) ((h.p1.map (·.epoch)).getD 0)

/-- Epoch of the transmit key in use; 0 in clear. -/
def CiphCh.txEpoch (h : CiphCh) : Nat := ((h.tx.bind h.ent).map (·.epoch)).getD 0
/-- Epoch of a receive key in use; 0 in clear. -/
def CiphCh.rxEpoch (h : CiphCh) (x : Carrier) : Nat := (((h.inp x).place.bind h.ent).map (·.epoch)).getD 0

/-- A cipher event: channel, carrier, epoch (R279, R483). -/
def ciphData (epoch : Nat) (reason : Nat := 0) : Bytes := leBytes 3 epoch ++ [BitVec.ofNat 8 reason]

/-- Install an entry in a free place; answers the place (R267). -/
def State.keyPut (s : State) (c : Nat) (e : KeyEnt) : State × Option Nat :=
  match (s.ciphCh c).free (s.keyCars c) with
  | some p => (s.modCiph c fun h => h.setEnt p (some e), some p)
  | none => (s, none)

/-! ### Exchanges: starting and failing (R273, R276, R277) -/

/-- No exchange runs on a carrier: idle, or CONFIRM sent. -/
def Ka.idle (k : Ka) : Bool := (k.state == 0 || k.state == 3) && k.step == 0

/-- Key agreement can run on a carrier: a peer key is loaded and the identity is ready (R273, R531). -/
def State.kaReady (s : State) (x : Carrier) : Bool := (s.ka x).peer != [] && s.boot.idState == 1

/-- The next exchange starts with the channels that are due (R273): those with a free place; the highest epoch is reported
(R561). Scheduled ones without a place wait for the next minute (R277). -/
def State.kaStart (s : State) (x : Carrier) : State :=
  let k := s.ka x
  if !k.idle || k.due == [] || !s.kaReady x then s else
  let top := k.due.filter fun c => 0xFFFFFF ≤ (s.ciphCh c).topEpoch
  let full := k.due.filter fun c => !top.contains c && ((s.ciphCh c).free (s.keyCars c)).isNone
  let go := k.due.filter fun c => !top.contains c && !full.contains c
  let sched := go.filter k.dueS.contains
  let s := s.each top fun s c => s.occ 0x0908 x.ev c (ciphData (s.ciphCh c).topEpoch 4)
  let d := s.fresh 2
  let e := 1 + go.foldl (fun a c => max a (s.ciphCh c).topEpoch) 0
  let s := (if go = [] then s else d.1).modKa x fun k => { k with
    due := [], dueS := []
    retry := (full.filter k.dueS.contains).foldl (fun l c => insSorted c l) (k.retry.filter fun c => !go.contains c) }
  if go = [] then s else
  s.modKa x fun k => { k with
    state := 1, init := true, session := beNat d.2, sends := 0, chans := go, epoch := e, sched := sched, initB := [], respB := [], confB := [], dk := [], key := [], step := 1 }

/-- Channels fall due on a carrier, by the schedule or not: the exchange starts, or they wait for the next (R273). -/
def State.kaDue (s : State) (x : Carrier) (cs : List Nat) (sched : Bool) : State :=
  (s.modKa x fun k => { k with
    due := cs.foldl (fun l c => insSorted c l) k.due
    dueS := if sched then cs.foldl (fun l c => insSorted c l) k.dueS else k.dueS }).kaStart x

/-- The carrier over which a channel's own exchanges run: the first with a transmit slot and a peer (log 41). -/
def State.kaCar (s : State) (c : Nat) : Option Carrier := (s.txCars c).find? fun x => s.kaReady x

/-- An exchange that R270 or R271 requires for a channel. -/
def State.kaNeed (s : State) (c : Nat) : State :=
  match s.kaCar c with
  | some x => s.kaDue x [c] false
  | none => s

/-- A channel's transmit key is used and its entry is erased or its key poisoned (R271). -/
def CiphCh.txLost (h : CiphCh) : Bool := h.tx.isSome && (match h.tx.bind h.ent with
  | some e => e.txLost
  | none => true)

/-- The receive key of a channel copy is lost (R271): the place in use holds no entry, or its key is poisoned. -/
def CiphCh.rxLost (h : CiphCh) (x : Carrier) : Bool :=
  (h.inp x).place.isSome && (match (h.inp x).place.bind h.ent with
    | some e => e.rxLost
    | none => true)

/-- A channel copy's receive key is lost: authentication fail and key lost at once, and perhaps an exchange. -/
def State.keyLost (s : State) (x : Carrier) (c : Nat) : State :=
  let h := s.ciphCh c
  if h.rxLost x && !s.stands 0x0906 0 c then
    let d := ciphData (h.rxEpoch x)
    let s := ((s.raise 0x0901 x.ev c d).raise 0x0906 0 c d).chEval c
    if s.cf F.SEC_CIPH_CH_CTL_AGREE c = 1 then s.kaNeed c else s
  else if h.rxLost x then (s.raise 0x0901 x.ev c (ciphData (h.rxEpoch x))).chEval c
  else s

/-- A transmit key that is lost is handled as an exhausted one, perhaps with an exchange (R271). -/
def State.txKeyLost (s : State) (c : Nat) : State :=
  let h := s.ciphCh c
  if s.stands 0x0905 0 c then s else
  let s := s.raise 0x0905 0 c (ciphData h.txEpoch)
  if s.cf F.SEC_CIPH_CH_CTL_AGREE c = 1 then s.kaNeed c else s

/-! ### Switching and clearing (R268 to R272) -/

/-- Of the places whose target has come, the one whose target is the later (R268). -/
def CiphCh.due (h : CiphCh) (tgt : KeyEnt → Option Nat) (m : Nat) : Option (Nat × KeyEnt) :=
  let one (p : Nat) : Option (Nat × Nat × KeyEnt) := match h.ent p with
    | some e => (tgt e).bind fun t => if t ≤ m then some (t, p, e) else none
    | none => none
  match one 0, one 1 with
  | some a, some b => if a.1 < b.1 then some b.2 else some a.2
  | some a, none => some a.2
  | none, b => b.map (·.2)

/-- A transmit target at or before that of the key that takes over does not come any more (R268). -/
def CiphCh.passTx (h : CiphCh) (p : Nat) (t : Option Nat) : CiphCh :=
  match h.ent p with
  | some e => if e.txTgt.any fun u => t.any fun t => decide (u ≤ t) then h.setEnt p (some { e with txNew := false }) else h
  | none => h

/-- The entry has taken over on a receiving carrier. -/
def KeyEnt.taken (e : KeyEnt) (x : Carrier) : KeyEnt :=
  match x with
  | .A => { e with rxNewA := false }
  | .B => { e with rxNewB := false }

/-- The same for a receive target on a carrier. -/
def CiphCh.passRx (h : CiphCh) (x : Carrier) (p : Nat) (t : Option Nat) : CiphCh :=
  match h.ent p with
  | some e => if e.rxTgt.any fun u => t.any fun t => decide (u ≤ t) then h.setEnt p (some (e.taken x)) else h
  | none => h

/-- Transmit use of a place from this multiframe on. -/
def State.txUse (s : State) (c p : Nat) (e : KeyEnt) : State :=
  let s := s.modCiph c fun h =>
    ({ h with tx := some p, soft := false, zero := false }.passTx (1 - p) e.txTgt).setEnt p (some { e with txNew := false })
      |>.sweep (s.keyCars c)
  let s := { s with io := { s.io with cnt := aset s.io.cnt ⟨.SEC_CIPH_USE, c⟩ 0 } }
  (s.clear 0x0905 0 c (ciphData e.epoch)).occ 0x0902 0 c (ciphData e.epoch)

/-- The entry that has to take over transmission at count `m`. -/
def CiphCh.txDue (h : CiphCh) (m : Nat) : Option (Nat × KeyEnt) := h.due (fun e => if e.txNew then e.txTgt else none) m

/-- The entry that has to take over on a receiving carrier at received count `m`. -/
def CiphCh.rxDue (h : CiphCh) (x : Carrier) (m : Nat) : Option (Nat × KeyEnt) :=
  h.due (fun e => if e.rxNew x then e.rxTgt else none) m

/-- The key that transmits: none in clear. -/
def CiphCh.txKeyNow (h : CiphCh) : Option KeyEnt := if h.zero then none else h.tx.bind h.ent

/-- Start a channel's transmit invocations of multiframe `m` on the carriers `cs` where it owns slots, after the tags of the
one before (R262, R264). -/
def CiphCh.txRoll (h : CiphCh) (cs : List Carrier) (c m : Nat) : CiphCh :=
  let one (x : Carrier) (h : CiphCh) : CiphCh :=
    let e := if cs.contains x then h.txKeyNow else none
    let r := (h.outp x).run
    let iv := beBytes 2 (x.num * 32768 + c) ++ beBytes 3 r.epoch ++ beBytes 7 r.mfc
    h.setOut x ⟨⟨(e.map (·.txKey)).getD [], (e.map (·.epoch)).getD 0, m, [], [], false, 0⟩,
      if r.key = [] ∨ r.bad then List.replicate 16 0 else beBytes 16 (Config.gcmTag r.key iv r.maps r.body).toNat⟩
  one .B (one .A h)

/-- A transmit multiframe boundary of a channel: EN becoming 0, key switch, exhaustion, uses (R268, R270, R272). -/
def State.ciphTxBoundary (s : State) (c m : Nat) : State :=
  let h := s.ciphCh c
  let s := if h.clear then
      s.modCiph c fun h => { h with tx := none, clear := false, soft := false, zero := false }.wipe (s.keyCars c)
    else if s.cf F.SEC_CIPH_CH_CTL_EN c ≠ 1 then s
    else match h.txDue m with
      | some (p, e) => s.txUse c p e
      | none => s
  let h := s.ciphCh c
  let s := if h.tx.isSome ∧ (0xFFFFFFFF ≤ s.cnt .SEC_CIPH_USE c ∨ h.txLost) then
      (if h.txLost then s.txKeyLost c else s).modCiph c fun h => { h with zero := true }
    else s
  let s := if (s.ciphCh c).txKeyNow.isSome then s.bump .SEC_CIPH_USE c (s.txCars c).length else s
  s.modCiph c fun h => (h.sweep (s.keyCars c)).txRoll (s.txCars c) c m

/-- Bytes combined with the key stream from position `o` (R261). -/
def gcmXor (key iv : Bytes) (o : Nat) (l : Bytes) : Bytes :=
  match l with
  | [] => []
  | b :: r => (b ^^^ Config.gcmByte key iv o) :: gcmXor key iv (o + 1) r

/-- The IV of R263. -/
def Inv.iv (r : Inv) (x : Carrier) (c : Nat) : Bytes :=
  beBytes 2 (x.num * 32768 + c) ++ beBytes 3 r.epoch ++ beBytes 7 r.mfc

/-- Encrypt a channel copy's payload of a frame; `map` its MAP byte (R261, R262, R270). -/
def State.encrypt (s : State) (x : Carrier) (c map : Nat) (body : Bytes) : State × Bytes :=
  let h := s.ciphCh c
  let r := (h.outp x).run
  let body := if h.zero then List.replicate body.length 0 else body
  if r.key = [] then (s, body) else
  let ct := gcmXor r.key (r.iv x c) r.body.length body
  (s.modCiph c fun h => h.setOut x { h.outp x with
    run := { r with body := r.body ++ ct, maps := r.maps ++ [BitVec.ofNat 8 map] } }, ct)

/-- The tag that channel `c` sends on a carrier in the running multiframe (R254, R264). -/
def State.tagOut (s : State) (x : Carrier) (c : Nat) : Bytes := ((s.ciphCh c).outp x).tag

/-- A receive key takes over on a carrier (R268, R269). The runs of failed and passed multiframes go on (R266). Key lost clears
with it, unless the other carrier's key is lost (R279). -/
def State.rxUse (s : State) (x : Carrier) (c p : Nat) (e : KeyEnt) : State :=
  let s := s.modCiph c fun h => ((h.passRx x (1 - p) e.rxTgt).setEnt p (some (e.taken x))).modIn x fun i => { i with
    place := some p, fall := i.place, skewTo := none, skews := 0 }
  let h := s.ciphCh c
  let s := if h.rxLost .A || h.rxLost .B then s else s.clear 0x0906 0 c (ciphData e.epoch)
  s.occ 0x0902 x.ev c (ciphData e.epoch)

/-- A receive invocation of multiframe `m` under the place in use, `off` bytes into it. -/
def CiphCh.rxInv (h : CiphCh) (x : Carrier) (m off : Nat) (bad : Bool) : Inv :=
  let e := (h.inp x).place.bind h.ent
  ⟨(e.map (·.rxKey)).getD [], (e.map (·.epoch)).getD 0, m, [], [], bad, off⟩

/-- A received multiframe boundary of a channel copy: EN becoming 0, key switches while it owns slots and EN is 1, a new
invocation; the one that ended waits for its tag (R262, R265, R268, R269, R271, R272). -/
def State.ciphRxBoundary (s : State) (x : Carrier) (c m : Nat) : State :=
  let own := s.ownsSlot .CAR_TR_SLOT_RX x c
  let cs := s.keyCars c
  let h := s.ciphCh c
  let i := h.inp x
  let s := if i.clear then
      s.modCiph c fun h => (h.modIn x fun i => { i with
        place := none, fall := none, clear := false, skewTo := none, skews := 0 }).wipe cs
    else if !own || s.cf F.SEC_CIPH_CH_CTL_EN c != 1 then s
    else match i.skewTo with
      | some p => match h.ent p with
        | some e => s.rxUse x c p e
        | none => s.modIn x c fun i => { i with skewTo := none }
      | none => match h.rxDue x m with
        | some (p, e) => s.rxUse x c p e
        | none => s
  let s := s.modCiph c fun h =>
    let h := h.sweep cs
    h.modIn x fun i => { i with
      done := if i.own && !i.told then some i.run else none, tag := none, own := own, told := false
      run := h.rxInv x m 0 false }
  if own then s.keyLost x c else s

/-- Decrypt a channel part; answers the payload for Seam and the client, and whether it is errored (R261, R271). -/
def State.decrypt (s : State) (x : Carrier) (c map : Nat) (body : Bytes) (bad : Bool) : State × Bytes × Bool :=
  let h := s.ciphCh c
  let r := (h.inp x).run
  let lost := h.rxLost x
  let s := s.modIn x c fun i => { i with run := { i.run with
    body := if i.run.key = [] then [] else i.run.body ++ body
    maps := if i.run.key = [] then [] else i.run.maps ++ [BitVec.ofNat 8 map], bad := i.run.bad || bad || lost } }
  if lost then (s, List.replicate body.length 0, true)
  else if r.key = [] then (s, body, bad)
  else (s, gcmXor r.key (r.iv x c) (r.off + r.body.length) body, bad)

/-- Erase the entries that a failed exchange installed (R276); a direction that already uses one has lost its key (R271). -/
def State.kaErase (s : State) (cs : List Nat) (epoch : Nat) : State :=
  s.each cs fun s c =>
    let s := s.modCiph c fun h => [0, 1].foldl (fun h p => match h.ent p with
      | some e => if e.epoch = epoch then h.setEnt p none else h
      | none => h) h
    let s := if (s.ciphCh c).txLost then s.txKeyLost c else s
    (s.keyLost .A c).keyLost .B c

/-- The exchange of a carrier ends; keys are zeroed (R275). -/
def Ka.ended (k : Ka) (state : Nat) : Ka := { k with state := state, step := 0, dk := [], key := [], sends := 0 }

/-- An INIT crossed by one that proceeds is abandoned (R277): its channels fall due again. -/
def Ka.abandon (k : Ka) : Ka := { k.ended 0 with
  due := k.chans.foldl (fun l c => insSorted c l) k.due, dueS := k.sched.foldl (fun l c => insSorted c l) k.dueS }

/-- The exchange fails at this end with a reason (0: no answer), and the next may start (R276, R277, R279). -/
def State.kaFail (s : State) (x : Carrier) (reason : Nat) : State :=
  let k := s.ka x
  let s := s.kaErase k.chans k.epoch
  let s := s.modKa x fun k => { k.ended 0 with
    respB := [], lastErr := if reason = 0 then k.lastErr else reason, retry := if k.init then k.sched.foldl (fun l c => insSorted c l) k.retry else k.retry }
  let s := s.bump .SEC_CIPH_KA_FAIL 0
  let s := s.each k.chans fun s c => s.occ 0x0908 x.ev c (ciphData k.epoch reason)
  s.kaStart x

/-- Header of an exchange message (R274). -/
def kaHdr (typ session : Nat) : Bytes := [BitVec.ofNat 8 typ, 1] ++ beBytes 2 session

/-- Send ERROR: its reason is the last one (R280). -/
def State.kaError (s : State) (x : Carrier) (session reason : Nat) : State :=
  (s.modKa x fun k => { k with lastErr := reason }).kaSend x false (kaHdr 0x44 session ++ [BitVec.ofNat 8 reason, 0, 0, 0])

/-- ERROR and failure of the running exchange. -/
def State.kaRefuse (s : State) (x : Carrier) (reason : Nat) : State :=
  (s.kaError x (s.ka x).session reason).kaFail x reason

/-- T of R274. -/
def kaT (i r : Bytes) : Bytes := beBytes 64 (Config.sha3x512 (i ++ r)).toNat

/-- A channel's key in a direction (R275): 0 the initiator's transmit direction, 1 the responder's. -/
def kaKey (k t : Bytes) (c epoch d : Nat) : Bytes :=
  beBytes 32 (Config.shake256 (k ++ t ++ beBytes 2 c ++ beBytes 3 epoch ++ [BitVec.ofNat 8 d])).toNat

/-- Install an exchange's entries at an end; `tx` its direction byte (R275, R276). -/
def State.kaInstall (s : State) (cs : List Nat) (k t : Bytes) (epoch tx : Nat) (rxTgt : Option Nat) : State :=
  s.each cs fun s c =>
    (s.keyPut c ⟨epoch, kaKey k t c epoch tx, kaKey k t c epoch (1 - tx), none, rxTgt, true, true, true, false, false⟩).1

/-- Set a target of the exchange's entries. -/
def State.kaTarget (s : State) (cs : List Nat) (epoch : Nat) (f : KeyEnt → KeyEnt) : State :=
  s.each cs fun s c => s.modCiph c fun h =>
    [0, 1].foldl (fun h p => match h.ent p with
      | some e => if e.epoch = epoch then h.setEnt p (some (f e)) else h
      | none => h) h

/-- The responder is confirmed: it may switch transmission at TARGET_R (R276 step 4). -/
def State.kaConfirmed (s : State) (x : Carrier) : State :=
  let k := s.ka x
  s.kaTarget k.chans k.epoch fun q => { q with txTgt := some (beAt k.respB 1732 7) }

/-- Agreement done: the record for each channel (R279), then the next exchange (R273). -/
def State.kaDone (s : State) (x : Carrier) (state : Nat) : State :=
  let k := s.ka x
  let s := s.modKa x fun k => { k.ended state with retry := k.retry.filter fun c => !k.chans.contains c }
  (s.each k.chans fun s c => s.occ 0x0907 x.ev c (ciphData k.epoch)).kaStart x

/-! ### Rows: keys -/

/-- KEY_SOFT_LIMIT (R270). -/
def execKeySoftLimit (c : Fin 1024) (s : State) : Host.Outcome State Fault Refusal := live s fun s =>
  let h := s.ciphCh c
  if h.tx.isSome ∧ h.soft = false ∧ 0xC0000000 ≤ s.cnt .SEC_CIPH_USE c then
    ((s.modCiph c fun h => { h with soft := true }).occ 0x0904 0 c (ciphData h.txEpoch)).kaNeed c
  else s

/-- KEY_EXHAUSTED (R270): from the next multiframe the payload goes out as zeros. -/
def execKeyExhausted (c : Fin 1024) (s : State) : Host.Outcome State Fault Refusal := live s fun s =>
  let h := s.ciphCh c
  if h.tx.isSome ∧ 0xFFFFFFFF ≤ s.cnt .SEC_CIPH_USE c then s.raise 0x0905 0 c (ciphData h.txEpoch) else s

/-- KEY_INSTALL (R267, R268, R495). -/
def execKeyInstall (fn : Fn) (r : Nat) (s : State) : Host.Outcome State Fault Refusal :=
  command fn r 0x0401 s fun d b s =>
    let c := leAt d 16 2
    match (s.ciphCh c).free (s.keyCars c) with
    | none => stop 2 0
    | some p => (0, p, fun s => (s.keyPut c ⟨leAt d 18 3, sub b 0 32, sub b 32 32, some (leAt d 32 7), some (leAt d 39 7),
        true, true, true, false, false⟩).1)

/-- PEER_LOAD (R273). -/
def execPeerLoad (fn : Fn) (r : Nat) (s : State) : Host.Outcome State Fault Refusal :=
  command fn r 0x0402 s fun d b _ =>
    (0, 0, fun s => (s.modKa (carOf (byteAt d 16)) fun k => { k with peer := b.take 2592 }).kaStart
      (carOf (byteAt d 16)))

/-- KEY_AGREE (R273, R494); without a peer key or an identity it is refused (log 42). A command whose channels wait for
the next exchange returns a session that the spec does not give (log 42). -/
def execKeyAgree (fn : Fn) (r : Nat) (s : State) : Host.Outcome State Fault Refusal :=
  command fn r 0x0109 s fun d b s =>
    let x := carOf (byteAt d 16)
    if !s.kaReady x then stop 11 4 else
    let go (s : State) : State := s.kaDue x (mapChans (b.take 128)) false
    let res := if (s.ka x).idle then ((go s).ka x).session else (Config.freeBits 16 s.sys.fresh).toNat
    (0, res, fun s => go (if (s.ka x).idle then s else s.draw.1))

/-- Write CIPH_CH_CTL.EN (R272). -/
def State.ciphEn (s : State) (c : Nat) (v : Bool) : State :=
  let on := s.cf F.SEC_CIPH_CH_CTL_EN c == 1
  let s := s.setField F.SEC_CIPH_CH_CTL_EN c (b2n v)
  if on && !v then s.modCiph c fun h =>
    let stay (p : Nat) (h : CiphCh) : CiphCh := if h.used (s.keyCars c) p then h else h.zeroPlace p
    let off (x : Carrier) (i : CiphIn) : CiphIn :=
      if s.ownsSlot .CAR_TR_SLOT_RX x c then { i with clear := true, fall := none } else { i with place := none, fall := none }
    stay 1 (stay 0 { h with clear := true, inA := off .A h.inA, inB := off .B h.inB })
  else s

/-- CIPH_EN_WRITE (R272): both places are erased as the directions that use them go to clear. -/
def execCiphEnWrite (c : Fin 1024) (v : Bool) (s : State) : Host.Outcome State Fault Refusal := live s fun s =>
  s.ciphEn c v

/-- KEY_ROLL_DUE (R273): the channels due at one moment. -/
def execKeyRollDue (cs : List Nat) (s : State) : Host.Outcome State Fault Refusal := live s fun s =>
  let ok := cs.filter fun c => c < 1024 && s.cf F.SEC_CIPH_CH_CTL_EN c == 1 && s.cf F.SEC_CIPH_CH_CTL_AGREE c == 1 &&
    s.cf F.SEC_CIPH_CH_CTL_INIT c == 1 && s.cf F.SEC_CIPH_CH_CTL_ROLL_MIN c != 0
  let on (x : Carrier) : List Nat := ok.filter fun c => s.kaCar c == some x
  (s.kaDue .A (on .A) true).kaDue .B (on .B) true

/-! ### Rows: the exchange (R274 to R277) -/

/-- Transmit target of CONFIRM and RESP: transmit count plus LEAD (R276). -/
def State.kaLead (s : State) : Nat := s.sys.txMfc + max 64 (s.cf F.SEC_CIPH_CTL_LEAD 0)

/-- KA_CRYPTO_DONE (R276): the operation that runs is complete and the exchange sends its next message. -/
def execKaCryptoDone (x : Carrier) (s : State) : Host.Outcome State Fault Refusal := live s fun s =>
  let k := s.ka x
  match k.step with
  | 1 =>
    let n := s.fresh 32
    let g := n.1.draw
    let w := g.1.draw
    let b := kaHdr 0x41 k.session ++ n.2 ++ chanMap k.chans ++ beBytes 3 k.epoch ++ [0] ++
      beBytes 1568 (Config.mlkemEk g.2).toNat
    let b := b ++ beBytes 4627 (Config.mldsaSign s.boot.idSeed b w.2).toNat
    (w.1.modKa x fun k => { k with
      step := 0, initB := b, dk := beBytes 3168 (Config.mlkemDk g.2).toNat, sends := 1 }).kaSend x false b
  | 2 =>
    let n := s.fresh 32
    let e := n.1.draw
    let w := e.1.draw
    let t := s.kaLead
    let ek := sub k.initB 168 1568
    let b := kaHdr 0x42 k.session ++ n.2 ++ chanMap k.chans ++ beBytes 1568 (Config.mlkemCt ek e.2).toNat ++
      beBytes 7 t ++ [0]
    let b := b ++ beBytes 4627 (Config.mldsaSign s.boot.idSeed
      (beBytes 64 (Config.sha3x512 k.initB).toNat ++ b) w.2).toNat
    let key := beBytes 32 (Config.mlkemEncK ek e.2).toNat
    let s := w.1.kaInstall k.chans key (kaT k.initB b) k.epoch 1 none
    (s.modKa x fun k => { k with state := 2, step := 0, respB := b, key := key, sends := 1 }).kaSend x false b
  | 3 =>
    let t := s.kaLead
    let b := kaHdr 0x43 k.session ++ beBytes 7 t ++ [0] ++
      beBytes 32 (Config.sha3x256 (k.key ++ kaT k.initB k.respB ++ beBytes 7 t)).toNat
    let s := s.kaTarget k.chans k.epoch fun q => { q with txTgt := some t }
    ((s.modKa x fun k => { k with confB := b }).kaSend x false b).kaDone x 3
  | _ => s

/-- Start responding to an INIT (R276 step 2): the first failing check in the order of the reasons, or channels and
epoch. -/
def State.kaCheckInit (s : State) (x : Carrier) (b : Bytes) : Nat × List Nat :=
  let want := mapChans (sub b 36 128)
  let cs := want.filter fun c => s.cf F.SEC_CIPH_CH_CTL_EN c == 1 && s.cf F.SEC_CIPH_CH_CTL_AGREE c == 1 &&
    ((s.ciphCh c).free (s.keyCars c)).isSome
  if (s.ka x).peer = [] then (2, cs)
  else if !Config.mldsaVerify (s.ka x).peer (b.take 1736) (b.drop 1736) then (3, cs)
  else if cs.any (fun c => decide (beAt b 164 3 ≤ (s.ciphCh c).topEpoch)) then (4, cs)
  else if cs = [] then (5, cs)
  else (0, cs)

/-- An INIT fails at this end without an exchange: counted and reported for the channels that it names (R276, R279). -/
def State.kaTurnedAway (s : State) (x : Carrier) (body : Bytes) (reason : Nat) : State :=
  (s.bump .SEC_CIPH_KA_FAIL 0).each (mapChans (sub body 36 128)) fun s c =>
    s.occ 0x0908 x.ev c (ciphData (beAt body 164 3) reason)

/-- An INIT that comes while another exchange runs: ERROR with reason 1 (R273, R276). -/
def State.kaBusy (s : State) (x : Carrier) (body : Bytes) : State :=
  (s.kaError x (beAt body 2 2) 1).kaTurnedAway x body 1

/-- A row takes the oldest key-agreement message that waits, which is this one, of this type. -/
def State.kaOn (s : State) (x : Carrier) (typ : Nat) (body : Bytes) (go : State → State) : State :=
  match s.kaTake x typ body with
  | some s => go s
  | none => s

/-- INIT_RECEIVED (R276, R277, R531): RESP goes out when its cryptographic operations are complete. A repeated INIT is answered
with the same RESP, after the confirmation too. -/
def execInitReceived (x : Carrier) (body : Bytes) (s : State) : Host.Outcome State Fault Refusal := live s fun s =>
  s.kaOn x 0x41 body fun s =>
  if s.boot.idState ≠ 1 then s else
  let k := s.ka x
  let ses := beAt body 2 2
  let mine := beAt k.initB 4 32
  if k.session = ses ∧ k.respB ≠ [] ∧ (k.state = 2 ∨ (k.state = 0 ∧ k.init = false ∧ k.initB = body)) then
    s.kaSend x true k.respB
  else if k.state = 2 then if k.session = ses then s else s.kaBusy x body
  else if k.state = 1 ∧ k.initB ≠ [] ∧ (k.respB ≠ [] ∨ mine ≤ beAt body 4 32) then
    if k.respB = [] then s else s.kaBusy x body
  else
    let s := if k.state = 1 then s.modKa x Ka.abandon else s
    match s.kaCheckInit x body with
    | (0, cs) => s.modKa x fun k => { k with
        state := 2, init := false, session := ses, sends := 0, chans := cs, epoch := beAt body 164 3, sched := []
        due := k.due.filter (fun c => !cs.contains c), dueS := k.dueS.filter (fun c => !cs.contains c), initB := body, respB := [], confB := [], dk := [], key := [], step := 2 }
    | (e, _) =>
      let s := (s.kaError x ses e).modKa x fun k => { k with
        session := ses, init := false, initB := [], respB := [], sched := [], chans := mapChans (sub body 36 128), epoch := beAt body 164 3 }
      ((s.modKa x fun k => k.ended 0).kaTurnedAway x body e).kaStart x

/-- RESP_RECEIVED (R276 step 3, R277): CONFIRM goes out when its operations are complete. -/
def execRespReceived (x : Carrier) (body : Bytes) (s : State) : Host.Outcome State Fault Refusal := live s fun s =>
  s.kaOn x 0x42 body fun s =>
  if beAt body 2 2 ≠ (s.ka x).session ∨ (s.ka x).init = false then s else
  let k := s.ka x
  if k.state = 3 then (if k.respB = body ∧ k.confB ≠ [] then s.kaSend x true k.confB else s)
  else if k.state ≠ 1 ∨ k.initB = [] ∨ k.respB ≠ [] then s
  else if !Config.mldsaVerify k.peer (beBytes 64 (Config.sha3x512 k.initB).toNat ++ body.take 1740) (body.drop 1740) then
    s.kaRefuse x 3
  else
    let cs := (mapChans (sub body 36 128)).filter k.chans.contains
    if cs = [] then s.kaRefuse x 5 else
    let key := beBytes 32 (Config.mlkemDecK k.dk (sub body 164 1568)).toNat
    let s := s.kaInstall cs key (kaT k.initB body) k.epoch 0 (some (beAt body 1732 7))
    s.modKa x fun k => { k with respB := body, chans := cs, key := key, step := 3 }

/-- CONFIRM_RECEIVED (R276 step 4). -/
def execConfirmReceived (x : Carrier) (body : Bytes) (s : State) : Host.Outcome State Fault Refusal := live s fun s =>
  s.kaOn x 0x43 body fun s =>
  let k := s.ka x
  if beAt body 2 2 ≠ k.session ∨ k.state ≠ 2 ∨ k.respB = [] then s
  else if beNat (body.drop 12) ≠ (Config.sha3x256 (k.key ++ kaT k.initB k.respB ++ sub body 4 7)).toNat then
    s.kaRefuse x 6
  else ((s.kaConfirmed x).kaTarget k.chans k.epoch fun q => { q with rxTgt := some (beAt body 4 7) }).kaDone x 0

/-- KA_ERROR_RECEIVED (R276). -/
def execKaErrorReceived (x : Carrier) (body : Bytes) (s : State) : Host.Outcome State Fault Refusal := live s fun s =>
  s.kaOn x 0x44 body fun s =>
  let k := s.ka x
  if beAt body 2 2 ≠ k.session ∨ k.state = 0 then s
  else s.kaFail x (byteAt body 4)

/-- INIT_RETRY (R277): its timer starts when the message's last frame over Tack has left (R340). -/
def execInitRetry (x : Carrier) (s : State) : Host.Outcome State Fault Refusal := live s fun s =>
  let k := s.ka x
  if k.state ≠ 1 ∨ k.initB = [] ∨ k.respB ≠ [] ∨ s.tkSending x 5 0x41 then s
  else if k.sends < 3 then (s.modKa x fun k => { k with sends := k.sends + 1 }).kaSend x true k.initB
  else s.kaFail x 0

/-- RESP_RETRY (R277, R340). -/
def execRespRetry (x : Carrier) (s : State) : Host.Outcome State Fault Refusal := live s fun s =>
  let k := s.ka x
  if k.state ≠ 2 ∨ k.respB = [] ∨ s.tkSending x 5 0x42 then s
  else if k.sends < 3 then (s.modKa x fun k => { k with sends := k.sends + 1 }).kaSend x true k.respB
  else s.kaFail x 0

/-- KA_RETRY_MINUTE (R277): at the start of a minute of device time. -/
def execKaRetryMinute (x : Carrier) (s : State) : Host.Outcome State Fault Refusal := live s fun s =>
  let l := (s.ka x).retry
  if l = [] then s else (s.modKa x fun k => { k with retry := [] }).kaDue x l true

/-- Messages that waited for a path go out when there is one (R278). -/
def State.kaFlush (s : State) (x : Carrier) : State :=
  let w := (s.ka x).waitMsg
  if w = [] then s else w.foldl (fun s b => s.kaSend x false b) (s.modKa x fun k => { k with waitMsg := [] })

/-! ### Tags (R265, R266, R269, R271) -/

/-- Tag of an invocation under a key of an epoch. -/
def Inv.tagOf (r : Inv) (x : Carrier) (c : Nat) (key : Bytes) (epoch : Nat) : Bytes :=
  beBytes 16 (Config.gcmTag key ({ r with epoch := epoch }.iv x c) r.maps r.body).toNat

/-- A passing tag under the new key counts as confirmation at a responder (R276 step 4). -/
def State.kaConfirmBy (s : State) (x : Carrier) (c epoch : Nat) : State :=
  let k := s.ka x
  if k.state = 2 ∧ k.epoch = epoch ∧ k.chans.contains c ∧ k.respB ≠ [] then (s.kaConfirmed x).kaDone x 0 else s

/-- A tag passed: runs, the fallback (R266, R269). -/
def State.tagPassed (s : State) (x : Carrier) (c : Nat) (r : Inv) : State :=
  let s := s.modCiph c fun h => (h.modIn x fun i => { i with
    fails := 0, skews := 0, passes := i.passes + 1, fall := if h.rxEpoch x = r.epoch then none else i.fall }).sweep (s.keyCars c)
  let s := if 8 ≤ ((s.ciphCh c).inp x).passes ∧ !(s.ciphCh c).rxLost x then
      (s.clear 0x0901 x.ev c (ciphData r.epoch)).chEval c else s
  (s.kaConfirmBy .A c r.epoch).kaConfirmBy .B c r.epoch

/-- A tag failed. -/
def State.tagFailed (s : State) (x : Carrier) (c : Nat) (r : Inv) : State :=
  let s := (s.bump .SEC_CIPH_CH_AUTH c).modIn x c fun i => { i with fails := i.fails + 1, passes := 0, skews := 0 }
  if max 1 (s.cf F.SEC_CIPH_CTL_AUTH_N 0) ≤ ((s.ciphCh c).inp x).fails then
    (s.raise 0x0901 x.ev c (ciphData r.epoch)).chEval c
  else s

/-- The entry of the other place, if it is valid (R269). -/
def CiphCh.other (h : CiphCh) (x : Carrier) : Option (Nat × KeyEnt) :=
  match (h.inp x).place with
  | some p => (h.ent (1 - p)).map fun e => (1 - p, e)
  | none => none

/-- CIPH_CH_RX.NEXT: the other place holds a valid entry; in clear, any place (R280). -/
def CiphCh.rxNext (h : CiphCh) (x : Carrier) : Bool :=
  if (h.inp x).place.isNone then h.p0.isSome || h.p1.isSome else (h.other x).isSome

/-- The other key that a multiframe's tag is computed under (R269): the other place's, or the one in use where the key has
been switched since. -/
def CiphCh.otherOf (h : CiphCh) (x : Carrier) (r : Inv) : Option (Nat × KeyEnt) :=
  if h.rxEpoch x = r.epoch then h.other x
  else (h.inp x).place.bind fun p => (h.ent p).map fun e => (p, e)

/-- TAG_CHECK (R265, R266, R269, R271): the tag of a channel copy's last multiframe is complete. -/
def execTagCheck (x : Carrier) (c : Fin 1024) (s : State) : Host.Outcome State Fault Refusal := live s fun s =>
  let c := c.val
  let h := s.ciphCh c
  let i := h.inp x
  match i.done, i.tag with
  | some r, some t =>
    let s := s.modIn x c fun i => { i with done := none, tag := none }
    let s := s.keyLost x c
    match t with
    | none => s.bump .SEC_CIPH_UNCHK x.num
    | some t =>
      if r.bad || r.key == [] then s.bump .SEC_CIPH_UNCHK x.num
      else if t = r.tagOf x c r.key r.epoch then s.tagPassed x c r
      else match h.otherOf x r with
        | some (p, e) =>
          if !e.rxLost && t == r.tagOf x c e.rxKey e.epoch then
            let now := h.rxEpoch x == r.epoch
            let s := s.modIn x c fun i => { i with fails := 0, passes := 0, skews := i.skews + b2n now }
            let s := (s.kaConfirmBy .A c e.epoch).kaConfirmBy .B c e.epoch
            if now && decide (2 ≤ ((s.ciphCh c).inp x).skews) then
              (s.modIn x c fun i => { i with skewTo := some p }).occ 0x0903 x.ev c (ciphData e.epoch)
            else s
          else s.tagFailed x c r
        | none => s.tagFailed x c r
  | _, _ => s

end Sys2Proof.Machine
end

