-- ==== Sys2Proof/Machine/Clients.lean ====
section
/-! DEFINITION. Client ports, FlexE groups, the mapper and demapper of tributary channels (chapter 11). -/

namespace Sys2Proof.Machine

/-! ### Ports and groups -/

/-- A client port. -/
def State.port (s : State) (p : Nat) : Port := agetD s.cli.ports p portReset
/-- Change it. -/
def State.modPort (s : State) (p : Nat) (f : Port → Port) : State :=
  { s with cli := { s.cli with ports := aset s.cli.ports p (f (s.port p)) } }
/-- A FlexE group. -/
def State.flxGrp (s : State) (g : Nat) : FlxGrp := agetD s.cli.grps g grpReset
/-- Change it. -/
def State.modGrp (s : State) (g : Nat) (f : FlxGrp → FlxGrp) : State :=
  { s with cli := { s.cli with grps := aset s.cli.grps g (f (s.flxGrp g)) } }
/-- Mode of a port. -/
def State.portMode (s : State) (p : Nat) : Nat := s.cf F.CLI_PORT_CTL_MODE p

/-- A port's defects that fail its clients (R323). -/
def State.portFail (s : State) (p : Nat) : Bool :=
  (s.port p).los || (s.port p).lol || ((s.port p).hiUnc && s.cf F.CLI_PORT_CTL_HISER_ACT p == 1)

/-- PHYs of a FlexE group, by their lowest lanes (R309, R312). -/
def State.flxPhys (s : State) (g : Nat) : List Nat := (List.range 16).filter fun p =>
  6 ≤ s.portMode p && s.portMode p ≤ 8 && s.cf F.CLI_PORT_CTL_FLX_GRP p == g

/-- Client signal fail at ingress of a channel (R322, R323, R313): a PHY's defect applies to every client of its group. -/
def State.csfIn (s : State) (c : Nat) : Bool :=
  let p := s.cf F.CLI_CH_CFG_PORT c
  match s.cf F.CLI_CH_CFG_TYPE c with
  | 0 => false
  | 6 => (s.chan c).calMis || (s.flxGrp (p % 8)).defect || (s.flxPhys (p % 8)).any s.portFail
  | _ => s.portFail p

/-- PORT_LOS (R322, R327): `lost` after 10 µs without signal, not `lost` after 100 µs with signal on every lane. -/
def execPortLos (p : Fin 16) (lost : Bool) (s : State) : Host.Outcome State Fault Refusal := live s fun s =>
  if s.portMode p = 0 then s else (s.modPort p fun q => { q with los := lost }).defect lost 0x0B01 0 p

/-- PORT_LOL (R322, R327): lock lost, or held for 1 ms. -/
def execPortLol (p : Fin 16) (lost : Bool) (s : State) : Host.Outcome State Fault Refusal := live s fun s =>
  if s.portMode p = 0 then s else (s.modPort p fun q => { q with lol := lost }).defect lost 0x0B02 0 p

/-- PORT_UNC_INTERVAL (R322, R328): codewords corrected and uncorrectable in 10 ms. -/
def execPortUncInterval (p : Fin 16) (corrected unc : Nat) (s : State) : Host.Outcome State Fault Refusal :=
  live s fun s =>
  if s.portMode p = 0 then s else
  let thr := s.cf F.CLI_PORT_CTL_UNC_THR p
  let s := ((s.bump64 .CLI_PORT_FEC_CORR_LO p corrected).bump .CLI_PORT_FEC_UNC p unc).signal 0x0080 0 p corrected
  let s := s.modPort p fun q => if thr ≠ 0 ∧ thr ≤ unc then { q with uncRun := q.uncRun + 1, okRun := 0 }
    else { q with uncRun := 0, okRun := q.okRun + 1 }
  let q := s.port p
  let hi := if 3 ≤ q.uncRun then true else if 10 ≤ q.okRun then false else q.hiUnc
  (s.modPort p fun q => { q with hiUnc := hi }).defect hi 0x0B03 0 p

/-- 100G instances of a FlexE group. -/
def State.flxInst (s : State) (g : Nat) : Nat := ((s.flxPhys g).map fun p => 2 ^ (s.portMode p - 6)).sum

/-- The group number and the number of PHYs in the PHY map received match the group, which has 1 to 8 PHYs of one rate (R312,
R322). -/
def State.flxMatch (s : State) (g : Nat) (got : Nat × Nat) : Bool :=
  let l := s.flxPhys g
  1 ≤ l.length && l.length ≤ 8 && l.all (fun p => s.portMode p == s.portMode (l.headD 0)) &&
    got.1 == s.cf F.CLI_FLX_CTL_GROUP_NUM g && got.2 == l.length

/-- FLEXE_GROUP_DEFECT (R322): overhead lock, and the group number and number of PHYs received, as they stood for 1 ms or as they
were lost. -/
def execFlexeGroupDefect (g : Fin 8) (lock : Bool) (got : Nat × Nat) (s : State) : Host.Outcome State Fault Refusal :=
  live s fun s =>
  let bad := !(lock && s.flxMatch g got)
  (s.modGrp g fun q => { q with lock := lock, defect := bad }).defect bad 0x0B04 0 g

/-- Calendar slots that a calendar of a group gives a client: 20 for each 100G instance (R312, R313). -/
def State.calCount (s : State) (g cal client : Nat) : Nat :=
  ((List.range (min 640 (20 * s.flxInst g))).filter fun i =>
    (if cal = 0 then F.CLI_FLX_CAL_A_CLIENT else F.CLI_FLX_CAL_B_CLIENT).at s.rd (g * 640 + i) == client).length

/-- Compare an enabled FlexE channel's N with the calendar in use (R313). -/
def State.calCheck (s : State) (c : Nat) : State :=
  let g := s.cf F.CLI_CH_CFG_PORT c % 8
  if s.cf F.CLI_CH_CFG_EN c = 1 ∧ s.cf F.CLI_CH_CFG_TYPE c = 6 then
    let bad := s.calCount g (s.flxGrp g).cal (s.cf F.CLI_CH_FLX_CLIENT c) != s.cf F.CLI_CH_CFG_N c
    (s.modChan c fun h => { h with calMis := bad }).defect bad 0x0B05 0 c
  else s

/-- FLEXE_CALENDAR_SWITCH (R312, R313): the calendar in use changes at ingress, where the far end's request is acknowledged, or at
egress, where FLX_CTL.CAL_TX requested it and the far end has acknowledged. -/
def execFlexeCalendarSwitch (g : Fin 8) (egress : Bool) (cal : Fin 2) (s : State) :
    Host.Outcome State Fault Refusal := live s fun s =>
  if egress then (if s.cf F.CLI_FLX_CTL_CAL_TX g = cal then s.modGrp g fun q => { q with calTx := cal } else s)
  else (s.modGrp g fun q => { q with cal := cal }).each s.onChans fun s c =>
    if s.cf F.CLI_CH_CFG_PORT c % 8 = g.val then s.calCheck c else s

/-! ### Mapper (R317, R318) -/

/-- Payload bytes of a channel in a frame (R316). -/
def State.payload (s : State) (c : Nat) : Nat :=
  match placeOf s.rd c with
  | .none => 0
  | .bonded => 105 * (slotsOf s.rd c .A + slotsOf s.rd c .B) - 8
  | .one x => 105 * slotsOf s.rd c x - 4
  | .prot => 105 * slotsOf s.rd c .A - 4

/-- B of R318: twenty times the stream rate, less 128. -/
def mapB (r : Rd) (c : Nat) : Nat := 20 * chRate r c * 257 / 256 - 128

/-- Where stream bytes lie: payload byte `i` of `p` carries one when the running count steps (R317). -/
def placeBytes (p n : Nat) (i fuel : Nat) (l : Bytes) : Bytes :=
  match fuel with
  | 0 => []
  | f + 1 =>
    if i * n / p < (i + 1) * n / p then
      match l with
      | [] => 0 :: placeBytes p n (i + 1) f []
      | b :: r => b :: placeBytes p n (i + 1) f r
    else 0 :: placeBytes p n (i + 1) f l

/-- The stream bytes of a payload (R317). -/
def takeBytes (p n : Nat) (i : Nat) (l : Bytes) : Bytes :=
  match l with
  | [] => []
  | b :: r => if i * n / p < (i + 1) * n / p then b :: takeBytes p n (i + 1) r else takeBytes p n (i + 1) r

/-- Bytes a started mapper sends in a frame, and n_1 when FN is 0: it would send `want`, and has `got` (R318). -/
def mapCount (h : Chan) (fn b p want got : Nat) : Nat × Nat :=
  let top := min p (b + 255)
  match fn with
  | 0 =>
    let sum := min (min (2 * b + 383) (2 * top)) (max (max (2 * b + 128) (2 * b)) (2 * want))
    (sum / 2, sum - sum / 2)
  | 1 => (h.n1, 0)
  | _ =>
    let n := min top (max b want)
    if fn = 255 ∧ (h.txC + n) % 257 = 256 then
      if n + 1 ≤ got ∧ n + 1 ≤ top then (n + 1, 0) else (n - 1, 0)
    else (n, 0)

/-- A failed client's frame: Local Fault sets at the stream rate, `owed` 1/256 bytes of them due (R323). -/
def State.mapFault (s : State) (c fn p : Nat) (h : Chan) : State × Nat × Bytes :=
  let owed := h.owed + 20 * chRate s.rd c * 257
  let n := mapCount h fn (mapB s.rd c) p (owed / 256) p
  (s.modChan c fun h => { h with txC := h.txC + n.1, n1 := if fn = 0 then n.2 else h.n1, owed := owed - 256 * n.1 },
    n.1, (List.range n.1).map fun i => Config.localFault ((h.txC + i) % 257))

/-- A client's frame out of its FIFO, whose target is 64 bytes (R318). Bytes that the FIFO lacks are free values (R321; log 43). -/
def State.mapClient (s : State) (c fn p : Nat) (h : Chan) : State × Nat × Bytes :=
  let n := mapCount h fn (mapB s.rd c) p (h.fifo.length - 64) h.fifo.length
  let lack := n.1 - h.fifo.length
  let f := if lack = 0 then (s, []) else s.fresh lack
  (f.1.modChan c fun h => { h with txC := h.txC + n.1, n1 := if fn = 0 then n.2 else h.n1, fifo := h.fifo.drop n.1 },
    n.1, h.fifo.take n.1 ++ f.2)

/-- The mapper's frame of a channel: payload and MAP byte (R317, R318). A channel starts at FN 0. While its client
has failed it sends Local Fault sets (R323). -/
def State.mapFrame (s : State) (c fn : Nat) : State × Bytes × Nat :=
  let p := s.payload c
  let h := s.chan c
  let start := fn == 0 && !h.started && s.cf F.CLI_CH_CFG_EN c == 1 && chRate s.rd c != 0
  let s := if start then s.modChan c fun h => { h with started := true, txC := 0, n1 := 0 } else s
  let h := s.chan c
  if !h.started || p == 0 then (s, List.replicate p 0, 0) else
  let r := if h.csfTx then s.mapFault c fn p h else s.mapClient c fn p h
  (r.1, placeBytes p r.2.1 0 p r.2.2, if fn = 0 then h.txC % 257 else (h.txC + r.2.1) % 256)

/-! ### Demapper (R319, R320, R324) -/

/-- Block `j` of the eight blocks that 257 stream bytes hold: not there before the block phase, 66b error control blocks where a
byte is marked errored (R317, R320). -/
def streamBlock (g : List (Option (Byte × Bool))) (j : Nat) : Option (Option (BitVec 257)) :=
  let a := 257 * j / 8
  let part := (g.drop a).take ((257 * j + 256) / 8 - a + 1)
  if part.all (·.isNone) then none
  else if part.any (fun e => match e with
    | some b => b.2
    | none => true) then some none
  else
    let bits := ((part.flatMap fun e => byteBits ((e.map (·.1)).getD 0)).drop (257 * j % 8)).take 257
    some (some (BitVec.ofNat 257 (bitsNat bits.reverse)))

/-- The whole blocks of a run of stream bytes, 257 bytes at a time. -/
def streamBlocks (g : List (Option (Byte × Bool))) (n : Nat) : List (Option (BitVec 257)) :=
  (List.range n).flatMap fun k => (List.range 8).filterMap fun j => streamBlock ((g.drop (257 * k)).take 257) j

/-- What a channel's demapper delivers of a part whose count is `n`: the blocks that are whole, unless the replacement signal runs
in their place or the part never came (R320, R324). -/
def State.deliver (s : State) (c n : Nat) (q : RxPart) (errored out : Bool) : State :=
  let g := (s.chan c).egress ++ (takeBytes q.body.length n 0 q.body).map fun b => some (b, errored)
  let k := g.length / 257
  let s := s.modChan c fun h => { h with egress := g.drop (257 * k) }
  if k = 0 || !out || (s.chan c).repl then s else s.emit (.client c (streamBlocks g k))

/-- The stream starts again at a block phase (R320). -/
def Chan.phase (h : Chan) (phi : Nat) : Chan := { h with rxC := phi, egress := List.replicate phi none }

/-- The channel leaves or does not reach IN. -/
def State.mapOut (s : State) (c : Nat) : State := (s.modChan c Chan.mapOff).replEval c

/-- The byte difference of R319. -/
def mapDiff (base a b : Nat) : Nat := base + (a + 1024 * 256 - b - base) % 256

/-- A part in IN (R319): FN 0 waits for FN 1. `out`: its blocks go out. -/
def State.demapIn (s : State) (c : Nat) (q : RxPart) (out : Bool) : State :=
  let b := mapB s.rd c
  let h := s.chan c
  let ref := h.refM.getD 0
  let s := s.modChan c fun h => { h with last := some q.frame }
  match q.frame % 256 with
  | 0 =>
    let s := if q.noMap || q.map == h.rxC % 257 then s
      else ((s.bump .CLI_CH_REALIGN c).occ 0x0B08 0 c).modChan c fun h => h.phase q.map
    s.modChan c fun h => { h with noZero := if q.noMap then h.noZero + 1 else 0, zero := some q }
  | 1 =>
    let z := h.zero.getD ⟨q.frame - 1, List.replicate q.body.length 0, true, 0, true, true⟩
    let n : Nat × Nat :=
      if z.noMap then (h.lastN, if q.noMap then h.lastN else mapDiff b q.map ((ref + h.lastN) % 256))
      else if q.noMap then (h.lastN, h.lastN)
      else
        let sum := mapDiff (2 * b + 128) q.map ref
        (sum / 2, sum - sum / 2)
    let s := s.deliver c n.1 z (z.bad || h.guessed || (q.noMap && !z.noMap)) out
    let s := s.deliver c n.2 q (q.bad || z.noMap) out
    s.modChan c fun h => { h with
      zero := none, lastN := n.2, rxC := (h.rxC + n.1 + n.2) % 257, guessed := q.noMap
      refM := some (if q.noMap then (ref + n.1 + n.2) % 256 else q.map) }
  | _ =>
    let n := if q.noMap then h.lastN else mapDiff b q.map ref
    let s := s.deliver c n q (q.bad || h.guessed) out
    s.modChan c fun h => { h with
      lastN := n, rxC := (h.rxC + n) % 257, guessed := q.noMap,
      refM := some (if q.noMap then (ref + n) % 256 else q.map) }

/-- Frames that never came between the last one and this part: absent parts, of which nothing goes out, since the copy had failed
(R319, R324); at most as many as leave the channel in IN (R320). -/
def State.demapGap (s : State) (c : Nat) (q : RxPart) : State :=
  match (s.chan c).last with
  | none => s
  | some f => (List.range (min (q.frame - (f + 1)) 1023)).foldl (fun s i =>
      s.demapIn c ⟨f + 1 + i, List.replicate (s.payload c) 0, true, 0, true, true⟩ false) s

/-- A part in OUT: good parts of FN 255, 0 and 1 in a row lead to IN, block phase from Φ (R320). -/
def State.demapOut (s : State) (c : Nat) (q : RxPart) : State :=
  let h := s.chan c
  let next := h.last.any fun f => f + 1 == q.frame
  let s := s.modChan c fun h => { h with last := some q.frame }
  if q.noMap then s.modChan c fun h => { h with entry := 0 } else
  match q.frame % 256, h.entry, next with
  | 255, _, _ => s.modChan c fun h => { h with entry := 1, refM := some q.map }
  | 0, 1, true => s.modChan c fun h => { h.phase q.map with entry := 2, zero := some q }
  | 1, 2, true =>
    let s := (s.modChan c fun h => { h with mapIn := true, entry := 0, noZero := 0, guessed := false, mapLost := false }).clear
      0x0B09 0 c
    (s.demapIn c q true).replEval c
  | _, _, _ => s.modChan c fun h => { h with entry := 0 }

/-- DEMAP_FRAME (R319, R320): the next part that Seam or the framer handed over. -/
def execDemapFrame (c : Fin 1024) (s : State) : Host.Outcome State Fault Refusal := live s fun s =>
  match (s.chan c).rxq with
  | [] => s
  | q :: r =>
    let s := s.modChan c fun h => { h with rxq := r }
    if s.demapGone c then s.mapOut c
    else if (s.chan c).mapIn then (s.demapGap c q).demapIn c q true else s.demapOut c q

/-- LOSS_OF_MAPPING (R320): three multiframes without a good FN 0 part; without a delivering copy none comes. -/
def execLossOfMapping (c : Fin 1024) (s : State) : Host.Outcome State Fault Refusal := live s fun s =>
  let h := s.chan c
  if h.mapIn ∧ (3 ≤ h.noZero ∨ (s.usedCopies c).all (fun x => s.psf x c)) then
    ((s.modChan c fun h => { h with mapLost := true }).raise 0x0B09 0 c).mapOut c
  else s

/-- CSF_RECEIVED (R324): 3 consecutive frames with or without bit 2 in the copy in use. -/
def execCsfReceived (c : Fin 1024) (s : State) : Host.Outcome State Fault Refusal := live s fun s =>
  let h := s.chan c
  if s.cf F.CLI_CH_CFG_EN c = 0 then s
  else if 3 ≤ h.csfRun then ((s.modChan c fun h => { h with csfRx := true }).raise 0x0B06 0 c).replEval c
  else if 3 ≤ h.noCsf then ((s.modChan c fun h => { h with csfRx := false }).clear 0x0B06 0 c).replEval c
  else s

/-- Bit 2 of PBEI_RDI in the copy in use (R324). -/
def State.csfSeen (s : State) (c : Nat) (on : Bool) : State :=
  s.modChan c fun h => if on then { h with csfRun := h.csfRun + 1, noCsf := 0 } else { h with csfRun := 0, noCsf := h.noCsf + 1 }

/-- RATE_ADAPT_FAULT (R321, R327): an ingress or egress FIFO over- or underflows. The blocks under way at egress are marked
errored (DESIGN CHOICE, log 43), and the egress FIFO is re-centred with idles. -/
def execRateAdaptFault (c : Fin 1024) (s : State) : Host.Outcome State Fault Refusal := live s fun s =>
  if s.cf F.CLI_CH_CFG_EN c = 1 then
    ((s.occ 0x0B0A 0 c).modChan c fun h => { h with egress := h.egress.map fun e => e.map fun b => (b.1, true) }).emit
      (.recentre c)
  else s

/-- What the start or end of a channel's use does (R318, R320, R325); `was` EN before the commit. -/
def State.chEnable (s : State) (c : Nat) (was : Bool) : State :=
  let on := s.cf F.CLI_CH_CFG_EN c == 1
  if on == was then s
  else if on then (s.calCheck c).chEval c
  else
    let s := [0x0B05, 0x0B06, 0x0B07, 0x0B08, 0x0B09].foldl (fun s e => s.forget e 0 c) s
    { s with cli := { s.cli with ch := aset s.cli.ch c { chanReset with shed := (s.chan c).shed } } }

end Sys2Proof.Machine
end

