-- ==== Sys2Proof/Machine/Seam.lean ====
section
/-! DEFINITION. Seam: pairing, frame clock, deskew ring, frames at P, failure and realignment (chapter 10). Conditions,
requests and selection of R291 to R295 stand in `Machine/Link.lean`. -/

namespace Sys2Proof.Machine

/-! ### The deskew set and its ring (R288 to R290, R301 to R303) -/

/-- Channels placed bonded or protected (R281), ascending. -/
def State.seamChans (s : State) : List Nat := s.placed.filter fun c => deskewSlots s.rd c != 0

/-- Those that the ring holds: not dropped (R302). -/
def State.ringChans (s : State) : List Nat := s.seamChans.filter fun c => !(s.sch c).dropped

/-- A region that Seam can use (R301, R450, R457): READY, and every port of it up and not degraded. -/
def State.rgnUsable (s : State) (g : Nat) : Bool :=
  g < 32 && (agetD s.cxl.rgns g rgnReset).st == .ready &&
  (let m := s.cf F.CXL_RGN_CTL_MODE g
   [0, 1].all fun p => (m != 2 && m != p) || (agetD s.cxl.ports p cxlPortReset).full)

/-- The region that holds the ring. -/
def State.ringRgn (s : State) : Nat :=
  if s.seam.onFall then s.cf F.SEAM_RGN_FALLBACK 0 else s.cf F.SEAM_RGN_DESKEW 0

/-- Channels in dropping order, from `l`, that must go until the rest fit a region (R302). -/
def State.overLoad (s : State) (g : Nat) (l : List Nat) : List Nat :=
  match l with
  | [] => []
  | c :: r =>
    let n := l.map (deskewSlots s.rd)
    if sumN n ≤ s.deskewCap s.rd g ∧
        deskewBytes (s.cf F.SEAM_CTL_WINDOW_MS 0) n ≤ s.cf F.CXL_RGN_SIZE_SIZE g * 2097152 then []
    else c :: s.overLoad g r

/-- Drop channels until the others among `l` fit region `g`; a channel newly dropped is reported (R302, R306). -/
def State.seamFit (s : State) (g : Nat) (l : List Nat) : State :=
  let out := s.overLoad g (sortKey (shedKey s.rd) l)
  let s := s.each out fun s c => if (s.sch c).dropped then s else s.occ 0x0A07 0 c
  s.each l fun s c => s.modSch c fun h => { h with dropped := out.contains c }

/-- Lead copies and parts enter refill (R292). -/
def State.seamRefill (s : State) : State :=
  s.each s.ringChans fun s c => s.modSch c fun h =>
    h.setCopy s.lead { h.copy s.lead with refill := true, first := none }

/-- A lead copy of the ring is in refill: SEAM.STAT.STATE 1. -/
def State.seamFilling (s : State) : Bool := s.ringChans.any fun c => ((s.sch c).copy s.lead).refill

/-- The ring runs again, its refill over: the path failure clears (R306; DEDUCED, log 50). -/
def State.seamRunning (s : State) : State :=
  if s.seam.deskFail || s.seamFilling then s else s.clear 0x0A04 0 0

/-- SEAM.STAT.STATE (R307). -/
def State.seamState (s : State) : Nat :=
  if s.seamChans.isEmpty then 0 else if s.seam.deskFail then 4 else if s.stands 0x0A05 0 0 then 3
  else if s.seamFilling then 1 else 2

/-- The deskew path fails (R301): what the ring holds is lost. With a usable fallback the ring will be rebuilt there at
the next received multiframe boundary; channels that do not fit are dropped (R302). -/
def State.seamFail (s : State) : State :=
  let lead := s.lead
  let s := s.modSeam fun m => { m with
    deskFail := true, rebuild := false, failAt := some s.sys.dtime
    due := if m.due = some s.sys.dtime then none else m.due, store := m.store.filter fun q => q.car != lead }
  let s := (s.bump .SEAM_DSK_FAIL 0).raise 0x0A04 0 0
  let g := s.cf F.SEAM_RGN_FALLBACK 0
  let s := if !s.seam.onFall && s.rgnUsable g then
    (s.seamFit g s.ringChans).modSeam fun m => { m with rebuild := true } else s
  s.chEvalAll

/-- After a change of ports, regions or settings: the path fails when the ring's region can no longer serve (R301).
With no channel to deskew Seam is off, and no failure of the path stands (log 51). -/
def State.seamCheck (s : State) : State :=
  if s.seamChans.isEmpty then
    (s.modSeam fun m => { m with deskFail := false, rebuild := false, onFall := false, store := [] }).clear 0x0A04 0 0
  else if !s.seam.deskFail && !s.rgnUsable s.ringRgn then s.seamFail else s

/-- After a commit or plan that may change placements or Seam's settings; `old` the values before it. A channel that
becomes bonded or protected starts in refill, protected on its preferred carrier; one that leaves Seam drops its
standing defects (R292, R297, R299; log 51). -/
def State.seamCommit (s : State) (old : Rd) : State :=
  let ps := s.seam.chans.foldl (fun l e => insSorted e.1 l) s.placed
  let s := s.each ps fun s c =>
    let a := placeOf old c
    let b := placeOf s.rd c
    let deskewed (p : Place) : Bool := p == .bonded || p == .prot
    if a == b || !(deskewed a || deskewed b) then s else
    let s := ((s.forget 0x0A02 0 c).forget 0x0A03 0 c)
    let sel := if b == .prot then carOf (s.cf F.SEAM_GRP_CTL_PREF (s.grpOf c)) else .A
    let h : SeamCh := { seamChReset with
      sel := sel, a := { copyReset with refill := s.lead == .A }, b := { copyReset with refill := s.lead == .B } }
    let rest := s.seam.chans.filter fun e => e.1 != c
    s.modSeam fun m => { m with chans := if deskewed b then aset rest c h else rest }
  let moved := F.SEAM_RGN_DESKEW.at old 0 != s.cf F.SEAM_RGN_DESKEW 0 && !s.seam.onFall && !s.seam.deskFail
  let s := if moved then s.seamRefill else s
  s.seamCheck

/-! ### Pairing, clock and realignment (R284, R285, R304, R305) -/

/-- Offset from a carrier's arrivals to P (R285). -/
def State.clockOfs (s : State) (x : Carrier) : Int :=
  if x = s.lead then s.seam.deltaUse.natAbs + s.guardNs else s.guardNs

/-- A carrier's arrival less 40,960 ns a multiframe, of the latest paired multiframe. -/
def arrOf (a : Int × Int) (x : Carrier) : Int :=
  match x with
  | .A => a.1
  | .B => a.2

/-- The frame clock's reference (R285, R304): the lag carrier while it delivers, else the lead carrier, neither while it waits for a
realignment; none while the clock runs on. While the window is exceeded the lag carrier, if it is aligned. -/
def State.clockRef (s : State) : Option Carrier :=
  let on (x : Carrier) : Bool := (s.car x).tr.st == .aligned && (s.seam.rx x).on
  let able (x : Carrier) : Bool := on x && !(s.seam.rx x).out
  let lag := s.lead.other
  if s.stands 0x0A05 0 0 && on lag then some lag else if able lag then some lag
  else if able s.lead then some s.lead else none

/-- The runs of received multiframe counts after one more (R284): a carrier that delivered goes on, one that returns starts a new
run; counts that come again after a restart of the far end are forgotten. -/
def SeamRx.mf (r : SeamRx) (m : Nat) : SeamRx :=
  { r with on := true, runs := match r.runs with
    | (a, b) :: l => if r.on ∧ b + 1 = m then (a, m) :: l else (m, m) :: ((a, b) :: l).filter fun q => q.2 < m
    | [] => [(m, m)] }

/-- Multiframe `m` was received on a carrier in ALIGNED. -/
def SeamRx.has (r : SeamRx) (m : Nat) : Bool := r.runs.any fun q => q.1 ≤ m && m ≤ q.2

/-- It is the last one received there. -/
def SeamRx.last (r : SeamRx) (m : Nat) : Bool := r.runs.head?.any fun q => q.2 == m

/-- A received multiframe boundary of a carrier as the frame clock sees it (R285). A carrier that returns is taken back only if its
arrivals lie within G/2 of the clock's phase; the reference's arrivals set the phase. -/
def State.clockMf (s : State) (x : Carrier) (returned : Bool) : State :=
  let p : Int := (s.ns : Int) - 40960 * (s.car x).tr.mfc + s.clockOfs x
  let far : Bool := match s.seam.base with
    | some b => decide (s.guardNs < (p - b).natAbs * 2)
    | none => false
  let s := if returned then s.modSeam fun m => m.setRx x { m.rx x with out := far } else s
  s.modSeam fun m => { m with clock := s.clockRef, base := if s.clockRef = some x then some p else m.base }

/-- A realignment (R305), at a received multiframe boundary of the lag carrier: Δ_use, the lead carrier and the clock follow the latest arrivals; frames whose P has passed
are dropped and counted; a new lead carrier restarts the ring. -/
def State.realign (s : State) : State :=
  match s.seam.arr with
  | none => s.modSeam fun m => { m with due := none }
  | some a =>
    let old := s.lead
    let base := s.seam.base
    let s := s.modSeam fun m => { m with
      deltaUse := a.2 - a.1, driftRun := 0, due := none, rxA := { m.rxA with out := false }, rxB := { m.rxB with out := false } }
    let lag := s.lead.other
    let p := arrOf a lag + s.guardNs
    let n := match base with
      | some b => ((b - p).toNat + 159) / 160
      | none => 0
    let s := if n = 0 then s else s.each s.ringChans fun s c => s.bump .SEAM_CH_BAD c n
    let s := s.modSeam fun m => { m with clock := some lag, base := some p }
    let s := s.each s.seamChans fun s c => s.modSch c fun h => { h with
      a := { h.a with late := false, lateNow := false, lateRun := 0 }
      b := { h.b with late := false, lateNow := false, lateRun := 0 } }
    let s := if s.lead = old then s else
      (s.modSeam fun m => { m with store := m.store.filter fun q => q.car != old }).seamRefill
    (((s.bump .SEAM_REALIGN_CNT 0).occ 0x0A06 0 0).clear 0x0A08 0 0).chEvalAll

/-- A realignment is called for: it waits for the lag carrier's next multiframe boundary (R305). -/
def State.realignDue (s : State) : State := s.modSeam fun m => { m with due := some s.sys.dtime }

/-- A realignment that R305 calls for by itself, or the defect in its place. -/
def State.realignAuto (s : State) : State :=
  if s.cf F.SEAM_CTL_REALIGN_AUTO 0 = 1 then s.realignDue else s.raise 0x0A08 0 0

/-- SEAM.CTL.REALIGN (R303, R305): abandoned in the same cycle as a failure of the path. It returns to the deskew
region if that can serve, its ring empty, and calls for a realignment. -/
def State.seamRealign (s : State) : State :=
  if s.seam.failAt = some s.sys.dtime then s else
  let g := s.cf F.SEAM_RGN_DESKEW 0
  let back := (s.seam.onFall || s.seam.deskFail || s.seamChans.any fun c => (s.sch c).dropped) && s.rgnUsable g
  let s := if back then
    ((s.modSeam fun m => { m with
      onFall := false, deskFail := false, rebuild := false, store := m.store.filter fun q => q.car != s.lead }).seamFit g
      s.seamChans).seamRefill else s
  s.realignDue.seamRunning.chEvalAll

/-- A copy's lateness at the end of a multiframe of its carrier: late after 2 in which a frame came after its P (R292). -/
def Copy.lateStep (k : Copy) : Copy :=
  let n := if k.lateNow then k.lateRun + 1 else 0
  { k with lateNow := false, lateRun := n, late := k.late || decide (2 ≤ n) }

/-- SEAM_PAIR_MEASURE (R283, R284, R304, R305): multiframe `m` was received on both carriers in ALIGNED, on one of them last of
all; `tA`, `tB` are the device times in ns at which its frame 0 left each framer. -/
def execSeamPairMeasure (m : Nat) (tA tB : Nat) (s : State) : Host.Outcome State Fault Refusal := live s fun s =>
  let q := s.seam
  if !(q.rxA.has m && q.rxB.has m && (q.rxA.last m || q.rxB.last m)) then s else
  let a : Int × Int := ((tA : Int) - 40960 * m, (tB : Int) - 40960 * m)
  let d := a.2 - a.1
  let w : Int := s.cf F.SEAM_CTL_WINDOW_MS 0 * 1000000
  let win := s.stands 0x0A05 0 0
  let s := s.modSeam fun q => { q with
    arr := some a, pairAt := s.ns, leadKnown := true, unpaired := 0
    overRun := if !win && decide (w < d.natAbs) then q.overRun + 1 else 0
    underRun := if win && decide ((d.natAbs : Int) ≤ w - s.guardNs) then q.underRun + 1 else 0
    driftRun := if !win && decide (s.guardNs < (d - q.deltaUse).natAbs * 2) then q.driftRun + 1 else 0 }
  let s := if 16 ≤ s.seam.overRun then s.raise 0x0A05 0 0
    else if 16 ≤ s.seam.underRun then (s.clear 0x0A05 0 0).realignAuto
    else if 16 ≤ s.seam.driftRun && !win then s.realignAuto else s
  (s.modSeam fun q => { q with clock := s.clockRef }).chEvalAll

/-- The copies on a carrier at a boundary of its multiframes (R292); a carrier that returns starts its run of late multiframes
afresh. -/
def State.lateMf (s : State) (x : Carrier) (returned : Bool) : State :=
  s.each s.ringChans fun s c => s.modSch c fun h =>
    let k := h.copy x
    h.setCopy x (if returned then { k with lateNow := false, lateRun := 0 } else k.lateStep)

/-- Multiframes that did not pair while both carriers are ALIGNED, counted on carrier A's boundaries (R304). -/
def State.unpairedMf (s : State) (x : Carrier) : State :=
  if x = .B then s
  else if s.carA.tr.st = .aligned ∧ s.carB.tr.st = .aligned then
    let s := s.modSeam fun m => { m with unpaired := m.unpaired + 1 }
    if 16 < s.seam.unpaired ∧ !s.stands 0x0A05 0 0 then s.raise 0x0A05 0 0 else s
  else s.modSeam fun m => { m with unpaired := 0 }

/-- A received multiframe boundary of carrier `x` (R284, R285, R292, R302, R304, R305): a waiting rebuild starts on the lead
carrier's, a waiting realignment takes place on the lag carrier's. -/
def State.seamMf (s : State) (x : Carrier) : State :=
  let returned := !(s.seam.rx x).on
  let s := s.modSeam fun m => m.setRx x ((m.rx x).mf (s.car x).tr.mfc)
  let s := (s.lateMf x returned).unpairedMf x
  let s := if s.seam.due.isSome ∧ x ≠ s.lead then s.realign else s
  let s := s.clockMf x returned
  let g := s.cf F.SEAM_RGN_FALLBACK 0
  let s := if s.seam.rebuild && x == s.lead && s.rgnUsable g then
    (s.modSeam fun m => { m with onFall := true, deskFail := false, rebuild := false }).seamRefill else s
  s.chEvalAll

/-! ### Parts and frames at P (R286, R296, R300) -/

/-- Frames that the ring holds (R288). -/
def State.ringFrames (s : State) : Nat := 6250 * s.cf F.SEAM_CTL_WINDOW_MS 0 + 256

/-- The record of a frame (R288): its size, and the offset of a channel's area in it. -/
def State.ringArea (s : State) (c : Nat) : Nat × Nat :=
  let size (l : List Nat) : Nat := l.foldl (fun a i => a + 64 * ((105 * deskewSlots s.rd i + 63) / 64)) 192
  (size s.ringChans, size (s.ringChans.takeWhile (· != c)))

/-- A lead part is written to its frame's record in the ring's region, over the frame that the ring held there; the first part of a
frame brings the record's header, whose bytes the spec does not give (R288; log 53). -/
def State.ringWrite (s : State) (q : Part) : State :=
  let a := s.ringArea q.ch
  let at_ := q.frame % s.ringFrames * a.1
  let begun := s.seam.store.any fun e => e.frame == q.frame && e.car == q.car
  let h := s.fresh 192
  let s := if begun then s else h.1.emit (.cxlWrite s.ringRgn at_ h.2)
  (s.emit (.cxlWrite s.ringRgn (at_ + a.2) q.body)).modSeam fun m => { m with
    store := (m.store.filter fun e => e.car != q.car || q.frame < e.frame + s.ringFrames) ++ [q] }

/-- Bytes of the lag buffer (R286). -/
def lagBytes : Nat := 4194304

/-- A lag part goes to the lag buffer while that has room (R286; log 53). -/
def State.lagWrite (s : State) (q : Part) : State :=
  let used := ((s.seam.store.filter fun e => e.car == q.car).map (·.body.length)).sum
  if lagBytes < used + q.body.length then s else s.modSeam fun m => { m with store := m.store ++ [q] }

/-- A received part of a deskewed channel: written to the ring or the lag buffer, or late (R286, R288, R292). A dropped
channel runs on its lag copy alone (R302). -/
def State.seamPart (s : State) (q : Part) : State :=
  let h := s.sch q.ch
  let isLead := q.car == s.lead
  if h.dropped then
    if isLead || placeOf s.rd q.ch != .prot then s
    else (s.modChan q.ch fun c => { c with rxq := c.rxq ++ [⟨q.frame, q.body, q.bad, q.map, q.bad, q.frm⟩] }).csfSeen
      q.ch q.csf
  else if (match s.seam.lastOut with | some n => decide (q.frame ≤ n) | none => false) then
    s.modSch q.ch fun h => h.setCopy q.car { h.copy q.car with lateNow := true }
  else if !isLead then s.lagWrite q
  else if s.seam.deskFail then s
  else
    let s := s.ringWrite q
    if (h.copy q.car).refill && (h.copy q.car).first.isNone then
      s.modSch q.ch fun h => h.setCopy q.car { h.copy q.car with first := some q.frame }
    else s

/-- No carrier delivers frames: every frame that the clock gives is errored (R285). -/
def State.seamDead (s : State) : Bool := s.carA.tr.st != .aligned && s.carB.tr.st != .aligned

/-- The part of a frame on a carrier: absent, or with its errored flag once poison is counted in: a poisoned record header is that
of the lead parts (R285, R286, R301). -/
def State.partAt (s : State) (frame c : Nat) (x : Carrier) (hdr : Bool) (psn : List (Carrier × Nat)) : Option Part :=
  (s.seam.store.find? fun q => q.frame == frame && q.car == x && q.ch == c).map fun q =>
    { q with bad := q.bad || (hdr && x == s.lead) || psn.contains (x, c) || s.seamDead }

/-- A part is good. -/
def partGood (q : Option Part) : Bool := match q with
  | some p => !p.bad
  | none => false

/-- Bytes of a part, free where it is absent. -/
def State.partBody (s : State) (q : Option Part) (n : Nat) : State × Bytes :=
  match q with
  | some p => (s, p.body)
  | none => s.fresh n

/-- Hand a frame to the demapper. -/
def State.seamHand (s : State) (c frame : Nat) (body : Bytes) (bad : Bool) (map : Option Nat) (csf : Option Bool)
    (frm : Bool) : State :=
  let s := s.modChan c fun h => { h with rxq := h.rxq ++ [⟨frame, body, bad, map.getD 0, map.isNone, frm⟩] }
  match csf with
  | some b => s.csfSeen c b
  | none => s

/-- One deskewed channel's frame at P: the selected copy, the other in its place, or the two parts joined (R293, R296,
R300). -/
def State.seamOut (s : State) (frame : Nat) (hdr : Bool) (psn : List (Carrier × Nat)) (c : Nat) : State :=
  let a := s.partAt frame c .A hdr psn
  let b := s.partAt frame c .B hdr psn
  match placeOf s.rd c with
  | .bonded =>
    let p := s.partBody a (105 * slotsOf s.rd c .A - 4)
    let q := p.1.partBody b (105 * slotsOf s.rd c .B - 4)
    let bad := !(partGood a && partGood b)
    let m := if partGood a then a else if partGood b then b else none
    let s := if bad then q.1.bump .SEAM_CH_BAD c else q.1
    s.seamHand c frame (p.2 ++ q.2) bad (m.map (·.map)) (m.map (·.csf)) (a.any (·.frm) || b.any (·.frm))
  | .prot =>
    let h := s.sch c
    let pick (x : Carrier) : Option Part := match x with | .A => a | .B => b
    let sel := pick h.sel
    let oth := pick h.sel.other
    let subst := !partGood sel && partGood oth && s.cf F.SEAM_GRP_CTL_SUBST (s.grpOf c) == 1 && h.cmd != 1 && h.cmd != 2
    let use := if subst then oth else sel
    let s := if subst then (s.bump .SEAM_CH_SUBST c).signal 0x0070 0 c
      else if partGood sel then s else s.bump .SEAM_CH_BAD c
    let q := s.partBody use (105 * slotsOf s.rd c .A - 4)
    q.1.seamHand c frame q.2 (!partGood use) (if partGood use then use.map (·.map) else none) (use.map (·.csf)) (use.any (·.frm))
  | _ => s

/-- SEAM_FRAME_OUT (R285, R286, R292, R296, R298, R300): frame `frame` (MFC × 256 + FN) is at P. `hdr`: its record
header was read poisoned; `psn`: the parts that hold a word read poisoned (R301). -/
def execSeamFrameOut (frame : Nat) (hdr : Bool) (psn : List (Carrier × Nat)) (s : State) :
    Host.Outcome State Fault Refusal := live s fun s =>
  let lead := s.lead
  let s := s.each s.ringChans fun s c =>
    let k := (s.sch c).copy lead
    if k.refill && (match k.first with | some f => decide (f ≤ frame) | none => false) then
      (s.modSch c fun h => h.setCopy lead { h.copy lead with refill := false, first := none }).chEval c
    else s
  let s := s.seamRunning
  let s := s.each s.seamChans fun s c => s.chEval c
  let s := s.each s.ringChans fun s c => s.seamOut frame hdr psn c
  s.modSeam fun m => { m with store := m.store.filter fun q => frame < q.frame, lastOut := some frame }

/-! ### Timers and commands -/

/-- COPY_CLEAR_DELAY (R287): a cause of a copy's condition that no longer stands ceases to apply: 0 PSF, 1
authentication fail, 2 path degraded, 3 the copy absent, 4 the window exceeded. -/
def execCopyClearDelay (c : Fin 1024) (x : Carrier) (cause : Fin 5) (s : State) :
    Host.Outcome State Fault Refusal := live s fun s =>
  let s := s.modSch c fun h =>
    let k := h.copy x
    h.setCopy x (match cause with
      | 0 => { k with psfD := k.psf }
      | 1 => { k with authD := k.auth }
      | 2 => { k with sdD := k.sd }
      | 3 => { k with absentD := k.absent }
      | 4 => { k with winD := k.win })
  s.chEval c

/-- HOLD_OFF_EXPIRE (R294). -/
def execHoldOffExpire (c : Fin 1024) (s : State) : Host.Outcome State Fault Refusal := live s fun s =>
  if (s.sch c).hold then (s.seamEval c true).replEval c else s

/-- WTR_EXPIRE (R295). -/
def execWtrExpire (c : Fin 1024) (s : State) : Host.Outcome State Fault Refusal := live s fun s =>
  if (s.sch c).wtr then (s.modSch c fun h => { h with wtr := false }).chEval c else s

/-- SEAM_SWITCH (R297, R299): on a channel, or on every protected channel of a group. -/
def execSeamSwitch (fn : Fn) (r : Nat) (s : State) : Host.Outcome State Fault Refusal :=
  command fn r 0x0003 s fun d _ s =>
    let n := leAt d 16 2
    let l := s.seamChans.filter fun c => placeOf s.rd c == .prot && (if byteAt d 18 = 0 then c == n else s.grpOf c == n)
    if l.isEmpty then stop 11 4 else (0, 0, fun s =>
      s.each l fun s c => (s.modSch c fun h => { h with cmd := byteAt d 19 }).chEval c)

/-- SEAM_REALIGN (R303, R305): a write of 1 to SEAM.CTL.REALIGN. -/
def execSeamRealign (s : State) : Host.Outcome State Fault Refusal := live s fun s => s.seamRealign

end Sys2Proof.Machine
end

