-- ==== Sys2Proof/Machine/MemCxl.lean ====
section
/-! DEFINITION. Memory integrity, CXL ports and regions (chapter 17). -/

namespace Sys2Proof.Machine

/-! ### On-chip memories (R433 to R448) -/

/-- MEM.LAST (R460). -/
def State.memLast (s : State) (kind m w : Nat) : State :=
  { s with mem := { s.mem with
      last := BitVec.ofNat 32 (kind % 4 * 2 ^ 30 + m % 128 * 2 ^ 23 + w % 2 ^ 23) } }

/-- A memory event's DATA: the word address (R483). -/
def memData (w : Nat) : Bytes := leBytes 4 w

/-- Second of device time. -/
def State.second (s : State) : Nat := s.ns / 1000000000

/-- Event 0x1105, at most once per memory per second (R442). -/
def State.memReport (s : State) (m w : Nat) : State :=
  if (s.memo m).psnSec = some s.second then s else
  (s.modMem m fun q => { q with psnSec := some s.second }).occ 0x1105 0 m (memData w)

/-- A memory whose poisoned words are rebuilt from a golden copy (R436): a dispersion table in generated mode, Press
coefficients, the management processor's memory. -/
def State.memGolden (s : State) (m : Nat) : Bool :=
  (m == 0 && s.cfx F.CAR_CDE_CTL_TABLE_MODE .A == 0) || (m == 1 && s.cfx F.CAR_CDE_CTL_TABLE_MODE .B == 0) ||
  (8 ≤ m && m < 56) || m == 115

/-- A key-table word is poisoned: a channel's key of a place in one direction is lost (R271). -/
def State.memKey (s : State) (c : Fin 1024) (p : Fin 2) (tx : Bool) : State :=
  match (s.ciphCh c).ent p with
  | none => s
  | some e =>
    let s := s.modCiph c fun h => h.setEnt p (some (if tx then { e with txLost := true } else { e with rxLost := true }))
    if tx then if (s.ciphCh c).tx = some p.val then s.txKeyLost c else s
    else (s.keyLost .A c).keyLost .B c

/-- Elements `lo` to `lo + n - 1` of a list, changed. -/
def alterAt {α : Type} (lo n : Nat) (f : α → α) (l : List α) : List α :=
  l.zipIdx.map fun e => if lo ≤ e.2 ∧ e.2 < lo + n then f e.1 else e.1

/-- LLRs `lo` to `lo + n - 1` of a block of the decoder's window become 0 (R436). -/
def FecBlk.blank (b : FecBlk) (lo n : Nat) : FecBlk :=
  { b with llr := b.llr.map (alterAt lo n fun _ => 0)
           signs := b.signs &&& ~~~(BitVec.ofNat 40320 ((2 ^ n - 1) * 2 ^ lo)) }

/-- A poisoned word of one of the buffers of R436 is read: what it held goes on as that rule gives for the memory `m`.
Memories that serve both carriers, and the Press data memories, name the carrier by `ch`. -/
def State.memPart (s : State) (m ch lo n : Nat) : State :=
  let x := carOf (if m < 104 || m = 113 then ch % 2 else m % 2)
  if 56 ≤ m ∧ m < 104 then
    s.modRxc x fun r => { r with inp := alterAt lo n (fun q => ⟨cx0, cx0, min 256 (q.f + 1)⟩) r.inp }
  else match m with
    | 104 | 105 => s.modFec x fun f =>
        { f with win := f.win.zipIdx.map fun b =>
            b.1.blank (lo - 40320 * b.2) (min n (lo + n - 40320 * b.2)) }
    | 106 | 107 => s.modFe x fun f => { f with eqIn := alterAt lo n (fun _ => ⟨cx0, cx0, 4⟩) f.eqIn }
    | 108 | 109 => s.modFec x fun f => { f with llrs := alterAt lo n (fun q => (0, q.2)) f.llrs }
    | 110 | 111 => s.modTx x fun t => { t with coded := alterAt lo n (fun _ => false) t.coded }
    | 112 => s.modChan ch fun h => { h with
        fifo := h.fifo.zipIdx.map fun e =>
          if lo ≤ e.2 ∧ e.2 < lo + n then Config.errorBlock ((h.txC + e.2) % 257) else e.1
        egress := alterAt (lo - h.fifo.length) (lo + n - max lo h.fifo.length)
          (fun e => e.map fun b => (b.1, true)) h.egress }
    | 113 => s.modTk x fun t => { t with psn := t.psn || t.frame.isSome }
    | 115 => if s.boot.mpUp then s.mpStop else s
    | 116 => { s with io := { s.io with
        heldEv := (s.io.heldEv.zipIdx.filter fun e => e.2 < lo || lo + n ≤ e.2).map (·.1) } }
    | _ => s

/-- A consumer reads a poisoned word of memory `m` for `use` (R436). -/
def State.memUse (s : State) (m : Nat) (use : Option MemUse) : State :=
  match use with
  | none => s
  | some (.key c p tx) => if m = 7 then s.memKey c p tx else s
  | some (.step x k) => if 8 ≤ m ∧ m < 56 then s.modMem m fun q => { q with step := some (x, k) } else s
  | some (.part ch lo n) => s.memPart m ch lo n

/-- A poisoned word is read: counted and kept as the last error (R441). -/
def State.memPsn (s : State) (m w : Nat) : State := ((s.bump .MEM_MEM_PSN m).memLast 3 m w).memSeen m

/-- Patch entries of a memory are all in use (R444). -/
def MemSt.worn (q : MemSt) : Bool := decide (8 ≤ q.used)

/-- A row takes a patch entry; the eighth makes the memory worn (R443, R444). -/
def State.memPatch (s : State) (m row : Nat) : State :=
  let s := s.modMem m fun q => { q with used := q.used + 1, copying := row :: q.copying }
  if (s.memo m).worn then s.raise 0x1104 0 m (memData (row * 16)) else s

/-- STARCH_DONE (R109, R438, R439, R522): `rows`, the rows of memories with a word that failed its read-back, are patched;
without a spare the word is poisoned, and a Press engine is retired. The management processor is released and its ROM samples BOOT_SRC, `src`. -/
def execStarchDone (rows : List (Fin 117 × Nat)) (src : Fin 4) (s : State) : Host.Outcome State Fault Refusal :=
  live s fun s =>
  if s.mem.starch then s else
  let s := s.each rows fun s e =>
    let m := e.1.val
    if (s.memo m).worn then
      let s := s.memPoison m (e.2 * 16)
      if 8 ≤ m ∧ m < 104 then s.engineRetire ((m - 8) % 48) none (decide (56 ≤ m)) else s
    else (s.memPatch m e.2).modMem m fun q => { q with copying := q.copying.filter (· != e.2), lastRow := e.2 }
  let ev := rows.map fun (e : Fin 117 × Nat) => (e.1.val, e.2)
  ({ s with mem := { s.mem with starch := true, starchEv := ev } }).modBoot fun b =>
    { b with st := if src = 1 then 1 else 2, srcPins := src.val }

/-- RINSE_READ (R441, R442): rinse reads word `w` of memory `m`; `seen` is what the read shows of a word that the model
holds no error in: 0 clean, 1 correctable, 2 uncorrectable, 3 the syndrome of poison. `key` names what the word's
consumer takes a poisoned word for (R436); `last`: the pass over the memory ends with it. -/
def execRinseRead (m : Fin 117) (w : Nat) (seen : Fin 4) (key : Option MemUse) (last : Bool)
    (s : State) : Host.Outcome State Fault Refusal := live s fun s =>
  let m := m.val
  let out := if s.poisoned m w then 3 else max seen.val (agetD (s.memo m).errs w 0)
  let s := match out with
    | 0 => s
    | 1 =>
      let s := s.modMem m fun q => { q with errs := q.errs.filter fun e => e.1 != w }
      ((s.bump .MEM_MEM_CE m).signal 0x0050 0 m).memLast 0 m w
    | 2 => s.modMem m fun q => { q with reread := if q.reread.contains w then q.reread else w :: q.reread }
    | _ =>
      let s := if s.poisoned m w then s else s.memPoison m w
      ((s.memPsn m w).memReport m w).memUse m key
  if last then s.signal 0x0051 0 m else s

/-- UE_REREAD (R109, R271, R441 to R444): the re-read of a word that a read found uncorrectable; `again`: it is
uncorrectable still. `key` as in RINSE_READ; `use` is the step that the engine of a Press memory serves. -/
def execUeReread (m : Fin 117) (w : Nat) (again : Bool) (key : Option MemUse)
    (use : Option (Carrier × Nat)) (s : State) : Host.Outcome State Fault Refusal := live s fun s =>
  let m := m.val
  if !(s.memo m).reread.contains w then s else
  let hard := again || agetD (s.memo m).errs w 0 == 2
  let s := s.modMem m fun q => { q with reread := q.reread.filter (· != w) }
  if !hard then ((s.bump .MEM_MEM_UE_TR m).memLast 1 m w).occ 0x1102 0 m (memData w)
  else
    let s := (((s.bump .MEM_MEM_UE_LAST m).memLast 2 m w).memPoison m w).memSeen m
    let s := (s.memReport m w).memUse m key
    if (s.memo m).copying.contains (w / 16) then s
    else if !(s.memo m).worn then s.memPatch m (w / 16)
    else if 8 ≤ m ∧ m < 104 then s.engineRetire ((m - 8) % 48) use (decide (56 ≤ m))
    else s

/-- ROW_PATCH_DONE (R443): correctable words are corrected in the copy. -/
def execRowPatchDone (m : Fin 117) (row : Nat) (s : State) : Host.Outcome State Fault Refusal := live s fun s =>
  if (s.memo m).copying.contains row then
    (s.modMem m fun q => { q with
      copying := q.copying.filter (· != row), lastRow := row
      errs := q.errs.filter fun e => !(e.1 / 16 == row && e.2 == 1) }).occ 0x1103 0 m (memData (row * 16))
  else s

/-- GOLDEN_RELOAD_DONE (R86, R442). -/
def execGoldenReloadDone (m : Fin 117) (w : Nat) (s : State) : Host.Outcome State Fault Refusal := live s fun s =>
  if s.memGolden m && s.poisoned m w then (s.memFull m w).occ 0x1106 0 m (memData w) else s

/-- MEM_INJECT (R448, R460): a write of MEM.INJ. `next` is the word that the memory writes next, where that word lies in
a memory whose words the model does not place (log 60). -/
def execMemInject (m : Fin 128) (kind : Fin 4) (arm : Bool) (next : Option Nat) (s : State) :
    Host.Outcome State Fault Refusal := live s fun s =>
  let s := s.setWord ⟨.MEM_INJ, 0⟩ (BitVec.ofNat 32 (m * 256 + kind * 4 + b2n arm))
  match next with
  | some w => s.memInjectAt m w
  | none => s

/-- CE_RATE_SECOND (R459): each second, per memory. -/
def execCeRateSecond (s : State) : Host.Outcome State Fault Refusal := live s fun s =>
  let thr := s.cf F.MEM_CTL_CE_THR 0
  s.each (List.range 117) fun s m =>
    let n := s.cnt .MEM_MEM_CE m
    let q := s.memo m
    let hi := thr != 0 && decide (thr ≤ n - q.ce0)
    let quiet := if hi then 0 else if s.stands 0x1101 0 m then q.quiet + 1 else 0
    if n = q.ce0 ∧ q.quiet = quiet ∧ !hi then s else
    let s := s.modMem m fun q => { q with ce0 := n, quiet := quiet }
    if hi then s.raise 0x1101 0 m else if 10 ≤ quiet then s.clear 0x1101 0 m else s

/-! ### CXL regions (R455 to R457) -/

/-- A region. -/
def State.rgn (s : State) (g : Nat) : Rgn := agetD s.cxl.rgns g rgnReset
/-- Change it. -/
def State.modRgn (s : State) (g : Nat) (f : Rgn → Rgn) : State :=
  { s with cxl := { s.cxl with rgns := aset s.cxl.rgns g (f (s.rgn g)) } }
/-- A port. -/
def State.cxlPort (s : State) (p : Nat) : CxlPort := agetD s.cxl.ports p cxlPortReset
/-- Change it. -/
def State.modPort_ (s : State) (p : Nat) (f : CxlPort → CxlPort) : State :=
  { s with cxl := { s.cxl with ports := aset s.cxl.ports p (f (s.cxlPort p)) } }

/-- A region lies on a port (R455). -/
def State.rgnOn (s : State) (g p : Nat) : Bool :=
  let m := s.cf F.CXL_RGN_CTL_MODE g
  m == 2 || m == p

/-- Records held in an overflow region that is lost are lost with it, and counted (R437, R452, R487; log 61). -/
def State.ovfLost (s : State) (g : Nat) : State :=
  if s.cf F.CXL_CTL_OVF_REGION 0 ≠ g then s else
  s.each (s.io.heldEv.filter fun h => h.place == .region) fun s h =>
    let e := h.ring s.rd
    let q := s.io.evring e
    ({ s with io := { s.io with
        heldEv := s.io.heldEv.filter (· ≠ h)
        evr := aset s.io.evr e { q with
          lost := q.lost + 1, firstLost := if q.lost = 0 then h.ev.dtime else q.firstLost } } }).bump .EVT_EVR_LOST e

/-- A region fails (R457): cause 1 port, 2 poison, 3 media. Its users follow (R301). -/
def State.rgnFail (s : State) (g cause : Nat) : State :=
  let s := (s.modRgn g fun q => { q with st := .failed, cause := cause, lines := 0 }).raise 0x110C 0 g
  (s.ovfLost g).seamCheck

/-- Regions after a commit of scope MEMX (R457); `old` the values before it. -/
def State.rgnCommit (s : State) (old : Rd) : State :=
  let s := s.each (List.range 32) fun s g =>
    let was := F.CXL_RGN_CTL_VALID.on old g
    let moved := old ⟨.CXL_RGN_CTL, g⟩ != s.rd ⟨.CXL_RGN_CTL, g⟩ || old ⟨.CXL_RGN_SIZE, g⟩ != s.rd ⟨.CXL_RGN_SIZE, g⟩
    if s.cf F.CXL_RGN_CTL_VALID g = 0 then
      if !was then s else
      ((s.modRgn g fun q => { q with st := .unassigned, cause := 0, lines := 0 }).clear 0x110C 0 g).ovfLost g
    else if moved then (s.modRgn g fun q => { q with st := .starching, cause := 0, lines := 0 }).ovfLost g
    else s
  s.seamCheck

/-- REGION_READY (R457): every line has been written with zeros. -/
def execRegionReady (g : Fin 32) (s : State) : Host.Outcome State Fault Refusal := live s fun s =>
  if (s.rgn g).st = .starching ∧ [0, 1].all (fun p => !s.rgnOn g p || (s.cxlPort p).up) then
    ((s.modRgn g fun q => { q with st := .ready, lines := 0 }).clear 0x110C 0 g).occ 0x110D 0 g
  else s

/-- REGION_POISON_SECOND (R457). -/
def execRegionPoisonSecond (g : Fin 32) (s : State) : Host.Outcome State Fault Refusal := live s fun s =>
  let n := (s.rgn g).lines
  let s := s.modRgn g fun q => { q with lines := 0 }
  if (s.rgn g).st = .ready ∧ s.cf F.CXL_CTL_POISON_MAX 0 < n then s.rgnFail g 2 else s

/-- CXL_POISON_LINE (R437, R454): a line read from a region came back with poison. `into`: the on-chip memory and first
word that its 8 words are written to, where they are. -/
def execCxlPoisonLine (g : Fin 32) (into : Option (Fin 117 × Nat)) (s : State) : Host.Outcome State Fault Refusal :=
  live s fun s =>
  if (s.rgn g).st ≠ .ready then s else
  let s := (s.bump .CXL_RGN_PSN g).modRgn g fun q => { q with lines := q.lines + 1 }
  let s := if (s.rgn g).psnSec = some s.second then s else
    (s.modRgn g fun q => { q with psnSec := some s.second }).occ 0x110B 0 g
  match into with
  | some (m, w) => s.each (List.range 8) fun s i => s.memPoison m (w + i)
  | none => s

/-! ### CXL ports (R449 to R453) -/

/-- A port trains: `width` lanes at rate code `rate`, a device of `gib` GiB (R450). A device below 16 GiB is not used. -/
def State.portUp (s : State) (p width rate gib : Nat) : State :=
  if s.cf F.CXL_PORT_CTL_EN p = 0 ∨ (s.cxlPort p).up ∨ gib < 16 ∨ width = 0 ∨ rate = 0 then s else
  let s := (s.modPort_ p fun _ => ⟨true, width, rate, min gib 1024⟩).clear 0x1109 0 p
  let s := s.defect (!(s.cxlPort p).full) 0x110A 0 p
  s.each (List.range 32) fun s g =>
    if (s.rgn g).st = .failed ∧ (s.rgn g).cause = 1 ∧ s.rgnOn g p ∧
        [0, 1].all (fun q => !s.rgnOn g q || (s.cxlPort q).up) then
      s.modRgn g fun q => { q with st := .starching, cause := 0 }
    else s

/-- A port goes down (R452): its regions fail (R457). -/
def State.portDown (s : State) (p : Nat) : State :=
  if !(s.cxlPort p).up then s else
  let s := ((s.modPort_ p fun q => { q with up := false, width := 0, rate := 0 }).bump .CXL_PORT_DOWN p).raise 0x1109 0 p
  (s.each (List.range 32) fun s g =>
    if ((s.rgn g).st = .starching ∨ (s.rgn g).st = .ready) ∧ s.rgnOn g p then s.rgnFail g 1 else s).seamCheck

/-- CXL_PORT_UP (R450). -/
def execCxlPortUp (p : Fin 2) (width : Fin 17) (rate : Fin 5) (gib : Nat) (s : State) :
    Host.Outcome State Fault Refusal := live s fun s => s.portUp p width rate gib

/-- CXL_PORT_DOWN (R452): the link fails or the device reports a fatal error. -/
def execCxlPortDown (p : Fin 2) (s : State) : Host.Outcome State Fault Refusal := live s fun s => s.portDown p

/-- CXL_REQUEST_TIMEOUT (R452): a request has no completion within 1 ms. -/
def execCxlRequestTimeout (p : Fin 2) (s : State) : Host.Outcome State Fault Refusal := live s fun s => s.portDown p

/-- CXL_RETRAIN_TIMER (R452): once a second while enabled and down; `got` is what training found, none when it failed. -/
def execCxlRetrainTimer (p : Fin 2) (got : Option (Fin 17 × Fin 5 × Nat)) (s : State) :
    Host.Outcome State Fault Refusal := live s fun s =>
  match got with
  | some (w, r, g) => s.portUp p w r g
  | none => s

/-- Bytes of device addresses that a region takes on a port: first and end (R455). -/
def State.rgnDpa (s : State) (g p : Nat) : Nat × Nat :=
  let a := rgnSpan s.rd g p
  (a.1 * 2097152, (a.1 + a.2) * 2097152)

/-- CXL_LOG_POLL (R452, R453, R457): correctable, then uncorrectable and poison events of the second, whether a fatal
error is reported, and the device address ranges (first, end) that media events cover. -/
def execCxlLogPoll (p : Fin 2) (ce ue : Nat) (fatal : Bool) (media : List (Nat × Nat)) (s : State) :
    Host.Outcome State Fault Refusal := live s fun s =>
  if !(s.cxlPort p).up then s else
  let s := (s.bump .CXL_PORT_CE p ce).bump .CXL_PORT_UE p ue
  let s := s.each (List.range 32) fun s g =>
    let b := s.rgnDpa g p
    if (s.rgn g).st = .ready ∧ media.any (fun q => q.1 < b.2 && b.1 < q.2) then s.rgnFail g 3 else s
  if fatal then s.portDown p else s

/-- Ports after a commit of scope MEMX: EN committed as 0 takes a port down (R450). -/
def State.cxlCommit (s : State) (old : Rd) : State :=
  let s := s.each [0, 1] fun s p =>
    if F.CXL_PORT_CTL_EN.on old p && s.cf F.CXL_PORT_CTL_EN p == 0 then s.portDown p else s
  s.rgnCommit old

end Sys2Proof.Machine
end

