-- ==== Sys2Proof/Machine/Tack.lean ====
section
/-! DEFINITION. The Tack channel: bursts, dying gasps, the frame receiver, reassembly and what frames carry (R332 to
R356). -/

namespace Sys2Proof.Machine

/-! ### Sending -/

/-- Airtime of R333 in ns: SF, repetition count, payload bytes, ramp in µs. -/
def tkAir (sf rep l ramp : Nat) : Nat :=
  rep * (14 + (48 + sf - 1) / sf + (8 * (l + 4) + sf - 1) / sf) * 2 ^ sf / 8 + 2 * ramp * 1000

/-- Header of R336. -/
def tkHeader (typ l seq flags : Nat) : Bytes :=
  let b : Bytes := [BitVec.ofNat 8 typ, BitVec.ofNat 8 l, BitVec.ofNat 8 seq, BitVec.ofNat 8 flags]
  b ++ beBytes 2 (crc16 b)

/-- A frame's header, payload and CRC-32C (R335). -/
def tkBytes (typ seq flags : Nat) (body : Bytes) : Bytes :=
  let h := tkHeader typ body.length seq flags ++ body
  h ++ beBytes 4 (crc32c h)

/-- The HELLO payload of R352. -/
def State.helloBody (s : State) (x : Carrier) : Bytes :=
  let st := b2n ((s.car x).tr.st == .aligned) + 2 * b2n ((s.car x).rxc.st == .locked) + 4 * b2n ((s.car x).tx.st == .on) +
    8 * b2n ((s.ka x).peer != [])
  [1, BitVec.ofNat 8 st] ++ beBytes 4 (s.cfx F.CAR_TX_RATE_KBD x) ++
    [BitVec.ofNat 8 (s.cfx F.CAR_TX_CTL_SC_LOG2 x), BitVec.ofNat 8 (s.cfx F.CAR_TX_CTL_ROLLOFF x),
     BitVec.ofNat 8 (s.cfx F.CAR_TX_CTL_PILOT x), BitVec.ofNat 8 (s.cfx F.CAR_FEC_TX_RATE x)] ++
    beBytes 2 (s.txAct x) ++ beBytes 2 (s.rxAct x) ++ [0, 0] ++ beBytes 7 s.sys.txMfc ++ [0] ++
    padTo 8 s.boot.ident ++ beBytes 8 s.ns

/-- The RDI payload of R354: the SSF causes of R247. -/
def State.rdiBody (s : State) (x : Carrier) : Bytes :=
  let v := bitsNat [(agetD s.sti.dies x.rxDie dieReset).fault, (s.car x).rxc.st != .locked, (s.car x).fec.st != .locked,
    (s.car x).tr.st != .aligned, s.stands 0x0807 x.ev 0,
    s.stands 0x0805 x.ev 0 && s.cfx F.CAR_TR_RX_CTL_STIM_ACT x == 1]
  beBytes 2 v ++ [0, 0] ++ beBytes 8 s.ns

/-- A burst would be live (R332). -/
def State.tkLive (s : State) (x : Carrier) : Bool :=
  match (s.car x).tx.st with
  | .rampUp | .on | .rampDown => true
  | _ => false

/-- A frame of this type may start now (R332, R339, R355). -/
def State.tkCan (s : State) (x : Carrier) (typ : Nat) : Bool :=
  s.cfx F.CAR_TK_TX_CTL_EN x == 1 && !(agetD s.sti.dies x.txDie dieReset).fault &&
  (s.tkLive x || (((s.car x).tx.st == .off || (s.car x).tx.st == .squelched) &&
    (typ == 3 || s.cfx F.CAR_TX_TACK_ALONE x == 1)))

/-- Start the burst of a frame that has left the queue (R332 to R336, R355). A HELLO's payload is formed here, and so is
the device time of a dying gasp. -/
def State.tkStart (s : State) (x : Carrier) (f : TkFrame) : State :=
  let alone := !s.tkLive x
  let dg := f.typ == 3
  let sf := if dg then 12 else if alone then s.cfx F.CAR_TK_TX_CTL_ALONE_SF x else s.cfx F.CAR_TK_TX_CTL_LIVE_SF x
  let rep := if dg then 0 else if alone then s.cfx F.CAR_TK_TX_CTL_ALONE_REP x else s.cfx F.CAR_TK_TX_CTL_LIVE_REP x
  let ramp := if dg then 1 else max 1 (min 64 (s.cfx F.CAR_TK_TX_CTL_RAMP_US x))
  let body := if f.typ = 1 then s.helloBody x else if dg then f.body.take 8 ++ beBytes 8 s.ns else f.body
  let seq := (s.car x).tk.seq
  let air := tkAir sf (2 ^ rep) body.length ramp
  let bytes := tkBytes f.typ seq (b2n alone + 2 * x.num) body
  let s := s.modTk x fun t => Tack.pump { t with
    seq := (seq + 1) % 256
    burst := some { frame := f, alone := alone, sf := sf, rep := rep, ramp := ramp, start := s.sys.dtime,
                    stop := s.sys.dtime + air * 65536, cut := false, bytes := bytes } } 15
  let s := (s.emit (.burst x alone sf rep bytes)).signal 0x0060 x.ev 0
  if dg then s.occ 0x0C08 x.ev 0 else s

/-- The first queued frame of the lowest class that may start (R332, R339). -/
def State.tkNext (s : State) (x : Carrier) : Option TkFrame :=
  (s.car x).tk.queue.foldl (fun a f => if s.tkCan x f.typ then (match a with
    | none => some f
    | some g => if tkClass f.typ < tkClass g.typ then some f else some g) else a) none

/-- Queue a frame of Plaile's own; without room it waits, one of a type at most (R339). -/
def State.tkQueue (s : State) (x : Carrier) (typ : Nat) (body : Bytes) : State :=
  s.modTk x fun t =>
    if t.queue.length < 15 then { t with queue := t.queue ++ [⟨typ, body, false⟩] }
    else if t.wait.any (fun e => e.1 == typ) then t else { t with wait := t.wait ++ [(typ, body)] }

/-- TACK_BURST_START (R332, R333, R339): GAP_US has passed since the last burst; a queued frame goes out. -/
def execTackBurstStart (x : Carrier) (s : State) : Host.Outcome State Fault Refusal := live s fun s =>
  if (s.car x).tk.burst.isSome ∨ (s.car x).tk.gasp.isSome ∨ (s.car x).tk.lock then s else
  match s.tkNext x with
  | none => s
  | some f => (s.modTk x fun t => { t with queue := t.queue.erase f }).tkStart x f

/-- Payload of a dying gasp with the time still zero (R355). -/
def gaspBody (reason : Nat) : Bytes := BitVec.ofNat 8 reason :: List.replicate 15 0

/-- Send a dying gasp (R355), after the down-ramp of a burst in progress. -/
def State.tkGasp (s : State) (x : Carrier) (reason : Nat) : State :=
  if s.tkCan x 3 = false ∨ (s.car x).tk.lock then s
  else if (s.car x).tk.burst.isSome then (s.tkStop x).modTk x fun t => { t with gasp := some reason }
  else s.tkStart x ⟨3, gaspBody reason, false⟩

/-- TACK_BURST_END (R333, R334, R355, R198): the burst's last ramp ends; waiting values take effect, a data ramp that waited
starts, and a dying gasp that waited goes out. -/
def execTackBurstEnd (x : Carrier) (s : State) : Host.Outcome State Fault Refusal := live s fun s =>
  match (s.car x).tk.burst with
  | none => s
  | some b =>
    let s := if b.cut then s else s.bumpx64 .CAR_TK_TX_FRM_LO x
    let s := (s.tkEnd x).txSettle x
    match (s.car x).tk.gasp with
    | none => s
    | some n =>
      let s := s.modTk x fun t => { t with gasp := none }
      if s.tkCan x 3 then s.tkStart x ⟨3, gaspBody n, false⟩ else s

/-- HELLO_TIMER (R351). -/
def execHelloTimer (x : Carrier) (s : State) : Host.Outcome State Fault Refusal := live s fun s =>
  if s.cfx F.CAR_TK_TX_CTL_HELLO_EN x = 1 ∧ ((s.car x).tr.st ≠ .aligned ∨ s.stands 0x0804 x.ev 0) then s.tkQueue x 1 []
  else s

/-- TACK_HELLO_CMD (R351). -/
def execTackHelloCmd (x : Carrier) (s : State) : Host.Outcome State Fault Refusal := live s fun s => s.tkQueue x 1 []

/-- RDI_FRAME_TIMER (R354). -/
def execRdiFrameTimer (x : Carrier) (s : State) : Host.Outcome State Fault Refusal := live s fun s =>
  if s.cfx F.CAR_TK_TX_CTL_RDI_EN x = 1 ∧ (s.car x).tr.rdiTx then s.tkQueue x 2 (s.rdiBody x) else s

/-- DYING_GASP_CMD (R355): reason 2. -/
def execDyingGaspCmd (x : Carrier) (s : State) : Host.Outcome State Fault Refusal := live s fun s => s.tkGasp x 2

/-- PFAIL_N low takes effect on both carriers (R355). -/
def State.pfailGasp (s : State) : State :=
  let s := (s.tkGasp .A 1).tkGasp .B 1
  (s.modTk .A fun t => { t with lock := true }).modTk .B fun t => { t with lock := true }

/-- PFAIL (R355, R568, R569): PFAIL_N has been low for the filter's 1 µs. During a warm reset the gasp waits for the
transmit chains. -/
def execPfail (s : State) : Host.Outcome State Fault Refusal :=
  let s := s.modSys fun y => { y with pfail := true }
  live s fun s =>
  if s.sys.warm then (s.modTk .A fun t => { t with gaspWait := true }).modTk .B fun t => { t with gaspWait := true }
  else s.pfailGasp

/-- PFAIL_RELEASE (R355, R569): Tack may go out again. -/
def execPfailRelease (s : State) : Host.Outcome State Fault Refusal :=
  let s := s.modSys fun y => { y with pfail := false }
  live s fun s =>
  (s.modTk .A fun t => { t with lock := false, gaspWait := false }).modTk .B fun t => { t with
    lock := false, gaspWait := false }

/-- FORCED_RELEASE (R194, R544, R569): 100 µs have passed without a forced cause. A dying gasp that waited for the end of
a warm reset goes out. -/
def execForcedRelease (x : Carrier) (s : State) : Host.Outcome State Fault Refusal := live s fun s =>
  if (s.car x).tx.st = .forced ∧ s.txForced x = false ∧ s.sys.warm = false then
    let s := s.txLeave x
    if (s.car x).tk.gaspWait then (s.tkGasp x 1).modTk x fun t => { t with gaspWait := false, lock := true } else s
  else s

/-! ### Receiving -/

/-- The third search runs (R341): neither other search is SF 12 ×1. -/
def State.tkThird (s : State) (x : Carrier) : Bool :=
  !(s.cfx F.CAR_TK_RX_CTL_LIVE_SF x == 12 && s.cfx F.CAR_TK_RX_CTL_LIVE_REP x == 0) &&
  !(s.cfx F.CAR_TK_RX_CTL_ALONE_SF x == 12 && s.cfx F.CAR_TK_RX_CTL_ALONE_REP x == 0)

/-- A search runs. -/
def State.tkRuns (s : State) (x : Carrier) (q : TkSearch) : Bool :=
  s.cfx F.CAR_TK_RX_CTL_EN x == 1 && (q != .gasp || s.tkThird x)

/-- Spreading factor of a search (R341). -/
def State.tkSf (s : State) (x : Carrier) (q : TkSearch) : Nat :=
  match q with
  | .live => s.cfx F.CAR_TK_RX_CTL_LIVE_SF x
  | .alone => s.cfx F.CAR_TK_RX_CTL_ALONE_SF x
  | .gasp => 12

/-- A detector in SEARCH. -/
def preReset : TkPre := ⟨0, 0, 0⟩

/-- Bins `a` and `b` of `n` are the same within ±1 (R342). -/
def sameBin (n a b : Nat) : Bool := (a + n - b % n) % n ≤ 1 || (b + n - a % n) % n ≤ 1

/-- A detection waits for its comparison: the sync symbols and both down-chirps matched (R342). -/
def TkPre.done (d : TkPre) : Bool := d.cnt == 6 && d.syms == 4

/-- One symbol at a detector (R342): whether the up-chirp transform has a peak and at which bin, whether the down-chirp
transform has one. Answers the detector and whether a preamble proved false. -/
def TkPre.step (d : TkPre) (n sync : Nat) (up : Bool) (bin : Nat) (down : Bool) : TkPre × Bool :=
  if d.done then (d, false)
  else if d.cnt = 0 then (if up then ⟨bin, 1, 0⟩ else preReset, false)
  else if d.cnt < 6 then (if up && sameBin n bin d.bin then ⟨bin, d.cnt + 1, 0⟩ else preReset, false)
  else
    let off (v : Nat) := (d.bin + v * n / 16) % n
    let good := match d.syms with
      | 0 => up && sameBin n bin (off (sync / 16))
      | 1 => up && sameBin n bin (off (sync % 16))
      | _ => down
    if d.syms = 0 && up && sameBin n bin d.bin then ({ d with bin := bin }, false)
    else if good then ({ d with syms := d.syms + 1 }, false)
    else (preReset, true)

/-- The frame receiver turns to a detection, whose symbols so far are `got`, or to SEARCH: no secondary detector of the frame
before goes on (R342, R344, R345). -/
def Tack.turn (t : Tack) (d : Option TkDet) (got : List Nat) : Tack :=
  { t with frame := d, inPay := false, held := none, got := got, kept := [], hdr := [], cancel := false, psn := false
           dets := t.dets.filter fun e => !e.1.2 }

/-- A held detection takes over as the frame, and its header is decoded from the kept symbols (R344); without one the
receiver searches. -/
def Tack.handOver (t : Tack) : Tack := t.turn t.held (if t.held.isSome then t.kept else [])

/-- A detector of carrier `x`. -/
def Tack.pre (t : Tack) (q : TkSearch) (sec : Bool) : TkPre := agetD t.dets (q, sec) preReset

/-- Change it; one in SEARCH is not listed. -/
def Tack.setPre (t : Tack) (q : TkSearch) (sec : Bool) (d : TkPre) : Tack :=
  { t with dets := if d = preReset then adel t.dets (q, sec) else aset t.dets (q, sec) d
           calm := t.calm && d == preReset }

/-- The held detection is this search's. -/
def Tack.heldOf (t : Tack) (q : TkSearch) : Bool :=
  match t.held with
  | some d => d.which == q
  | none => false

/-- Power in each bin of a combined symbol: its copies' spectra of both polarisations added (R329, R330). -/
def tkPower (n : Nat) (l : List TkSpec) : Tab Nat Nat :=
  (l.flatMap TkSpec.bins).foldl (fun t e => aset t (e.1 % n) (agetD t (e.1 % n) 0 + e.2.1 + e.2.2)) []

/-- The strongest bin that is not excluded, the lowest of equal ones, with its power (R342, R344). -/
def tkPeak (n : Nat) (own : Option Nat) (t : Tab Nat Nat) : Nat × Nat :=
  (t.filter fun e => !own.any (sameBin n e.1)).foldl (fun a e =>
    if a.2 < e.2 ∨ (a.2 = e.2 ∧ e.1 < a.1) then e else a) (0, 0)

/-- The peak's power over the mean power of the other bins, in pinches; none without a peak (R342). -/
def tkExcess (n : Nat) (t : Tab Nat Nat) (p : Nat) : Option Int :=
  let rest := sumN (t.map (·.2)) - p
  if p = 0 then none
  else some (if rest = 0 then 32767 else max (-32767) (min 32767 (fround (flog10 (frat (p * (n - 1) : Nat) rest)) 640)))

/-- The integer whose Gray code is `v`, below 2 to the `fuel` (R330). -/
def ungray (v fuel : Nat) : Nat :=
  match fuel with
  | 0 => 0
  | f + 1 => v ^^^ ungray (v / 2) f

/-- Bytes that symbols of a spreading factor carry: SF bits each, the first one most significant (R330, R335). -/
def symBytes (sf n : Nat) (l : List Nat) : Bytes :=
  packBits n ((l.flatMap fun w => (List.range sf).map fun i => bit w (sf - 1 - i)).take (8 * n))

/-- TACK_SYMBOL_RECEIVED (R329, R330, R342, R344, R347, R348): a combined symbol of a search at its primary or, from SYNC to
the frame's end, secondary detector: the spectra of its copies after the up-chirp and after the down-chirp transform, the
bin of the frame's expected symbol where the secondary's timing lies within 1 chip of the frame's, and whether subtracting
the regenerated waveform lowers the power. A symbol of the frame itself, or of the held detection's, is decided. -/
def execTackSymbolReceived (x : Carrier) (q : TkSearch) (sec : Bool) (up down : List TkSpec) (own : Option Nat)
    (lower : Bool) (s : State) : Host.Outcome State Fault Refusal := live s fun s =>
  if s.tkRuns x q = false then s else
  let t := (s.car x).tk
  let sf := s.tkSf x q
  let n := 2 ^ sf
  let thr := s.cfx F.CAR_TK_RX_THR_DET_THR x
  let found (t : Tab Nat Nat) (p : Nat) : Bool := isMeas thr && (tkExcess n t p).any fun v => decide (sgn 16 thr ≤ v)
  let u := tkPower n up
  let v := tkPower n down
  let p := tkPeak n (if sec then own else none) u
  let word (d : TkDet) : Nat := ungray ((p.1 + n - d.bin % n) % n) sf
  let cancels := s.cfx F.CAR_TK_RX_CTL_CANCEL x == 1 && q == .live && lower
  match sec, t.frame.filter (fun d => d.which == q), t.held.filter (fun d => d.which == q) with
  | false, some d, _ => s.modTk x fun t => { t with got := t.got ++ [word d], cancel := cancels }
  | true, _, some d => s.modTk x fun t => { t with kept := t.kept ++ [word d] }
  | true, none, none =>
    if (t.pre q false).cnt < 6 then s
    else s.modTk x fun t => t.setPre q true
      ((t.pre q true).step n (s.cfx F.CAR_TK_RX_CTL_SYNC x) (found u p.2) p.1 (found v (tkPeak n none v).2)).1
  | true, some _, none => s.modTk x fun t => t.setPre q true
      ((t.pre q true).step n (s.cfx F.CAR_TK_RX_CTL_SYNC x) (found u p.2) p.1 (found v (tkPeak n none v).2)).1
  | false, none, _ =>
    let r := (t.pre q false).step n (s.cfx F.CAR_TK_RX_CTL_SYNC x) (found u p.2) p.1 (found v (tkPeak n none v).2)
    let s := s.modTk x fun t => { t.setPre q false r.1 with
      cancel := if t.frame.isSome then t.cancel else cancels && r.1.cnt == 6 }
    if r.2 ∧ t.frame = none then
      (s.bumpx .CAR_TK_HDR_BAD x).modTk x fun t =>
        if t.heldOf q then t.handOver else t.setPre q true preReset
    else s

/-- The newcomer is stronger than the frame by CAPTURE (R345). -/
def State.tkCaptures (s : State) (x : Carrier) (new old : TkDet) : Bool :=
  let c := s.cfx F.CAR_TK_RX_THR_CAPTURE x
  isMeas c && decide (sgn 16 old.rssi + sgn 16 c ≤ sgn 16 new.rssi)

/-- A newcomer faces the frame (R345): it becomes the frame, or it is ignored. -/
def State.tkNewcomer (s : State) (x : Carrier) (new old : TkDet) : State :=
  if s.tkCaptures x new old then
    ((s.bumpx .CAR_TK_CAPTURED x).occ 0x0C05 x.ev 0).modTk x fun t => t.turn (some new) []
  else s

/-- The stronger of two detections, the live search's when they are equal (R346). -/
def detBest (a b : TkDet × Bool) : TkDet × Bool :=
  let p := sgn 16 a.1.rssi
  let q := sgn 16 b.1.rssi
  if p < q ∨ (p = q ∧ a.1.which ≠ .live ∧ b.1.which = .live) then b else a

/-- TACK_DETECTION (R342, R344 to R346, R350): the detections that complete in this cycle, each with its search, whether
a secondary made it, the Tack power and the in-band power without it, in pinches. -/
def execTackDetection (x : Carrier) (l : List (TkSearch × Bool × Int × Int)) (s : State) :
    Host.Outcome State Fault Refusal := live s fun s =>
  let t := (s.car x).tk
  let ok := l.filter fun d => s.tkRuns x d.1 && (t.pre d.1 d.2.1).done
  match ok.map (fun d => ((⟨d.1, (t.pre d.1 d.2.1).bin, pinchCode d.2.2.1, pinchCode (d.2.2.1 - d.2.2.2)⟩ : TkDet),
    d.2.1)) with
  | [] => s
  | d :: r =>
    let b := r.foldl detBest d
    let new := b.1
    let s := s.modTk x fun t => ok.foldl (fun t e => t.setPre e.1 e.2.1 preReset) { t with
      calm := false, rssi := new.rssi, sinr := new.sinr }
    match t.frame with
    | some f =>
      if b.2 && f.which == new.which && !t.inPay then s.modTk x fun t => { t with held := some new, kept := [] }
      else s.tkNewcomer x new f
    | none =>
      if b.2 then s.modTk x fun t => { t with held := some new, kept := [] }
      else s.modTk x fun t => { t with frame := some new, inPay := false, got := [], hdr := [] }

/-- A header is valid (R336, R337, R341). -/
def tkHeaderOk (q : TkSearch) (h : Bytes) : Bool :=
  let typ := byteAt h 0
  let l := byteAt h 1
  h.length == 6 && crc16 (h.take 4) == beAt h 4 2 && (q != .gasp || typ == 3) &&
  (match typ with
    | 1 => l == 40
    | 2 => l == 12
    | 3 => l == 16
    | 4 | 5 | 6 => decide (5 ≤ l)
    | _ => false)

/-- The next `n` bytes of the frame: told, or decoded from the symbols received once they are all there, with the number of
symbols that they take (R330, R335). -/
def State.tkTaken (s : State) (x : Carrier) (f : TkDet) (n : Nat) (told : Option Bytes) : Option (Bytes × Nat) :=
  let sf := s.tkSf x f.which
  let k := (8 * n + sf - 1) / sf
  match told with
  | some b => some (b, 0)
  | none => if (s.car x).tk.got.length < k then none else some (symBytes sf n ((s.car x).tk.got.take k), k)

/-- TACK_HEADER (R342, R344): the header symbols of the frame are received: its six bytes are told, or decoded from the
symbols, after a hand-over from those kept. -/
def execTackHeader (x : Carrier) (h : Option Bytes) (s : State) : Host.Outcome State Fault Refusal := live s fun s =>
  let t := (s.car x).tk
  match t.frame with
  | none => s
  | some f =>
    if t.inPay then s else
    match s.tkTaken x f 6 h with
    | none => s
    | some (h, k) =>
    if tkHeaderOk f.which h then
      let s := s.modTk x fun t => { t with inPay := true, hdr := h, held := none, kept := [], got := t.got.drop k }
      match t.held with
      | some d => s.tkNewcomer x d f
      | none => s
    else (s.bumpx .CAR_TK_HDR_BAD x).modTk x Tack.handOver

/-- TACK_FRAME_END (R342, R335, R436): the last payload symbol is received: payload and CRC-32C, told or decoded from the symbols;
a good frame goes to its user. -/
def execTackFrameEnd (x : Carrier) (b : Option Bytes) (s : State) : Host.Outcome State Fault Refusal := live s fun s =>
  let t := (s.car x).tk
  let n := byteAt t.hdr 1
  match t.frame with
  | none => s
  | some f =>
    if t.inPay = false then s else
    match s.tkTaken x f (n + 4) b with
    | none => s
    | some (b, _) =>
    let s := s.modTk x fun t => t.turn none []
    if !t.psn ∧ b.length = n + 4 ∧ crc32c (t.hdr ++ b.take n) = beAt b n 4 then
      (s.bumpx64 .CAR_TK_RX_GOOD_LO x).modTk x fun u => { u with users := u.users ++ [(byteAt t.hdr 0, b.take n)] }
    else s.bumpx .CAR_TK_CRC_BAD x

/-- Take the oldest good frame if it is of a type. -/
def State.tkTake (s : State) (x : Carrier) (typ : Nat → Bool) : Option (State × Nat × Bytes) :=
  match (s.car x).tk.users with
  | (n, b) :: r => if typ n then some (s.modTk x fun t => { t with users := r }, n, b) else none
  | [] => none

/-- The settings of a HELLO differ from this end's (R353). -/
def State.helloDiffers (s : State) (x : Carrier) (b : Bytes) : Bool :=
  beAt b 2 4 != s.cfx F.CAR_RXC_RATE_KBD x || byteAt b 6 != s.cfx F.CAR_RXC_CTL_SC_LOG2 x ||
  byteAt b 7 != s.cfx F.CAR_RXC_CTL_ROLLOFF x || byteAt b 8 != s.cfx F.CAR_RXC_CTL_PILOT x ||
  byteAt b 9 != s.cfx F.CAR_FEC_CTL_RATE x || beAt b 10 2 != s.rxAct x

/-- HELLO_RECEIVED (R353). -/
def execHelloReceived (x : Carrier) (s : State) : Host.Outcome State Fault Refusal := live s fun s =>
  match s.tkTake x (· == 1) with
  | none => s
  | some (s, _, b) =>
    let t := (s.car x).tk
    let late : Bool := match t.helloAt with
      | none => true
      | some a => decide (a + 1000000000 ≤ s.ns)
    let s := if late ∨ b.take 16 ≠ t.hello.take 16 ∨ sub b 24 8 ≠ sub t.hello 24 8 then s.occ 0x0C03 x.ev 0 else s
    let s := s.modTk x fun t => { t with hello := b, helloAt := some s.ns }
    s.defect (s.helloDiffers x b) 0x0C04 x.ev 0

/-- TACK_RDI_RECEIVED (R354). -/
def execTackRdiReceived (x : Carrier) (s : State) : Host.Outcome State Fault Refusal := live s fun s =>
  match s.tkTake x (· == 2) with
  | none => s
  | some (s, _, _) => s.raise 0x0C01 x.ev 0

/-- TACK_RDI_CLEAR (R354): RDI_CLR_MS without an RDI frame. -/
def execTackRdiClear (x : Carrier) (s : State) : Host.Outcome State Fault Refusal := live s fun s =>
  s.clear 0x0C01 x.ev 0

/-- DYING_GASP_RECEIVED (R356). -/
def execDyingGaspReceived (x : Carrier) (s : State) : Host.Outcome State Fault Refusal := live s fun s =>
  match s.tkTake x (· == 3) with
  | none => s
  | some (s, _, _) => s.occ 0x0C02 x.ev 0

/-- A discarded message of Tack (R338). -/
def State.reasmBad (s : State) (x : Carrier) : State := (s.bumpx .CAR_TK_REASM_BAD x).occ 0x0C07 x.ev 0

/-- A message type belongs to a frame type (R337). -/
def tkBelongs (typ m : Nat) : Bool :=
  match typ with
  | 4 => decide (0x31 ≤ m ∧ m ≤ 0x35)
  | 5 => decide (0x41 ≤ m ∧ m ≤ 0x4F)
  | _ => decide (0x80 ≤ m)

/-- All segments of a message have come: it is checked and delivered (R338, R253). -/
def State.reasmDone (s : State) (x : Carrier) (typ : Nat) (q : Reasm) : State :=
  let m := (List.range q.nseg).flatMap fun i => agetD q.segs i []
  let s := s.modTk x fun t => { t with reasm := adel t.reasm typ }
  let c := msgCheck m
  if c.1 = 0 ∧ tkBelongs typ c.2.1 = false then s.reasmBad x else (s.msgIn x true m).1

/-- TACK_SEGMENT_RECEIVED (R338, R346). -/
def execTackSegmentReceived (x : Carrier) (s : State) : Host.Outcome State Fault Refusal := live s fun s =>
  match s.tkTake x (fun n => decide (4 ≤ n ∧ n ≤ 6)) with
  | none => s
  | some (s, typ, b) =>
    let id := byteAt b 0
    let seg := byteAt b 1
    let n := byteAt b 2
    if n = 0 ∨ 33 < n ∨ n ≤ seg then s else
    let old := aget (s.car x).tk.reasm typ
    let s := match old with
      | some q => if q.id = id then s else s.reasmBad x
      | none => s
    let q : Reasm := match old with
      | some q => if q.id = id then q else ⟨id, n, []⟩
      | none => ⟨id, n, []⟩
    if q.nseg ≠ n then s else
    let q := { q with segs := if (aget q.segs seg).isSome then q.segs else aset q.segs seg (b.drop 4) }
    let s := s.modTk x fun t => { t with reasm := aset t.reasm typ q }
    if q.segs.length = n then s.reasmDone x typ q else s

/-- REASSEMBLY_TIMEOUT (R338): 1 s without a new segment for a message of this frame type. -/
def execReassemblyTimeout (x : Carrier) (typ : Nat) (s : State) : Host.Outcome State Fault Refusal := live s fun s =>
  match aget (s.car x).tk.reasm typ with
  | none => s
  | some _ => (s.modTk x fun t => { t with reasm := adel t.reasm typ }).reasmBad x

/-- TACK_FLOOR_INTERVAL (R350): the mean in-band power of the 10 ms, if the receiver stayed in SEARCH throughout. -/
def execTackFloorInterval (x : Carrier) (power : Int) (s : State) : Host.Outcome State Fault Refusal := live s fun s =>
  let on := s.cfx F.CAR_TK_RX_CTL_EN x == 1
  s.modTk x fun t => { t with
    floor := if t.calm && on then pinchCode power else noMeas
    calm := on && t.frame.isNone && t.dets.isEmpty }

/-- A commit to TK_RX_CTL or TK_RX_THR takes effect (R341): the frame in reception is abandoned, searches restart. -/
def State.tkRestart (s : State) (x : Carrier) : State :=
  s.modTk x fun t => { t.turn none [] with dets := [] }

/-- TK_STAT.RX_STATE (R357). -/
def State.tkRxState (s : State) (x : Carrier) : Nat :=
  let t := (s.car x).tk
  if s.cfx F.CAR_TK_RX_CTL_EN x = 0 then 0
  else if t.frame.isSome then (if t.inPay then 5 else 4)
  else if t.dets.any (fun e => !e.1.2 && e.2.cnt == 6) then 3
  else if t.dets.any (fun e => !e.1.2 && e.2.cnt != 0) then 2 else 1

end Sys2Proof.Machine
end

