-- ==== Sys2Proof/Machine/Timing.lean ====
section
/-! DEFINITION. The timing unit: reference slots, the two DPLLs, holdover, outputs and the root (R378 to R401). -/

namespace Sys2Proof.Machine

/-- A reference slot's state. -/
def State.slot (s : State) (n : Nat) : Slot := agetD s.tim.slots n slotReset
/-- Change it. -/
def State.modSlot (s : State) (n : Nat) (f : Slot → Slot) : State :=
  { s with tim := { s.tim with slots := aset s.tim.slots n (f (s.slot n)) } }
/-- A DPLL's state. -/
def State.dpll (s : State) (d : Nat) : Dpll := agetD s.tim.dplls d dpllReset
/-- Change it. -/
def State.modDpll (s : State) (d : Nat) (f : Dpll → Dpll) : State :=
  { s with tim := { s.tim with dplls := aset s.tim.dplls d (f (s.dpll d)) } }
/-- An output's state. -/
def State.outSt (s : State) (o : Nat) : OutSt := agetD s.tim.outs o outReset
/-- Change it. -/
def State.modOut (s : State) (o : Nat) (f : OutSt → OutSt) : State :=
  { s with tim := { s.tim with outs := aset s.tim.outs o (f (s.outSt o)) } }

/-- A slot is a pulse input (R380). -/
def State.pulseSlot (s : State) (n : Nat) : Bool :=
  let v := s.cf F.TIM_SLOT_CFG_SOURCE n
  decide (1 ≤ v ∧ v ≤ 4) && s.cf F.TIM_SLOT_CFG_TYPE n == 1

/-- A measurement in 1/16 ppb is within a limit in units of 10 ppb (R383, R384, R9). -/
def inLimit (f : Int) (lim : Nat) : Bool := decide (f.natAbs ≤ lim * 160)

/-! ### Selection and DPLL states -/

/-- A slot's signal is there, as far as the block itself tells (R123, R311, R379, R381): a client's receive clock while its
port has no loss, a line's recovered clock while its core is LOCKED. -/
def State.slotSignal (s : State) (n : Nat) : Bool :=
  let v := s.cf F.TIM_SLOT_CFG_SOURCE n
  let p := agetD s.cli.ports (v - 16) portReset
  if 16 ≤ v ∧ v ≤ 31 then s.cf F.CLI_PORT_CTL_MODE (v - 16) != 0 && !p.los && !p.lol
  else if v = 32 then s.carA.rxc.st == .locked
  else if v = 33 then s.carB.rxc.st == .locked
  else true

/-- Slot `n` is usable by DPLL `d` (R385); a line recovered clock that is not valid is a failed reference (R123). -/
def State.usable (s : State) (d n : Nat) : Bool :=
  let r := s.cf F.TIM_SLOT_CFG_RANK n
  (s.slot n).st == .valid && s.slotSignal n && bit (s.cf F.TIM_DPLL_CTL_MASK d) n && decide (1 ≤ r ∧ r ≤ 8)

/-- The usable slots of the best rank (R385). -/
def State.bestSlots (s : State) (d : Nat) : List Nat :=
  let u := (List.range 8).filter (s.usable d)
  let best := u.foldl (fun a n => min a (s.cf F.TIM_SLOT_CFG_RANK n)) 9
  u.filter fun n => s.cf F.TIM_SLOT_CFG_RANK n == best

/-- The slot a DPLL takes in MODE 0 or 1 (R385, R387). -/
def State.pickSlot (s : State) (d : Nat) : Option Nat :=
  match s.cf F.TIM_DPLL_CTL_MODE d with
  | 0 =>
    let b := s.bestSlots d
    match (s.dpll d).sel with
    | some n => if b.contains n then some n else b.head?
    | none => b.head?
  | 1 =>
    let n := s.cf F.TIM_DPLL_CTL_FORCE_SLOT d
    if (s.slot n).st = .valid ∧ s.slotSignal n ∧ bit (s.cf F.TIM_DPLL_CTL_MASK d) n then some n else none
  | _ => none

/-- HO_READY (R391). -/
def State.hoReady (s : State) (d : Nat) : Bool :=
  decide (s.cf F.TIM_DPLL_HO_WINDOW_S d + s.cf F.TIM_DPLL_HO_GUARD_S d ≤ (s.dpll d).run)

/-- History entry `e` as it is read: that of a poisoned word shows nothing (R436). -/
def State.histEnt (s : State) (d e : Nat) : HistEnt :=
  if s.poisoned 114 ((d * 4096 + e) / 2) then histReset else agetD (s.dpll d).hist e histReset

/-- The entry `k` seconds older than the newest. -/
def State.histBack (s : State) (d k : Nat) : HistEnt := s.histEnt d (((s.dpll d).next + 2 * 4096 - 1 - k) % 4096)

/-- The holdover value of R392. -/
def State.hoValue (s : State) (d : Nat) : Option Int :=
  if s.cf F.TIM_DPLL_HO_HO_SRC d = 1 then some (F.TIM_DPLL_HO_VAL_OFFSET.int s.rd d) else
  let w := (List.range (s.cf F.TIM_DPLL_HO_WINDOW_S d)).map fun i => s.histBack d (s.cf F.TIM_DPLL_HO_GUARD_S d + i)
  match w.filter fun e => e.locked && !e.switch with
  | [] => (((List.range 4096).map (s.histBack d)).find? (·.locked)).map (·.freq)
  | l => some (roundDiv ((l.map (·.freq)).foldr (· + ·) 0) l.length)

/-- Enter FREERUN (R388). -/
def State.toFreerun (s : State) (d : Nat) : State :=
  if (s.dpll d).st = .freerun then s else
  let f : Int := if s.cf F.TIM_DPLL_HO_HO_SRC d = 1 then F.TIM_DPLL_HO_VAL_OFFSET.int s.rd d else 0
  let s := s.modDpll d fun p => { p with st := .freerun, sel := none, freq := f, lockSec := false, held := false }
  (s.clear 0x0E06 0 d).raise 0x0E07 0 d

/-- Enter HOLDOVER with a value, if there is one (R388, R392); a DPLL in HOLDOVER already only takes the value (R387). -/
def State.toHoldover (s : State) (d : Nat) (v : Option Int) : State :=
  let was := (s.dpll d).st
  let s := s.modDpll d fun p => { p with st := .holdover, sel := none, freq := v.getD p.freq
                                         hoUsed := if v.isSome then v else p.hoUsed, lockSec := false, held := false }
  if was = .holdover then s else ((s.bump .TIM_DPLL_HO_CNT d).clear 0x0E07 0 d).raise 0x0E06 0 d

/-- Half the period of a slot's signal in ps (R389): within it an absorbed offset lies. -/
def State.halfPeriod (s : State) (n : Nat) : Int :=
  let v := s.cf F.TIM_SLOT_CFG_SOURCE n
  if 1 ≤ v ∧ v ≤ 4 then (500000000000 / max 1 (s.cf F.TIM_SLOT_NOM_HZ n) : Nat) else 80000

/-- Absorb a measured phase offset (R389, R390). -/
def State.absorb (s : State) (d n : Nat) (off : Int) : State :=
  let h := s.halfPeriod n
  let v := clampI (-h) h off
  let s := s.modDpll d fun p => { p with phase := v, swSec := true }
  if d = 1 then (List.range 4).foldl (fun s o => if s.cf F.TIM_OUT_CTL_BLEED o = 1 then
    s.modOut o fun q => { q with phase := q.phase + v } else s) s
  else s

/-- Follow the selection of R385 and R387 as R388 and R389 give; `off` is the phase offset measured at a change. -/
def State.dpllFollow (s : State) (d : Nat) (off : Int) : State :=
  if 2 ≤ s.cf F.TIM_DPLL_CTL_MODE d then s else
  let p := s.dpll d
  match s.pickSlot d, p.st with
  | some n, .freerun | some n, .holdover =>
    let s := (s.modDpll d fun p => { p with st := .acquire, sel := some n, held := false }).absorb d n off
    (s.clear 0x0E06 0 d).clear 0x0E07 0 d
  | some n, _ =>
    if p.sel = some n then s else
    let s := (s.modDpll d fun p => { p with sel := some n }).absorb d n off
    match p.sel with
    | some o => (s.bump .TIM_DPLL_SW d).occ 0x0E05 0 d [BitVec.ofNat 8 o, BitVec.ofNat 8 n]
    | none => s
  | none, .freerun | none, .holdover => s
  | none, _ => match s.hoValue d with
    | some v => s.toHoldover d (some v)
    | none => s.toFreerun d

/-- Rank conflict (R386). -/
def State.rankConflict (s : State) (d : Nat) : State :=
  let f := (s.bestSlots d).filterMap fun n => (s.slot n).freq
  let lim := s.cf F.TIM_CFG_CONFLICT 0
  s.defect (f.any fun a => f.any fun b => !inLimit (a - b) lim) 0x0E08 0 d

/-- Both DPLLs follow a change of the slots; the transmitters follow the line DPLL (R195). -/
def State.timSettle (s : State) (off : Int × Int) : State :=
  let s := (s.dpllFollow 0 off.1).dpllFollow 1 off.2
  (((s.rankConflict 0).rankConflict 1).txSettle .A).txSettle .B

/-! ### Slots -/

/-- A slot fails (R381, R383). -/
def State.slotFail (s : State) (n : Nat) : State :=
  let s := s.modSlot n fun q => { q with st := .failed, freq := none }
  if s.stands 0x0E01 0 n then s else (s.bump .TIM_SLOT_FAIL n).raise 0x0E01 0 n

/-- REF_FAILED (R381, R383): the slot's signal is lost; `off0` and `off1` are the offsets the DPLLs measure if they
switch. -/
def execRefFailed (n : Fin 8) (off0 off1 : Int) (s : State) : Host.Outcome State Fault Refusal := live s fun s =>
  if (s.slot n).st = .empty then s else (s.slotFail n).timSettle (off0, off1)

/-- A new measurement of a slot in 1/16 ppb (R123, R382): that of a line recovered clock is its core's symbol-clock offset, which
is against the root, plus that of the line DPLL, which steers the root; another slot's is told (log 64). -/
def State.slotMeas (s : State) (n : Nat) (f : Int) : Int :=
  let v := s.cf F.TIM_SLOT_CFG_SOURCE n
  if v = 32 then 16 * s.carA.rxc.clk + (s.dpll 0).freq
  else if v = 33 then 16 * s.carB.rxc.clk + (s.dpll 0).freq
  else f

/-- SLOT_MEASUREMENT (R382 to R384, R386): a new measurement in 1/16 ppb. -/
def execSlotMeasurement (n : Fin 8) (f : Int) (off0 off1 : Int) (s : State) : Host.Outcome State Fault Refusal :=
  live s fun s =>
  let st := (s.slot n).st
  if st = .empty ∨ s.slotSignal n = false then s else
  let f := s.slotMeas n f
  let ok := inLimit f (s.cf F.TIM_SLOT_LIM_HARD_LIM n)
  let new : SlotSt := match st with
    | .failed | .qualifying => if ok then .qualifying else .disqualified
    | .disqualified => if ok then .qualifying else .disqualified
    | q => q
  let s := s.modSlot n fun q => { q with st := new, freq := some f }
  let s := s.clear 0x0E01 0 n
  let s := if new = .qualifying then s.clear 0x0E03 0 n else s
  let s := s.defect (!inLimit f (s.cf F.TIM_SLOT_LIM_SOFT_LIM n)) 0x0E02 0 n
  s.timSettle (off0, off1)

/-- The latest measurement of a slot is within the hard limit. -/
def State.slotIn (s : State) (n : Nat) : Bool :=
  match (s.slot n).freq with
  | some f => inLimit f (s.cf F.TIM_SLOT_LIM_HARD_LIM n)
  | none => false

/-- SLOT_QUALIFIED (R383). -/
def execSlotQualified (n : Fin 8) (off0 off1 : Int) (s : State) : Host.Outcome State Fault Refusal := live s fun s =>
  if (s.slot n).st = .qualifying ∧ s.slotIn n ∧ s.slotSignal n then
    ((s.modSlot n fun q => { q with st := .valid }).occ 0x0E04 0 n).timSettle (off0, off1)
  else s

/-- SLOT_DISQUALIFIED (R383, R400): HOLDOFF_MS beyond the hard limit. -/
def execSlotDisqualified (n : Fin 8) (off0 off1 : Int) (s : State) : Host.Outcome State Fault Refusal := live s fun s =>
  if (s.slot n).st = .valid ∧ s.slotIn n = false then
    (((s.modSlot n fun q => { q with st := .disqualified }).bump .TIM_SLOT_FAIL n).raise 0x0E03 0 n).timSettle
      (off0, off1)
  else s

/-- REF_EDGE_STAMP (R396): a rising edge of a pulse slot. -/
def execRefEdgeStamp (n : Fin 8) (s : State) : Host.Outcome State Fault Refusal := live s fun s =>
  if s.pulseSlot n then s.modSlot n fun q => { q with ts := s.ns } else s

/-! ### DPLLs -/

/-- DPLL_LOCK (R388). -/
def execDpllLock (d : Fin 2) (s : State) : Host.Outcome State Fault Refusal := live s fun s =>
  if (s.dpll d).st = .acquire then
    (s.modDpll d fun p => { p with st := if s.hoReady d then .locked else .lockedNew }).occ 0x0E09 0 d
  else s

/-- DPLL_UNLOCK (R388). -/
def execDpllUnlock (d : Fin 2) (s : State) : Host.Outcome State Fault Refusal := live s fun s =>
  if (s.dpll d).st = .locked ∨ (s.dpll d).st = .lockedNew then
    s.modDpll d fun p => { p with st := .acquire, lockSec := false }
  else s

/-- LOCKED_NEW becomes LOCKED once HO_READY is 1 (R388). -/
def State.hoCheck (s : State) (d : Nat) : State :=
  if (s.dpll d).st = .lockedNew ∧ s.hoReady d then (s.modDpll d fun p => { p with st := .locked }).occ 0x0E09 0 d else s

/-- The DPLL holds a frequency of its own (R388, R392): it follows no reference. -/
def DpllSt.holds (t : DpllSt) : Bool := t == .holdover || t == .freerun

/-- A DPLL writes its history entry of the second that ends (R391): mean offset in 1/16 ppb, told, or the held frequency
where the DPLL held one for the whole second (R388, R392). -/
def State.histWrite (s : State) (d : Nat) (f : Int) : State :=
  let s := s.modDpll d fun p => { p with
    hist := aset p.hist p.next ⟨if p.held then p.freq else f, p.swSec, p.lockSec⟩
    next := (p.next + 1) % 4096
    run := if p.lockSec then min 4095 (p.run + 1) else 0
    freq := if p.st.holds then p.freq else f
    swSec := false
    lockSec := p.st == .locked || p.st == .lockedNew
    held := p.st.holds }
  s.hoCheck d

/-- An output bleeds for a second (R390); what is left within one step is bled by BLEED_COMPLETE. -/
def State.bleed (s : State) (o : Nat) : State :=
  let k : Int := (max 1 (s.cf F.TIM_OUT_CTL_SLOPE_PS o) : Nat)
  if s.cf F.TIM_OUT_CTL_BLEED o = 1 then s.modOut o fun q => { q with
    phase := if k < q.phase then q.phase - k else if q.phase < -k then q.phase + k else q.phase }
  else s

/-- HISTORY_SECOND (R391, R388, R390): a whole second of device time; the mean output offsets of the two DPLLs. -/
def execHistorySecond (f0 f1 : Int) (s : State) : Host.Outcome State Fault Refusal := live s fun s =>
  (List.range 4).foldl State.bleed ((s.histWrite 0 f0).histWrite 1 f1)

/-- A write of OUT_CMD naming the pulse and frame outputs and a source (R394). -/
def State.outRealign (s : State) (pps frm : Bool) (src : Nat) : State :=
  let ok : Bool := src == 1 || (match (s.dpll 1).sel with
    | some n => s.pulseSlot n
    | none => false)
  let go (s : State) (o : Nat) : State :=
    if ok then s.modOut o fun q => { q with realign := some src }
    else s.occ 0x0E0A 0 o [1, BitVec.ofNat 8 src]
  let s := if pps then go s 2 else s
  if frm then go s 3 else s

/-- OUT_REALIGN (R394). -/
def execOutRealign (pps frm : Bool) (src : Fin 2) (s : State) : Host.Outcome State Fault Refusal := live s fun s =>
  s.outRealign pps frm src

/-- REALIGNED_FIRST_PULSE (R394). -/
def execRealignedFirstPulse (o : Fin 4) (s : State) : Host.Outcome State Fault Refusal := live s fun s =>
  match (s.outSt o).realign with
  | none => s
  | some src => (s.modOut o fun _ => ⟨0, none⟩).occ 0x0E0A 0 o [0, BitVec.ofNat 8 src]

/-- BLEED_COMPLETE (R390): OUT_PHASE reaches 0. -/
def execBleedComplete (o : Fin 4) (s : State) : Host.Outcome State Fault Refusal := live s fun s =>
  if (s.outSt o).phase ≠ 0 ∧ s.cf F.TIM_OUT_CTL_BLEED o = 1 then
    (s.modOut o fun q => { q with phase := 0 }).occ 0x0E0B 0 o
  else s

/-- Set the root synthesiser's lock (R397, R195). -/
def State.rootTo (s : State) (lock : Bool) : State :=
  let s := ({ s with tim := { s.tim with root := lock } }).defect (!lock) 0x0E0C 0 0
  (s.txSettle .A).txSettle .B

/-- ROOT_UNLOCK (R397). -/
def execRootUnlock (s : State) : Host.Outcome State Fault Refusal := live s fun s =>
  if s.tim.root then s.rootTo false else s

/-- ROOT_LOCK (R397). -/
def execRootLock (s : State) : Host.Outcome State Fault Refusal := live s fun s => s.rootTo true

/-- A commit of scope TIM has taken effect (R383, R387, R388, R392); `old` reads the values before it. -/
def State.timCommit (s : State) (old : Rd) (off : Int × Int) : State :=
  let slot (s : State) (n : Nat) : State :=
    let src := s.cf F.TIM_SLOT_CFG_SOURCE n
    if src = 0 then
      if (s.slot n).st = .empty then s else
      (((s.modSlot n fun q => { q with st := .empty, freq := none }).clear 0x0E01 0 n).clear 0x0E02 0 n).clear 0x0E03 0 n
    else if (s.slot n).st = .empty then s.modSlot n fun q => { q with st := .failed, freq := none }
    else if src ≠ F.TIM_SLOT_CFG_SOURCE.at old n ∨ s.cf F.TIM_SLOT_CFG_TYPE n ≠ F.TIM_SLOT_CFG_TYPE.at old n ∨
        s.cf F.TIM_SLOT_NOM_HZ n ≠ F.TIM_SLOT_NOM_HZ.at old n then s.slotFail n
    else s
  let dp (s : State) (d : Nat) : State :=
    let m := s.cf F.TIM_DPLL_CTL_MODE d
    let was := F.TIM_DPLL_CTL_MODE.at old d
    let v := F.TIM_DPLL_HO_VAL_OFFSET.int s.rd d
    let src := s.cf F.TIM_DPLL_HO_HO_SRC d
    let s := if m = 3 then s.toFreerun d
      else if m = 2 ∧ was ≠ 2 ∧ ¬(was = 3 ∧ (s.dpll d).st = .freerun) then s.toHoldover d (s.hoValue d)
      else s
    let s := match (s.dpll d).st with
      | .freerun => s.modDpll d fun p =>
          let f := if src = 1 then v else 0
          { p with freq := f, held := p.held && f == p.freq }
      | .holdover => if src = 1 ∧ v ≠ F.TIM_DPLL_HO_VAL_OFFSET.int old d then
          s.modDpll d fun p => { p with freq := v, hoUsed := some v, held := false } else s
      | _ => s
    s.hoCheck d
  let s := (List.range 8).foldl slot s
  (dp (dp s 0) 1).timSettle off

/-- Code of a DPLL state (R388, R398). -/
def DpllSt.code (t : DpllSt) : Nat :=
  match t with
  | .freerun => 0 | .acquire => 1 | .locked => 2 | .holdover => 3 | .lockedNew => 4

/-- Code of a slot state (R402). -/
def SlotSt.code (t : SlotSt) : Nat :=
  match t with
  | .empty => 0 | .failed => 1 | .qualifying => 2 | .valid => 3 | .disqualified => 4

end Sys2Proof.Machine
end

