-- ==== Sys2Proof/Machine/Tx.lean ====
section
/-! DEFINITION. Transmit output states, squelch, probes and clipping (chapter 06). -/

namespace Sys2Proof.Machine

/-- TX_RAMP_UP_DONE (R194, R200). -/
def execTxRampUpDone (x : Carrier) (s : State) : Host.Outcome State Fault Refusal := live s fun s =>
  if (s.car x).tx.st = .rampUp then ((s.txTo x .on).occ 0x0602 x.ev 0).txSettle x else s

/-- TX_RAMP_DOWN_DONE (R194, R180, R252). -/
def execTxRampDownDone (x : Carrier) (s : State) : Host.Outcome State Fault Refusal := live s fun s =>
  if (s.car x).tx.st = .rampDown then
    (s.txTo x (if s.cfx F.CAR_TX_CTL_TX_EN x = 0 then .off else .squelched)).txSettle x
  else s

/-- TX_FORCED (R194 to R196, R198, R200): a forced cause acts from every state at once. -/
def execTxForced (x : Carrier) (s : State) : Host.Outcome State Fault Refusal := live s fun s => s.txSettle x

/-- TX_SQUELCH_WRITE (R195, R196). -/
def execTxSquelchWrite (x : Carrier) (v : Bool) (s : State) : Host.Outcome State Fault Refusal := live s fun s =>
  (s.setFieldx F.CAR_TX_CTL_SQUELCH x 0 (b2n v)).txSettle x

/-- SQ_HOLD_EXPIRE (R195): SQ_HOLD ms without LOCKED set the RX_LOL cause, SQ_HOLD ms in LOCKED release it. -/
def execSqHoldExpire (x : Carrier) (s : State) : Host.Outcome State Fault Refusal := live s fun s =>
  (s.modTx x fun t => { t with rxLol := (s.car x).rxc.st != .locked }).txSettle x

/-- RX_LOL is the only squelch cause (R197). -/
def State.onlyRxLol (s : State) (x : Carrier) : Bool := bitsNat (s.txCauses x) == 16

/-- RESTART_PROBE (R197, R200). -/
def execRestartProbe (x : Carrier) (s : State) : Host.Outcome State Fault Refusal := live s fun s =>
  if (s.car x).tx.st = .squelched ∧ s.onlyRxLol x ∧ s.cfx F.CAR_TX_SQ_RESTART x ≠ 0 then
    ((s.modTx x fun t => { t with probing := true }).occ 0x0605 x.ev 0).txSettle x
  else s

/-- PROBE_END (R197): 100 ms after the probe reached ON. -/
def execProbeEnd (x : Carrier) (s : State) : Host.Outcome State Fault Refusal := live s fun s =>
  if (s.car x).tx.st = .on ∧ (s.car x).tx.probing then
    (s.modTx x fun t => { t with probing := false }).txSettle x
  else s

/-- CLIP_INTERVAL (R193, R196, R200): clipped samples of the four DACs in 1 ms, none: those that State counted; a DAC
samples at 5/4 of TX_RATE. -/
def execClipInterval (x : Carrier) (n : Option (Nat × Nat × Nat × Nat)) (s : State) :
    Host.Outcome State Fault Refusal := live s fun s =>
  let c := match n with
    | some (xi, xq, yi, yq) => [xi, xq, yi, yq]
    | none => (s.car x).tx.clipN
  let s := s.modTx x fun t => { t with clipN := [0, 0, 0, 0] }
  let s := { s with io := (List.range 4).foldl (fun io i =>
    io.bumpUnits ⟨.CAR_TX_CLIP_LO, carIdx .CAR_TX_CLIP_LO x i⟩ 128 (c.getD i 0)) s.io }
  if (s.car x).tx.st ≠ .on then s else
  let lim := s.cfx F.CAR_TX_LEVEL_CLIP_THR x * 5 * s.cfx F.CAR_TX_RATE_KBD x
  if c.any (fun n => lim ≤ n * 4 * 2 ^ 20) then
    ((s.modTx x fun t => { t with clipLow := 0 }).raise 0x0603 x.ev 0).txSettle x
  else if c.all (fun n => n * 4 * 2 ^ 21 < lim) then
    let k := (s.car x).tx.clipLow + 1
    if k < 10 then s.modTx x fun t => { t with clipLow := k }
    else ((s.modTx x fun t => { t with clipLow := 0 }).clear 0x0603 x.ev 0).txSettle x
  else s.modTx x fun t => { t with clipLow := 0 }

end Sys2Proof.Machine
end

