-- ==== Sys2Proof/Machine/Apply.lean ====
section
/-! DEFINITION. Commits taking effect at their boundaries (R22, R28, R31 to R33), and what each unit does when a setting
of its own becomes active. -/

namespace Sys2Proof.Machine

/-! ### Units whose settings changed -/

/-- A field of a carrier's register changed. -/
def State.changed (s : State) (old : Rd) (f : Fref) (x : Carrier) : Bool :=
  f.at old (carIdx f.reg x 0) != s.cfx f x

/-- A commit took a field at index 0 of a carrier's register. -/
def took (v : Tab RegKey (Word × Word)) (f : Fref) (x : Carrier) : Bool :=
  match aget v ⟨f.reg, carIdx f.reg x 0⟩ with
  | some (_, m) => bits m f.hi f.lo != 0
  | none => false

/-- A commit took some field of a carrier's register. -/
def tookReg (v : Tab RegKey (Word × Word)) (x : Carrier) (p : RegId → Bool) : Bool :=
  v.any fun e => p e.1.reg && e.1.carNo == x.num

/-- The DC values after a commit (R75): a committed one is remembered, seeds the adaptive loop, is applied in manual mode,
and changes nothing while the value is frozen. -/
def State.feDcHook (s : State) (old : Rd) (v : Tab RegKey (Word × Word)) (x : Carrier) : State :=
  let mode := s.cfx F.CAR_FE_CTL_DC_MODE x
  let s := if s.changed old F.CAR_FE_CTL_DC_MODE x then s.modFe x fun f => { f with dcAcc := [] } else s
  s.each (List.range 4) fun s c =>
    let k : RegKey := ⟨.CAR_FE_DC, carIdx .CAR_FE_DC x c⟩
    let was := s.rd k
    let new := (aget v k).isSome
    let s := if new then s.modFe x fun f => { f with
      dcCom := aset f.dcCom c was, dcAcc := f.dcAcc.set c (sgn 12 (bits was 11 0) * fone) } else s
    if mode = 2 then s.setWord k (agetD (s.car x).fe.dcCom c 0)
    else if new && mode != 0 then s.setWord k (old k)
    else s

/-- The IQ values after a commit (R76), as the DC values. -/
def State.feIqHook (s : State) (old : Rd) (v : Tab RegKey (Word × Word)) (x : Carrier) : State :=
  let mode := s.cfx F.CAR_FE_CTL_IQ_MODE x
  let s := if s.changed old F.CAR_FE_CTL_IQ_MODE x then s.modFe x fun f => { f with iqAcc := [] } else s
  s.each (List.range 2) fun s p =>
    let k : RegKey := ⟨.CAR_FE_IQ, carIdx .CAR_FE_IQ x p⟩
    let was := s.rd k
    let new := (aget v k).isSome
    let s := if new then s.modFe x fun f => { f with
      iqCom := aset f.iqCom p was
      iqAcc := f.iqAcc.set p ((bits was 15 0 : Nat) * fone, sgn 16 (bits was 31 16) * fone) } else s
    if mode = 2 then s.setWord k (agetD (s.car x).fe.iqCom p 0x4000)
    else if new && mode != 0 then s.setWord k (old k)
    else s

/-- What a commit does to the estimator (R90, R92, R111): a changed SOURCE discards a result of the same cycle, and with
SOURCE 0 no estimate is in use; a committed TARGET stands against an estimate of the same cycle, and one that differs from
the value held at the limit ends that. -/
def State.estHook (s : State) (old : Rd) (v : Tab RegKey (Word × Word)) (x : Carrier) : State :=
  let t := s.sys.dtime
  let src := s.cfx F.CAR_CDE_CTL_SOURCE x
  let s := if s.changed old F.CAR_CDE_CTL_SOURCE x then
    s.modFe x fun f => { f with estCut := some t, inUse := f.inUse && src != 0 } else s
  if !took v F.CAR_CDE_TRIM_TARGET x then s else
  let s := s.modFe x fun f => { f with tgtAt := some t }
  if s.changed old F.CAR_CDE_TRIM_TARGET x then s.clear 0x0305 x.ev 0 [0xFF] else s

/-- A commit regenerates the table (R84), which discards an estimate of the same cycle (R92). -/
def State.regenCommit (s : State) (x : Carrier) (d : Int) : State :=
  let t := s.sys.dtime
  (s.modFe x fun f => { f with estCut := some t }).regen x d

/-- The dispersion equaliser after a commit (R84, R85, R90, R92, R101, R120). A table that becomes custom while one is being
generated is the stored one, without the running generation; RX_EN 0 abandons an estimate (DESIGN CHOICE, log 58). -/
def State.cdeHook (s : State) (old : Rd) (v : Tab RegKey (Word × Word)) (x : Carrier) : State :=
  let s := s.estHook old v x
  let en := s.cfx F.CAR_RXC_CTL_RX_EN x == 1
  let on := en && F.CAR_RXC_CTL_RX_EN.at old x.num == 0
  let src := s.cfx F.CAR_CDE_CTL_SOURCE x
  let d := s.cfxI F.CAR_CDE_VALUE_D x
  let custom := s.cfx F.CAR_CDE_CTL_TABLE_MODE x == 1
  let mode := s.changed old F.CAR_CDE_CTL_TABLE_MODE x
  if !en then
    if F.CAR_RXC_CTL_RX_EN.at old x.num = 0 then s else
      s.modFe x fun f => { f with cde := 0, est := none, tries := 0, inUse := false }
  else if custom then
    let s := if on || mode then s.cdeCustom x else s
    let s := if mode || s.changed old F.CAR_CDE_VALUE_D x then s.spanDisp x else s
    if on && src != 0 then s.estStart x .acquisition else s
  else if on then
    let s := (s.modFe x fun f => { f with inUse := false }).regenCommit x d
    if src ≠ 0 then s.estStart x .acquisition else s
  else
    let other := mode || s.changed old F.CAR_CDE_GRID_N x || s.changed old F.CAR_RXC_RATE_KBD x
    let f := (s.car x).fe
    let val := s.changed old F.CAR_CDE_VALUE_D x && !f.inUse
    if !(other || val) then s
    else s.regenCommit x (if f.inUse then (if f.cde = 1 then f.genD else f.act) else d)

/-- Registers of Press's settings, span table and filters (R107). -/
def pressRegs (r : RegId) : Bool :=
  r == .CAR_PRESS_CTL || r == .CAR_PRESS_ACT || r == .CAR_PRESS_GUARD || r == .CAR_PRESS_XI || r == .PRESS_FILT ||
  r == .CAR_CM_SPANS || r == .CAR_CM_SPAN0 || r == .CAR_CM_SPAN1 || r == .CAR_CM_SPAN2 || r == .CAR_CM_FIBRE

/-- Press after a commit (R95, R104 to R107, R109, R552): the layout is recomputed as committed. `idle`: no step was active
before it; `was`: the steps then set. AUTO_OFF's transparency ends with the next commit of Press's settings, span table
or filters (DESIGN CHOICE, log 58). -/
def State.pressHook (s : State) (old : Rd) (v : Tab RegKey (Word × Word)) (x : Carrier) (idle : Bool) (was : List Nat) :
    State :=
  if !tookReg v x pressRegs then s else
  let s := ((s.modFe x fun f => { f with autoOff := false }).pressCommit x).shedCommit x was
  let s := if took v F.CAR_PRESS_CTL_FOLLOW x && s.cfx F.CAR_PRESS_CTL_FOLLOW x == 1 then
    (s.modFe x fun f => { f with followStop := false, reverts := 0 }).clear 0x0309 x.ev 0 [0xFF] else s
  let s := if took v F.CAR_PRESS_XI_XI x then s.xiInside x else s
  let steps := s.changed old F.CAR_PRESS_CTL_STEPS x
  let s := if steps then s.enginesFree else s
  let run := s.pressRun x .gain
  let s := if idle && (steps || s.changed old F.CAR_PRESS_ACT_ACTIVE x) && !(s.activeSteps x).isEmpty && run.usable then
    s.modFe x fun f => { f with cmp := some run } else s
  if steps then s.stepsCut x else s

/-- The receive core after a commit (R8, R120, R127, R134, R143, R152). -/
def State.rxcHook (s : State) (old : Rd) (v : Tab RegKey (Word × Word)) (x : Carrier) : State :=
  let s := if s.changed old F.CAR_RXC_RATE_KBD x then
    (s.clkUnlock x.rxDie).modRxc x fun c => { c with winOk := false } else s
  let s := s.settle x
  let shape := s.changed old F.CAR_RXC_CTL_SC_LOG2 x || s.changed old F.CAR_RXC_CTL_ROLLOFF x
  let s := if shape then s.modRxc x fun c => { c with winOk := false, mean10ok := false } else s
  let n := s.cfx F.CAR_RXC_CTL_TAPS x
  let s := if s.changed old F.CAR_RXC_CTL_TAPS x then
    s.modRxc x fun c => { c with taps := c.taps.map fun f => f.map (tapsResize n) } else s
  let st := (s.car x).rxc.st
  let s := if (shape || s.changed old F.CAR_RXC_CTL_TIM_BW x) && st != .disabled && st != .waitInput then s.toHunt x
    else s
  let s := if took v F.CAR_RXC_THR_SNR_DEG x && s.cfx F.CAR_RXC_THR_SNR_DEG x == 0x8000 then
    (s.clear 0x0405 x.ev 0).modRxc x fun c => { c with degLow := 0, degHigh := 0 } else s
  if took v F.CAR_FEC_THR_DEG_MARGIN x && s.cfx F.CAR_FEC_THR_DEG_MARGIN x == 0x8000 then
    (s.clear 0x0504 x.ev 0).modFec x fun c => { c with degLow := 0, degHigh := 0 } else s

/-- Bytes that a register's consecutive words hold (R249, R250). -/
def State.regBytes (s : State) (r : RegId) (x : Carrier) (i n : Nat) : Bytes :=
  (List.range n).flatMap fun w => leBytes 4 (s.rd ⟨r, carIdx r x (i + w)⟩).toNat

/-- Trace mismatch (R249, R250): the accepted trace differs from the expected one, of the section or of a channel. -/
def State.traceDiffers (s : State) (x : Carrier) (c : Option Nat) : Bool :=
  match c with
  | none => s.cfx F.CAR_TR_RX_CTL_STIM_EN x == 1 && (s.car x).tr.trace.has &&
      s.regBytes .CAR_TR_STRACE_EXP x 0 16 != (s.car x).tr.trace.acc
  | some c =>
    let e := s.regBytes .CAR_TR_PTRACE_EXP x (4 * c) 4
    (s.path x c).trace.has && !allZero e && e != (s.path x c).trace.acc

/-- Evaluate trace mismatch of the section or of a channel. -/
def State.traceEval (s : State) (x : Carrier) (c : Option Nat) : State :=
  match c with
  | none => s.defect (s.traceDiffers x none) 0x0805 x.ev 0
  | some c => s.defect (s.traceDiffers x (some c)) 0x0809 x.ev c

/-- The framer after a commit (R246, R249, R250): expected traces are compared anew; a threshold of 0 disables its
defect. -/
def State.trHook (s : State) (v : Tab RegKey (Word × Word)) (x : Carrier) : State :=
  let has (r : RegId) : Bool := tookReg v x (· == r)
  let chs := (s.car x).tr.paths.map (·.1)
  let s := if has .CAR_TR_STRACE_EXP || has .CAR_TR_RX_CTL then s.traceEval x none else s
  let s := if has .CAR_TR_PTRACE_EXP then s.each chs fun s c => s.traceEval x (some c) else s
  if !has .CAR_TR_RX_DEG then s else
  let s := if s.cfx F.CAR_TR_RX_DEG_SDEG_THR x = 0 then s.clear 0x0806 x.ev 0 else s
  if s.cfx F.CAR_TR_RX_DEG_PDEG_THR x = 0 then s.each chs fun s c => s.clear 0x080C x.ev c else s

/-- The crease map and Tack's receiver after a commit (R8, R341, R365, R368, R370). -/
def State.cmHook (s : State) (v : Tab RegKey (Word × Word)) (x : Carrier) : State :=
  let s := if tookReg v x (fun r => r == .CAR_CM_CTL || r == .CAR_CM_SPANS || r == .CAR_CM_SPAN0 ||
    r == .CAR_CM_SPAN1 || r == .CAR_CM_SPAN2 || r == .CAR_CM_FIBRE) then s.cmRestart x else s
  let s := if tookReg v x (fun r => r == .CAR_CM_THR || r == .CAR_CM_THR2) then s.cmThresholds x else s
  let s := s.cmCover x
  if tookReg v x (fun r => r == .CAR_TK_RX_CTL || r == .CAR_TK_RX_THR) then s.tkRestart x else s

/-- What a carrier's receive side does when values of its scope become active. -/
def State.rxHook (s : State) (old : Rd) (v : Tab RegKey (Word × Word)) (idle : Bool) (was : List Nat) (x : Carrier) :
    State :=
  let s := (s.feDcHook old v x).feIqHook old v x
  let s := s.cdeHook old v x
  let s := s.rxcHook old v x
  let s := s.pressHook old v x idle was
  let s := s.trHook v x
  s.cmHook v x

/-- The transmit chain starts (R156, R180): X counts from here, in the frame that runs, at the rate in force. -/
def State.chainStart (s : State) (x : Carrier) : State :=
  (s.modTx x fun t => { t with
    chain := true, pilot := s.cfx F.CAR_TX_CTL_PILOT x, info := [], encPos := 0
    sched := [(0, s.cfx F.CAR_FEC_TX_RATE x)], encPrev := [], coded := [], frames := []
    ents := (List.range (2 ^ s.cfx F.CAR_TX_CTL_SC_LOG2 x)).map fun i => s.cfx F.CAR_TX_SC_E x i }).modTr x fun t =>
    { t with xn := 0, xd := 1, xAt := s.sys.dtime % (160 * 65536), encRate := s.cfx F.CAR_FEC_TX_RATE x, encNext := none
             blk0 := 0, cur := none }

/-- What a carrier's transmit side does when values of its scope become active (R180, R194, R196, R199, R200). -/
def State.txHook (s : State) (old : Rd) (v : Tab RegKey (Word × Word)) (x : Carrier) : State :=
  let en := s.cfx F.CAR_TX_CTL_TX_EN x == 1
  let start := en && F.CAR_TX_CTL_TX_EN.at old x.num == 0
  let again := en && (s.changed old F.CAR_TX_RATE_KBD x || s.changed old F.CAR_TX_CTL_SC_LOG2 x ||
    s.changed old F.CAR_TX_CTL_ROLLOFF x)
  let s := if again || start then (s.chainStop x).chainStart x else s
  let s := if tookReg v x (· == .CAR_TX_LEVEL) && s.changed old F.CAR_TX_LEVEL_BACKOFF x then
    (s.clear 0x0603 x.ev 0).modTx x fun t => { t with clipLow := 0 } else s
  let s := if took v F.CAR_TX_CTL_TEST x then s.defect (s.cfx F.CAR_TX_CTL_TEST x != 0) 0x0604 x.ev 0 else s
  s.txSettle x

/-- The client block when its settings become active (R313, R318, R325). -/
def State.cliHook (s : State) (old : Rd) : State :=
  let s := s.each s.chans fun s c => s.chEnable c (F.CLI_CH_CFG_EN.on old c)
  let s := s.each s.onChans fun s c => s.calCheck c
  let pol := s.rd ⟨.CLI_LANE_POL, 0⟩
  let s := if old ⟨.CLI_LANE_POL, 0⟩ = pol then s else s.emit (.lanePol (F.CLI_LANE_POL_TX.of pol) (F.CLI_LANE_POL_RX.of pol))
  s.each (List.range 16) fun s p =>
    if s.portMode p = 0 ∧ F.CLI_PORT_CTL_MODE.at old p ≠ 0 then
      [0x0B01, 0x0B02, 0x0B03].foldl (fun s e => s.forget e 0 p) (s.modPort p fun _ => portReset)
    else s

/-! ### Applying -/

/-- Part of a pending commit that takes effect now: the scopes, and the values of them. -/
structure Applied where
  scopes : List Nat
  kind   : BKind
  late   : Bool
  vals   : Tab RegKey (Word × Word)
  plan   : Option (Carrier × Side × Nat)
deriving DecidableEq, Repr

/-- The values of a pending set that lie in some scopes. -/
def valsOf (v : Tab RegKey (Word × Word)) (scopes : List Nat) : Tab RegKey (Word × Word) :=
  v.filterMap fun e =>
    let m := e.2.2 &&& scopeMask e.1 scopes
    if m = 0 then none else some (e.1, (e.2.1, m))

/-- A receive scope's target passed before this boundary (R31). -/
def State.pendLate (s : State) (p : Pend) (ready : List Nat) : Bool :=
  match p.target with
  | some t => ready.any fun n => (n == 1 || n == 3) && decide (t < s.scopeCount n)
  | none => false

/-- Take the scopes that reach their boundary out of the pending commits (R30). -/
def State.takeReady (s : State) (ready : Pend → List Nat) : State × List Applied :=
  let step := fun (a : List Pend × List Applied) (p : Pend) =>
    let now := p.scopes.filter (ready p).contains
    if now.isEmpty then (a.1 ++ [p], a.2)
    else
      let rest := p.scopes.filter fun n => !now.contains n
      (if rest.isEmpty then a.1 else a.1 ++ [{ p with scopes := rest, vals := valsOf p.vals rest }],
       a.2 ++ [⟨now, p.kind, s.pendLate p now, valsOf p.vals now, p.plan⟩])
  let q := s.regs.pend.foldl step ([], [])
  ({ s with regs := { s.regs with pend := q.1 } }, q.2)

/-- Values that wait for the end of a Tack burst (R188, R334), and the others. -/
def State.tkSplit (s : State) (v : Tab RegKey (Word × Word)) :
    Tab RegKey (Word × Word) × Tab RegKey (Word × Word) :=
  let waits (e : RegKey × (Word × Word)) : Bool :=
    (e.1.reg == .CAR_TK_TX_CTL || e.1.reg == .CAR_TK_TX_TIME || e.1.reg == .CAR_TX_TACK) &&
      (s.car (carOf e.1.carNo)).tk.burst.isSome
  let keep (e : RegKey × (Word × Word)) : Word := if e.1.reg == .CAR_TX_TACK then maskOf 15 0 else -1
  (v.filterMap fun e =>
    let m := if waits e then e.2.2 &&& ~~~(keep e) else e.2.2
    if m = 0 then none else some (e.1, (e.2.1, m)),
   v.filterMap fun e =>
    let m := if waits e then e.2.2 &&& keep e else 0
    if m = 0 then none else some (e.1, (e.2.1, m)))

/-- Make values active; Tack's wait for the end of its burst. -/
def State.activate (s : State) (v : Tab RegKey (Word × Word)) : State :=
  let p := s.tkSplit v
  let s := s.applyVals p.1
  p.2.foldl (fun s e => s.modTk (carOf e.1.carNo) fun t => { t with waitVals := overVals t.waitVals [e] }) s

/-- The record of a commit that takes effect, 0x0102 for one that applies late (R31, R32, R477, R483), and the digest that
begins anew (R33, R532). Its count is that of the first transmit scope, or else of the first receive scope; a mask that
names neither carries the transmit count. -/
def State.appliedEv (s : State) (a : Applied) : State :=
  let n := if a.scopes.contains 0 || a.scopes.contains 2 then 0 else if a.scopes.contains 1 then 1
    else if a.scopes.contains 3 then 3 else 0
  let d := leBytes 2 (scopesMask a.scopes) ++ leBytes 7 (s.scopeCount n) ++ [BitVec.ofNat 8 a.kind.code]
  let s := s.occ (if a.late then 0x0102 else 0x0101) 0 0 d
  s.modBoot fun b => { b with cfgPending := true, cfgLast := s.ns }

/-- The plan whose values have become active in its own carrier's scope (R217). -/
def State.planHook (s : State) (old : Rd) (a : Applied) : State :=
  match a.plan with
  | some (x, .tx, _) => match (s.car x).plan.txPend, a.scopes.contains (2 * x.num) with
    | some m, true => s.txPlanDone old x m
    | _, _ => s
  | some (x, .rx, _) => match (s.car x).plan.rxPend, a.scopes.contains (2 * x.num + 1) with
    | some m, true => s.rxPlanDone x m (undoVals old a.vals)
    | _, _ => s
  | none => s

/-- The commits whose scopes reach a boundary take effect: all values in one cycle, then what follows in each unit (R22).
`off` is the measured phase offset of each DPLL from the slot it would switch to (R389). -/
def State.applyReady (s : State) (ready : Pend → List Nat) (off : Int × Int) : State :=
  let q := s.takeReady ready
  if q.2.isEmpty then s else
  let old := s.rd
  let idle (x : Carrier) : Bool := (s.activeSteps x).isEmpty
  let was (x : Carrier) : List Nat := (List.range 64).filter (s.stepSet x)
  let a := idle .A
  let b := idle .B
  let wa := was .A
  let wb := was .B
  let v := q.2.foldl (fun v a => overVals v a.vals) []
  let scopes := q.2.flatMap (·.scopes)
  let on (n : Nat) : Bool := scopes.contains n
  let s := q.1.activate v
  let s := if on 1 then s.rxHook old v a wa .A else s
  let s := if on 3 then s.rxHook old v b wb .B else s
  let s := if on 0 then s.txHook old v .A else s
  let s := if on 2 then s.txHook old v .B else s
  let s := if on 4 then s.cliHook old else s
  let s := if on 6 then s.timCommit old off else s
  let s := if on 7 then s.monCommit old else s
  let s := if on 8 then s.cxlCommit old else s
  let s := if on 0 || on 2 || on 5 then s.seamCommit old else s
  let s := v.foldl (fun s e => s.calTouched e.1) s
  let s := q.2.foldl (fun s a => (s.appliedEv a).planHook old a) s
  s.settleAll

end Sys2Proof.Machine
end

