-- ==== Sys2Proof/Machine/Boot.lean ====
section
/-! DEFINITION. Boot, firmware images, activation, identity, attestation, debug and the management processor's restarts
(chapter 20, R16, R545). -/

namespace Sys2Proof.Machine

/-! ### Images (R520, R521) -/

/-- SVN of an image's header. -/
def imgSvn (h : Bytes) : Nat := byteAt h 6
/-- KEY. -/
def imgKey (h : Bytes) : Nat := byteAt h 7
/-- BUILD. -/
def imgBuild (h : Bytes) : Nat := leAt h 8 4
/-- LENGTH. -/
def imgLen (h : Bytes) : Nat := leAt h 12 4

/-- M of R520. -/
def imgMeas (img : Bytes) : Bytes := beBytes 64 (Config.sha3x512 (img.take 2656 ++ img.drop 7296)).toNat

/-- The first of checks 1 to 3 that a header fails; 0 none (R521, R523). -/
def State.hdrCheck (s : State) (h : Bytes) : Nat :=
  let n := imgLen h
  if leAt h 0 4 ≠ 0x32244F54 ∨ leAt h 4 2 ≠ 1 ∨ n % 4096 ≠ 0 ∨ n < 4096 ∨ 8388608 < n ∨ !allZero (sub h 16 48) ∨
      !allZero (sub h 7283 13) then 1
  else if 4 ≤ imgKey h ∨ s.boot.otpRevoked.contains (imgKey h) ∨
      Config.sha3x512 (sub h 64 2592) ≠ Config.romKeyHash (imgKey h) then 2
  else if imgSvn h < s.boot.otpSvn then 3
  else 0

/-- The check code of an image; 0 when it is valid, 5 when it could not be read whole (R521). -/
def State.imgCheck (s : State) (img : Option Bytes) : Nat :=
  match img with
  | none => 5
  | some b =>
    if b.length < 7296 then 1 else
    match s.hdrCheck b with
    | 0 =>
      if b.length ≠ 7296 + imgLen b then 1
      else if Config.mldsaVerify (sub b 64 2592) (imgMeas b) (sub b 2656 4627) then 0 else 4
    | c => c

/-- What is kept of a valid image from a source. -/
def fwOf (img : Bytes) (src : Nat) : FwImg := ⟨imgSvn img, imgBuild img, imgKey img, imgMeas img, src⟩

/-- DATA of the events of R537: source or slot, check code, SVN, BUILD. -/
def bootData (src code svn build : Nat) : Bytes :=
  leBytes 2 src ++ [BitVec.ofNat 8 code, BitVec.ofNat 8 svn] ++ leBytes 4 build

/-- DATA that names an image. -/
def FwImg.data (f : FwImg) : Bytes := bootData f.src 0 f.svn f.build

/-- Keep a failed check for the record that firmware will post (R524), and show its code. -/
def State.bootFail (s : State) (src code : Nat) (hdr : Bytes) : State :=
  s.modBoot fun b => { b with fail := code, fails := b.fails ++ [⟨src, code, imgSvn hdr, imgBuild hdr⟩] }

/-- The ROM starts an image. -/
def State.bootRun (s : State) (f : FwImg) : State := s.modBoot fun b => { b with st := 3, running := some f }

/-! ### Booting (R522 to R524) -/

/-- Slots that may still be tried, of those whose headers pass: the higher SVN, then the higher BUILD, then slot 0
(R523). -/
def bootSlot (h0 h1 : Bytes) (tried : List Nat) : Option Nat :=
  match tried.contains 0, tried.contains 1 with
  | true, true => none
  | false, true => some 0
  | true, false => some 1
  | false, false =>
    if imgSvn h0 < imgSvn h1 ∨ (imgSvn h0 = imgSvn h1 ∧ imgBuild h0 < imgBuild h1) then some 1 else some 0

/-- The headers of both slots are checked; a slot whose header fails is not tried (R523). -/
def State.bootHeaders (s : State) (h : List (Option Bytes)) : State :=
  s.each [0, 1] fun s i =>
    if s.boot.tried.contains i then s else
    let b := h.getD i none
    let code := match b with
      | none => 5
      | some b => s.hdrCheck b
    if code = 0 then s else (s.bootFail i code (b.getD [])).modBoot fun b => { b with tried := i :: b.tried }

/-- BOOT_IMAGE_CHECKED (R521 to R523, R537): the slots' headers (none: the flash could not be read) and the body read
of the slot that R523 takes. -/
def execBootImageChecked (h0 h1 body : Option Bytes) (s : State) : Host.Outcome State Fault Refusal := live s fun s =>
  if s.boot.st ≠ 2 ∨ s.boot.hostBoot then s else
  let s := s.bootHeaders [h0, h1]
  match bootSlot (h0.getD []) (h1.getD []) s.boot.tried with
  | none => s.modBoot fun b => { b with st := 4 }
  | some n =>
    let h := ((if n = 0 then h0 else h1).getD []).take 7296
    let img := body.bind fun b => if b.length = imgLen h then some (h ++ b) else none
    match s.imgCheck img with
    | 0 => s.bootRun (fwOf (img.getD []) n)
    | c => (s.bootFail n c h).modBoot fun b =>
        let t := n :: b.tried
        { b with tried := t, st := if t.contains 0 && t.contains 1 then 4 else 2 }

/-- BOOT_MBX_GO (R524): a write of 1 by a function. -/
def State.mbxGo (s : State) (fn : Fn) : State :=
  if fn = .PF1 ∧ (s.boot.st = 1 ∨ s.boot.st = 4) then s.modBoot fun b => { b with st := 2, hostBoot := true } else s

/-- BOOT_MBX_GO (R524). -/
def execBootMbxGo (fn : Fn) (s : State) : Host.Outcome State Fault Refusal := live s fun s => s.mbxGo fn

/-- HOST_IMAGE_CHECKED (R521, R524, R537): what the read of BOOT_MBX_LEN bytes gave; none after a DMA error or poison. -/
def execHostImageChecked (img : Option Bytes) (s : State) : Host.Outcome State Fault Refusal := live s fun s =>
  if s.boot.st ≠ 2 ∨ !s.boot.hostBoot then s else
  let s := s.modBoot fun b => { b with hostBoot := false }
  let img := img.bind fun b => if b.length = (s.rd ⟨.SEC_BOOT_MBX_LEN, 0⟩).toNat then some b else none
  match s.imgCheck img with
  | 0 => s.bootRun (fwOf (img.getD []) 2)
  | c => (s.bootFail 2 c (img.getD [])).modBoot fun b => { b with st := 4 }

/-! ### The management processor (R16, R425, R529, R545) -/

/-- MP_RESTART (R16): a processor fault. -/
def execMpRestart (s : State) : Host.Outcome State Fault Refusal := live s fun s =>
  if s.boot.mpUp then s.mpStop else s

/-- WATCHDOG_EXPIRE (R545). -/
def execWatchdogExpire (s : State) : Host.Outcome State Fault Refusal := live s fun s =>
  if s.boot.mpUp then s.mpStop.modBoot fun b => { b with watchdog := true } else s

/-- The watchdog's restart is reported once the firmware runs (R545). -/
def State.dogReport (s : State) : State :=
  if s.boot.watchdog then (s.modBoot fun b => { b with watchdog := false }).occ 0x1306 0 0 else s

/-- MP_RETURN (R16): the firmware that ran serves commands again. -/
def execMpReturn (s : State) : Host.Outcome State Fault Refusal := live s fun s =>
  if s.boot.mpUp ∨ s.boot.st ≠ 5 ∨ s.boot.activating then s
  else (s.modBoot fun b => { b with mpUp := true, st := 3 }).dogReport

/-- Life in equivalent ms above which 0x1305 is raised (R553). -/
def State.lifeLimit (s : State) : Nat := 1262304000000 * s.cf F.GLB_LIFE_CTL_WARN_PCT 0 / 100

/-- The firmware restores GLB.LIFE from flash when it boots after a power-on reset, which alone clears it (R543, R553). -/
def State.lifeRestore (s : State) : State :=
  match s.sys.lifeSaved with
  | some v =>
    if s.sys.rstCause = 2 then s else
    ({ s with io := { s.io with cnt := aset s.io.cnt ⟨.GLB_LIFE_LO, 0⟩ v } }).modSys fun y => { y with
      lifeWarned := decide (s.lifeLimit ≤ v) }
  | none => s

/-- What the firmware reports when it starts after a power-on or warm reset (R439, R524, R531, R546, R555). -/
def State.resetReport (s : State) : State :=
  if !s.boot.resetEvent then s else
  let s := (s.modBoot fun b => { b with resetEvent := false }).lifeRestore
  let s := s.occ 0x1304 0 0 [BitVec.ofNat 8 s.sys.rstCause]
  let rows := s.mem.starchEv
  let s := { s with mem := { s.mem with starchEv := [] } }
  s.each rows fun s e => s.occ 0x1108 0 e.1 (memData (e.2 * 16))

/-- FIRMWARE_READY (R439, R524, R529, R531, R537, R545 to R547, R555): the firmware has taken up the PF1 rings. -/
def execFirmwareReady (s : State) : Host.Outcome State Fault Refusal := live s fun s =>
  match s.boot.running with
  | none => s
  | some f =>
    if s.boot.mpUp ∨ s.boot.st ≠ 3 then s else
    let s := (s.modBoot fun b => { b with mpUp := true }).resetReport
    let fails := s.boot.fails
    let s := s.modBoot fun b => { b with fails := [] }
    let s := s.each fails fun s e => s.occ 0x1201 0 0 (bootData e.src e.code e.svn e.build)
    let s := if s.boot.idState = 2 then s.raise 0x1207 0 0 else s
    let s := s.dogReport
    let s := match s.boot.reverted with
      | some e => (s.modBoot fun b => { b with reverted := none }).occ 0x1205 0 0 (bootData e.src e.code e.svn e.build)
      | none => s
    let s := if s.boot.activating then
        (s.modBoot fun b => { b with activating := false, prev := none }).bump .SEC_FW_ACT_CNT 0
      else s
    s.occ 0x1202 0 0 f.data

/-! ### Download and activation (R525 to R529) -/

/-- FW_DOWNLOAD (R527). -/
def execFwDownload (fn : Fn) (r : Nat) (s : State) : Host.Outcome State Fault Refusal :=
  command fn r 0x0403 s fun d img s =>
    let dst := byteAt d 16
    if dst ≠ 0 ∧ s.boot.running.map (·.src) = some (dst - 1) then stop 11 2 else
    match s.imgCheck (some img) with
    | 0 => (0, 0, fun s =>
        let f := fwOf img 3
        let s := s.modBoot fun b => { b with staged := some f, stagedBody := img, dlFail := 0 }
        if dst = 0 then s else
        (s.modBoot fun b => { b with flash := 1, flashSlot := dst - 1, flashImg := some f }).emit
          (.flash ((dst - 1) * 0x1000000) img))
    | c => (11, if c = 3 then 1 else 4, fun s => s.modBoot fun b => { b with dlFail := c })

/-- FLASH_WRITE_DONE (R527, R537). -/
def execFlashWriteDone (ok : Bool) (s : State) : Host.Outcome State Fault Refusal := live s fun s =>
  if s.boot.flash ≠ 1 then s else
  let d := match s.boot.flashImg with
    | some f => ({ f with src := s.boot.flashSlot }).data
    | none => []
  (s.modBoot fun b => { b with flash := if ok then 2 else 3, flashImg := none }).occ
    (if ok then 0x1203 else 0x1204) 0 0 d

/-- A plan exchange is in flight on a carrier: at the proposer (R219) or with a plan pending at this end (R218). -/
def State.planFlying (s : State) (x : Carrier) : Bool :=
  let p := (s.car x).plan
  p.inFlight.isSome || p.txPend.isSome || p.query.isSome

/-- What makes FW_ACTIVATE BUSY (R528). -/
def State.actBusy (s : State) : Bool :=
  s.planFlying .A || s.planFlying .B || !(s.ka .A).idle || !(s.ka .B).idle || (List.range 24).any s.calPass

/-- A proposal or a query without an answer fails at this end (R211, R528). -/
def State.planForce (s : State) (x : Carrier) : State :=
  let p := (s.car x).plan
  let fail (s : State) (e : Nat) : State := (s.bumpx .CAR_PLAN_FAIL x).planEv x 0x0704 e
  match p.prop, p.query with
  | some b, _ =>
    fail ((s.modPlan x fun p => { p with
      prop := none, sends := 0, query := none, valid := p.valid.filter fun m => recEpoch m.body != recEpoch b }).planUnqueue
        x 0x31) (recEpoch b)
  | none, some q => fail (s.modPlan x fun p => { p with query := none }) q.1
  | none, none => s

/-- Exchanges in flight fail at this end (R528). -/
def State.actForce (s : State) : State :=
  let s := (s.planForce .A).planForce .B
  let s := if (s.ka .A).idle then s else s.kaFail .A 0
  if (s.ka .B).idle then s else s.kaFail .B 0

/-- FW_ACTIVATE (R526, R528): action 0 restarts the management processor on the staged image, action 1 advances the
anti-rollback count. -/
def execFwActivate (fn : Fn) (r : Nat) (s : State) : Host.Outcome State Fault Refusal :=
  command fn r 0x0404 s fun d _ s =>
    let b := s.boot
    if byteAt d 16 = 1 then
      match b.running with
      | none => stop 10 0
      | some f =>
        let keys := (List.range f.key).filter fun k => !b.otpRevoked.contains k
        if f.svn ≤ b.otpSvn ∧ keys = [] then stop 10 0
        else (0, 0, fun s => s.modBoot fun b => { b with otpTarget := some (max b.otpSvn f.svn, keys) })
    else if b.staged.isNone then stop 10 0
    else if s.actBusy ∧ byteAt d 17 = 0 then stop 2 0
    else (0, 0, fun s =>
      s.actForce.mpStop.modBoot fun b => { b with activating := true, prev := b.running, running := none })

/-- Give the new image up and start the previous one again (R529). -/
def State.actRevert (s : State) (code : Nat) : State :=
  match s.boot.prev with
  | some f =>
    let e : BootFail := match s.boot.staged with
      | some g => ⟨3, code, g.svn, g.build⟩
      | none => ⟨3, code, 0, 0⟩
    (s.modBoot fun b => { b with reverted := some e }).bootRun f
  | none => s

/-- STAGED_IMAGE_CHECKED (R528, R529, R537): `intact`, the staging area was read whole. -/
def execStagedImageChecked (intact : Bool) (s : State) : Host.Outcome State Fault Refusal := live s fun s =>
  if !s.boot.activating ∨ s.boot.st ≠ 5 then s else
  let img := if intact then some s.boot.stagedBody else none
  match s.imgCheck img, s.boot.staged with
  | 0, some f => s.bootRun f
  | c, _ => ((s.bootFail 3 c s.boot.stagedBody).actRevert c).modBoot fun b => { b with staged := none, stagedBody := [] }

/-- ACTIVATION_TIMEOUT (R529): 1 s after its start the new firmware is not ready. -/
def execActivationTimeout (s : State) : Host.Outcome State Fault Refusal := live s fun s =>
  if s.boot.activating ∧ s.boot.st = 3 ∧ !s.boot.mpUp ∧ s.boot.reverted = none then s.actRevert 0 else s

/-- OTP_ADVANCE_DONE (R525, R526, R537). -/
def execOtpAdvanceDone (s : State) : Host.Outcome State Fault Refusal := live s fun s =>
  match s.boot.otpTarget with
  | some (n, keys) =>
    let s := s.modBoot fun b => { b with otpSvn := n, otpRevoked := b.otpRevoked ++ keys, otpTarget := none }
    s.occ 0x1206 0 0 (match s.boot.running with
      | some f => f.data
      | none => [])
  | none => s

/-! ### Identity and attestation (R530 to R533) -/

/-- The identity becomes unavailable (R531): reported when the firmware runs. -/
def State.idLost (s : State) : State := if s.boot.mpUp then s.raise 0x1207 0 0 else s

/-- IDENTITY_RECONSTRUCT (R530, R531): an attempt to reconstruct the PUF seed. -/
def execIdentityReconstruct (ok : Bool) (s : State) : Host.Outcome State Fault Refusal := live s fun s =>
  if s.boot.idState ≠ 0 ∨ !s.mem.starch then s
  else if ok then
    let seed := beBytes 32 Config.pufSeed.toNat
    let pub := beBytes 2592 (Config.mldsaPub seed).toNat
    s.modBoot fun b => { b with
      idState := 1, idSeed := seed, idPub := pub, ident := (beBytes 32 (Config.sha3x256 pub).toNat).take 8 }
  else
    let n := s.boot.idTries + 1
    if n < 3 then s.modBoot fun b => { b with idTries := n }
    else (s.modBoot fun b => { b with idTries := n, idState := 2 }).idLost

/-- The stream of the configuration digest (R532): each register with a staged field, by ascending offset. -/
def digestStream (r : Rd) : Bytes :=
  (List.range 0x1000000).flatMap fun w => match resolve .PF0 (4 * w) with
    | some k => if k.reg.staged then
        leBytes 4 (4 * w) ++ leBytes 4 (r k &&& fldMask k.reg fun f => f.stg.isSome).toNat else []
    | none => []

/-- The digest of register values. -/
def digestOf (r : Rd) : Bytes := beBytes 64 (Config.sha3x512 (digestStream r)).toNat

/-- The last complete digest; at power-on reset that of the reset values (R532). -/
def State.digest (s : State) : Bytes := if s.boot.cfgDigest = [] then digestOf resetWord else s.boot.cfgDigest

/-- DIGEST_RECOMPUTED (R532). -/
def execDigestRecomputed (s : State) : Host.Outcome State Fault Refusal := live s fun s =>
  if s.boot.cfgPending then
    s.modBoot fun b => { b with cfgPending := false, cfgDigest := digestOf s.rd, cfgDtime := b.cfgLast }
  else s

/-- Bytes 0 to 271 of a report (R533). -/
def State.attBody (s : State) (nonce : Bytes) : Bytes :=
  let f := s.boot.running.getD ⟨0, 0, 0, [], 0⟩
  leBytes 2 1 ++ [BitVec.ofNat 8 (b2n s.boot.cfgPending), BitVec.ofNat 8 s.boot.otpSvn] ++
    leBytes 4 (resetWord ⟨.GLB_ID, 0⟩).toNat ++ leBytes 4 f.build ++ [BitVec.ofNat 8 f.svn, 0, 0, 0] ++
    leBytes 8 s.ns ++ leBytes 8 s.boot.cfgDtime ++ padTo 32 nonce ++ padTo 8 s.boot.ident ++ List.replicate 8 0 ++
    beBytes 64 Config.romMeas.toNat ++ padTo 64 f.meas ++ padTo 64 s.digest

/-- ATTEST (R531, R533): a request that can be met is accepted, and completes when its report is signed. -/
def execAttest (fn : Fn) (r : Nat) (s : State) : Host.Outcome State Fault Refusal := live s fun s =>
  match s.running fn r 0x0405 with
  | none => s
  | some c =>
    if s.boot.attBusy.isSome then s.finish fn r 2 0
    else if s.boot.idState ≠ 1 then s.finish fn r 11 4
    else (s.modRing fn r fun q => { q with exec := some { c with accepted := true } }).modBoot fun b => { b with
      attBusy := some (fn, r, s.attBody (sub c.desc 16 32)) }

/-- The ring still has the accepted ATTEST in execution. -/
def State.attWaits (s : State) (fn : Fn) (r : Nat) : Bool :=
  (s.ring fn r).exec.any fun c => c.accepted && descOp c.desc == 0x0405

/-- ATTEST_SIGN_DONE (R533). -/
def execAttestSignDone (s : State) : Host.Outcome State Fault Refusal := live s fun s =>
  match s.boot.attBusy with
  | none => s
  | some (fn, r, b) =>
    let w := s.draw
    let s := w.1
    let sig := beBytes 4627 (Config.mldsaSign s.boot.idSeed b w.2).toNat
    let n := (s.boot.attCnt + 1) % 2 ^ 32
    let s := s.modBoot fun q => { q with
      attBusy := none, attCnt := n, attReport := b ++ sig ++ List.replicate 13 0 }
    if s.attWaits fn r then s.finish fn r 0 n else s

/-! ### Debug and JTAG (R535, R536) -/

/-- Place a new challenge (R536). -/
def State.dbgChallenge (s : State) : State :=
  let w := s.fresh 32
  w.1.modBoot fun b => { b with dbgChal := w.2 }

/-- DBG_CHALLENGE (R536). -/
def execDbgChallenge (s : State) : Host.Outcome State Fault Refusal := live s fun s => s.dbgChallenge

/-- Byte `i` of the token window. -/
def State.tokenByte (s : State) (i : Nat) : Byte := agetD s.boot.dbgToken i 0

/-- Every key-table entry is erased (R271, R536). -/
def State.keysErase (s : State) : State :=
  let cs := s.ciph.ch.map (·.1)
  let s := s.each cs fun s c => s.modCiph c fun h => { h with p0 := none, p1 := none }
  s.each cs fun s c =>
    let s := if (s.ciphCh c).tx.isSome then s.txKeyLost c else s
    (s.keyLost .A c).keyLost .B c

/-- A write of SUBMIT (R536): a token that verifies erases the secrets and then unlocks debug. -/
def State.dbgSubmit (s : State) : State :=
  let token := (List.range 4627).map s.tokenByte
  if s.boot.dbgChal = [] ∨ !Config.dbgVerify (s.boot.dbgChal ++ padTo 8 s.boot.ident) token then s else
  let s := s.modBoot fun b => { b with
    idState := 3, idSeed := [], staged := none, stagedBody := [], dbgUnlocked := true }
  let s := s.keysErase
  let s := if (s.ka .A).idle then s else s.kaFail .A 0
  let s := if (s.ka .B).idle then s else s.kaFail .B 0
  s.raise 0x1208 0 0

/-- DBG_SUBMIT (R271, R536, R537). -/
def execDbgSubmit (s : State) : Host.Outcome State Fault Refusal := live s fun s => s.dbgSubmit

/-- JTAG_INSTRUCTION (R535): 0 BYPASS, 1 IDCODE, 2 SAMPLE, 3 PRELOAD, 4 EXTEST, 5 EXTEST_PULSE, 6 EXTEST_TRAIN, 7 HIGHZ,
8 CLAMP, 9 processor debug, 10 internal scan. A locked instruction acts as BYPASS. -/
def execJtagInstruction (i : Fin 11) (s : State) : Host.Outcome State Fault Refusal := live s fun s =>
  s.modBoot fun b => { b with tap := if 9 ≤ i.val ∧ !b.dbgUnlocked then 0 else i.val }

/-- The boundary cells own the balls (R535). -/
def State.boundary (s : State) : Bool := decide (4 ≤ s.boot.tap ∧ s.boot.tap ≤ 8)

end Sys2Proof.Machine
end

