-- ==== Sys2Proof/Machine/Framer.lean ====
section
/-! DEFINITION. The framer's receive side and the message channel (chapter 08). -/

namespace Sys2Proof.Machine

/-! ### Bits of a frame -/

/-- The bytes of a window from bit `d` on, `d` below 8 (R2, R230). -/
def shiftBits (d : Nat) (b : Bytes) : Bytes :=
  match b with
  | [] => []
  | [a] => [a <<< d]
  | a :: c :: r => ((a <<< d) ||| (c >>> (8 - d))) :: shiftBits d (c :: r)

/-- One step of the scrambler x³¹ + x²⁸ + 1: the newest bit is the least significant (R234). -/
def prbs31 (g : BitVec 31) : BitVec 31 := (g <<< 1) ||| BitVec.ofNat 31 (b2n (g.getLsbD 30 != g.getLsbD 27))

/-- The next byte of the scrambler, first bit most significant, and the generator after it. -/
def prbsByte (g : BitVec 31) : BitVec 31 × Byte :=
  let h := iter 8 prbs31 g
  (h, h.setWidth 8)

/-- Scramble or descramble bytes (R234). -/
def scramble (g : BitVec 31) (b : Bytes) : Bytes :=
  match b with
  | [] => []
  | a :: r => (a ^^^ (prbsByte g).2) :: scramble (prbsByte g).1 r

/-- The scrambler's seed at offset 10 of a frame (R234). -/
def scrSeed (fn : Nat) : BitVec 31 := BitVec.ofNat 31 (0x40000000 + fn)

/-- The frame alignment word (R232). -/
def faw : Nat := 0x5E7A19C3

/-- HCRC of a header's bytes 4 to 8 (R232). -/
def hcrc (f : Bytes) : Nat := crc8 7 0 (sub f 4 5)

/-- A header is good when HCRC checks (R239). -/
def hdrGood (f : Bytes) : Bool := hcrc f == byteAt f 9

/-- XOR of bytes: a BIP-8 (R244). -/
def bip8 (b : Bytes) : Nat := (b.foldl (· ^^^ ·) 0).toNat

/-- Bytes of a frame that parity covers end here; `k` slots (R235, R244). -/
def frameLen (k : Nat) : Nat := 128 + 105 * k

/-- The frame that starts at bit `d` of a window, descrambled. -/
def unframe (w : RxWin) (d fn k : Nat) : Bytes :=
  let f := padTo (frameLen k) (shiftBits d w.bits)
  f.take 10 ++ scramble (scrSeed fn) (f.drop 10)

/-- Some bit of the frame came from an uncorrected block (R255). -/
def RxWin.errored (w : RxWin) : Bool := w.unc.any fun u => u.1 < u.2

/-- A byte range meets one that came from uncorrected blocks. -/
def RxWin.hit (w : RxWin) (a b : Nat) : Bool := w.unc.any fun u => u.1 < b && a < u.2

/-! ### Slots (R235) -/

/-- Owners of a slot map below `k`, ascending, each with its slots ascending. -/
def State.owners (s : State) (reg : RegId) (x : Carrier) (k : Nat) : List (Nat × List Nat) :=
  let m := (s.slotMap reg x).filter fun e => e.1 < k
  (m.foldl (fun l e => insSorted e.2 l) []).map fun c => (c, (m.filter fun e => e.2 == c).map (·.1))

/-- Bytes of a channel's slots in a frame. -/
def slotBytes (f : Bytes) (slots : List Nat) : Bytes := slots.flatMap fun i => sub f (128 + 105 * i) 105

/-- Slots of a carrier's active receive plan (R256). -/
def State.rxK (s : State) (x : Carrier) : Nat := recSlots (s.rxRecord s.rd x)

/-! ### Overhead of a received frame -/

/-- A trace receiver after the byte of frame `fn`; `n` bytes a cycle; none when the frame's header failed (R249, R250). -/
def Trace.step (t : Trace) (n fn : Nat) (b : Option Byte) : Trace :=
  let cut : Trace := { t with cyc := none, same := 0 }
  match b with
  | none => cut
  | some b =>
    let c : Option Bytes := if fn % n = 0 then some [b] else match t.cyc with
      | some l => if l.length = fn % n then some (l ++ [b]) else none
      | none => none
    match c with
    | some l =>
      if l.length < n then { t with cyc := c }
      else { t with cyc := none, last := l, same := if t.same ≠ 0 ∧ t.last = l then t.same + 1 else 1 }
    | none => cut

/-- A far-end count: 1 to 8, others ignored (R245). -/
def farCount (n : Nat) : Nat := if n ≤ 8 then n else 0

/-- One cell of the message channel (R252, R253). -/
def State.msgCell (s : State) (x : Carrier) (cell : Bytes) : State :=
  let c := byteAt cell 0
  let n := c % 8
  if n = 0 then s else
  let d := sub cell 1 n
  let s := if bit c 7 then match (s.car x).tr.msg with
      | some m => s.msgBad x 3 (byteAt m 2) (beAt m 0 2)
      | none => s
    else s
  match (if bit c 7 then some d else (s.car x).tr.msg.map (· ++ d)) with
  | none => s
  | some m =>
    if bit c 6 then s.modTr x fun t => { t with msg := none, whole1 := t.whole1 ++ [m] }
    else s.modTr x fun t => { t with msg := some m }

/-- The announcement of a frame (R215, R216, R226): runs of good fields with the same bytes 0 to 6, and of active epochs
that differ from the receive side's or equal it. -/
def State.annField (s : State) (x : Carrier) (f : Bytes) (ok : Bool) : State :=
  let a := f.take 7
  let good := ok && crc8 7 0 a == byteAt f 7
  let same := beAt f 0 2 == s.rxAct x
  s.modPlan x fun p => if good then { p with
      ann := a, annRun := if p.annRun ≠ 0 ∧ p.ann = a then p.annRun + 1 else 1
      mismRun := if same then 0 else p.mismRun + 1, eqRun := if same then p.eqRun + 1 else 0 }
    else { p with annRun := 0, mismRun := 0, eqRun := 0 }

/-- The tags a frame carries: those of channels 6 × FN to 6 × FN + 5; unchecked where the frame is errored (R254,
R265). -/
def State.tagField (s : State) (x : Carrier) (fn : Nat) (f : Bytes) (bad : Bool) : State :=
  s.each ((List.range 6).map (6 * fn + ·)) fun s c =>
    if c < 1024 ∧ ((s.ciphCh c).inp x).done.isSome then
      s.modIn x c fun i => { i with tag := some (if bad then none else some (sub f (16 * (c - 6 * fn)) 16)) }
    else s

/-- Add to a counter, unless by 0. -/
def State.addx (s : State) (r : RegId) (x : Carrier) (n : Nat) (i : Nat := 0) : State :=
  if n = 0 then s else s.bumpx r x n i

/-- A channel's part goes to the demapper or to Seam (R255, R261, R286). -/
def State.rxPart (s : State) (x : Carrier) (c fn : Nat) (bytes : Bytes) (bad ok frm : Bool) : State :=
  let map := byteAt bytes 3
  let d := s.decrypt x c map (bytes.drop 4) bad
  match placeOf d.1.rd c with
  | .one y =>
    if y ≠ x then d.1 else
    let s := d.1.modChan c fun h => { h with rxq := h.rxq ++ [⟨256 * (s.car x).tr.mfc + fn, d.2.1, d.2.2, map, d.2.2, frm⟩] }
    if ok then s.csfSeen c (bit (byteAt bytes 1) 2) else s
  | .none => d.1
  | _ => d.1.seamPart ⟨256 * (s.car x).tr.mfc + fn, x, c, d.2.1, d.2.2, map, bit (byteAt bytes 1) 2, frm⟩

/-- A channel's part of a frame: path overhead and payload (R237, R244, R245, R248, R250, R255). `par`: this frame and the one
before have passed R241. -/
def State.rxPath (s : State) (x : Carrier) (fn : Nat) (w : RxWin) (ok good par : Bool) (f : Bytes) (c : Nat)
    (slots : List Nat) : State :=
  let b := slotBytes f slots
  let bad := !good || slots.any fun i => w.hit (128 + 105 * i) (233 + 105 * i)
  let p := s.path x c
  let n := if par then popcount 8 (p.bip ^^^ byteAt b 0) else 0
  let ctl := byteAt b 1
  let s := (s.addx .CAR_TR_PBIP x n c).addx .CAR_TR_PBEI x (if ok then farCount (ctl / 16) else 0) c
  let s := if bad then s.bumpx .CAR_TR_CFE x 1 c else s
  let back := if s.ownsSlot .CAR_TR_SLOT_TX x c then n else 0
  let s := s.modPath x c fun p => { p with
    bip := bip8 b
    pend := min 4095 (p.pend + back), bip10 := p.bip10 + n
    rdiRun := if good && bit ctl 3 then p.rdiRun + 1 else 0, noRdi := if good && !bit ctl 3 then p.noRdi + 1 else 0
    trace := p.trace.step 16 fn (if good then b[2]? else none), csf := if ok then bit ctl 2 else p.csf }
  if (s.car x).tr.st = .aligned then s.rxPart x c fn b bad ok (!good || w.errored) else s

/-- What a frame in FRAME or ALIGNED brings (R244 to R256): `ok` a position passed, `good` its header too; `f` the frame,
descrambled. -/
def State.rxContent (s : State) (x : Carrier) (w : RxWin) (ok good : Bool) (f : Bytes) : State :=
  let k := s.rxK x
  let fn := (s.car x).tr.fn
  let al := (s.car x).tr.st == .aligned
  let bad := !good || w.errored
  let par := ok && (s.car x).tr.rbip.isSome
  let n := match ok, (s.car x).tr.rbip with
    | true, some v => popcount 8 (v ^^^ byteAt f 10)
    | _, _ => 0
  let ctl := byteAt f 11
  let s := (s.addx .CAR_TR_SBIP x n).addx .CAR_TR_SBEI x (if ok then farCount (ctl / 16) else 0)
  let s := if bad then s.bumpx .CAR_TR_ERRFRM x else s
  let short := decide (beAt f 6 3 < 1024 + 840 * k)
  let s := s.modTr x fun t => { t with
    rbip := if ok then some (bip8 (f.drop 10)) else none
    sbei := min 4095 (t.sbei + n), bip10 := t.bip10 + n
    rdiRun := if good && bit ctl 3 then t.rdiRun + 1 else 0, noRdi := if good && !bit ctl 3 then t.noRdi + 1 else 0
    trace := t.trace.step 64 fn (if good then f[12]? else none)
    shortRun := if al && good && short then t.shortRun + 1 else 0
    longRun := if al && good && !short then t.longRun + 1 else 0 }
  let s := s.annField x (sub f 16 8) ok
  let s := if al && ok then s.msgCell x (sub f 24 8) else s
  let s := if al then s.tagField x fn (sub f 32 96) bad else s
  let own := s.owners .CAR_TR_SLOT_RX x k
  let gap (e : Nat × Path) : Nat × Path := if own.any fun o => o.1 == e.1 then e else (e.1, e.2.restart)
  let s := s.modTr x fun t => { t with paths := t.paths.map gap }
  own.foldl (fun s o => s.rxPath x fn w ok good par f o.1 o.2) s

/-! ### Boundaries of the receive side -/

/-- Commits whose target count, if they name one, has come. -/
def State.targetDue (s : State) (p : Pend) (n : Nat) : Bool := match p.target with
  | some t => decide (t ≤ s.scopeCount n)
  | none => true

/-- A plan's receive commit becomes active only at its target; R31's late rule is not for plans (R221). -/
def State.rxReady (s : State) (x : Carrier) (mf : Bool) (p : Pend) : List Nat :=
  let n := 2 * x.num + 1
  let on := if p.plan.isSome then mf && p.kind == .mf && p.target == some (s.scopeCount n)
    else (p.kind == .tf || (mf && p.kind == .mf)) && s.targetDue p n
  if on then [n] else []

/-- A pending plan whose target has passed without its scope being aligned (R221). -/
def State.planMissed (s : State) (x : Carrier) (now : Nat) : State :=
  let p := (s.car x).plan
  match p.rxPend with
  | some m =>
    if m.target ≤ now then
      s.recover x (p.lastRx.getD ⟨s.rxRecord s.rd x, 0, 0, List.replicate 128 0⟩) m false
    else s
  | none => s

/-- A plan of the other carrier that changes slots here does so once its target has come (R224, R225). -/
def State.planSide (s : State) (y : Carrier) (now : Nat) : State :=
  match (s.car y.other).plan.side with
  | some (t, _) => if t ≤ now then s.sideApply y.other else s
  | none => s

/-- ALIGNED is entered inside multiframe `m`, with frame `fn` under way: the copies' invocations start with the next frame, and
the multiframe will be unchecked (R262, R265). -/
def State.ciphAligned (s : State) (x : Carrier) (m fn : Nat) : State :=
  s.each (s.owners .CAR_TR_SLOT_RX x 456) fun s o => s.modCiph o.1 fun h => h.modIn x fun i => { i with
    own := true, told := i.told && i.run.mfc == m, run := h.rxInv x m ((fn + 1) * (105 * o.2.length - 4)) true }

/-- A received frame starts in FRAME or ALIGNED: with FN 0 in ALIGNED, a received multiframe boundary (R25, R31,
R243). -/
def State.rxBoundary (s : State) (x : Carrier) : State :=
  let mf := (s.car x).tr.st == .aligned && (s.car x).tr.fn == 0
  let s := if mf then s.modTr x fun t => { t with mfc := t.mfc + 1, mfAt := s.ns } else s
  let s := s.applyReady (fun p => s.rxReady x mf p) (0, 0)
  if !mf then s else
  let m := (s.car x).tr.mfc
  let s := (((s.planMissed x m).recovDue x).watchCheck x).planSide x m
  let cs := (s.ciph.ch.map (·.1) ++ (s.owners .CAR_TR_SLOT_RX x 456).map (·.1)).foldl (fun l c => insSorted c l) []
  (s.each cs fun s c => s.ciphRxBoundary x c m).seamMf x

/-! ### Hunt and hold (R239 to R243) -/

/-- A new candidate; where four are followed it takes the place of the first with one match (R240). -/
def addCand (l : List Cand) (c : Cand) : List Cand :=
  if l.length < 4 then l ++ [c]
  else match l.find? (fun d => d.matched == 1) with
    | some d => l.erase d ++ [c]
    | none => l

/-- A window that may hold a header at bit `pos` of the stream, in HUNT (R240). -/
def State.huntFrame (s : State) (x : Carrier) (pos : Nat) (w : RxWin) : State :=
  let f := shiftBits 1 w.bits
  let hit := beAt f 0 4 == faw && hdrGood f
  let fn := byteAt f 4
  let next := beAt f 6 3
  s.modTr x fun t =>
    let live := t.cands.filter fun c => 3 ≤ c.matched || pos ≤ c.pos + c.next
    let here (c : Cand) : Bool := c.matched < 3 && c.pos + c.next == pos
    let goes (c : Cand) : Bool := hit && fn == (c.fn + 1) % 256
    let kept := live.filterMap fun c =>
      if !here c then some c
      else if goes c then some { c with pos := pos, matched := c.matched + 1, next := next, fn := fn, prev := some c.last, last := w }
      else none
    { t with cands :=
      if hit && !(live.any fun c => here c && goes c) then addCand kept ⟨pos, 1, next, fn, none, w⟩ else kept }

/-- The MFC group after the MFCB byte of a frame, none where no position passed the header check (R233, R239, R241, R242). -/
def Tr.group (t : Tr) (mfcb : Option Byte) : Tr :=
  let t := if t.fn = 0 then { t with
      good := (t.good.filter (·.2)).map fun g => (g.1, false), ready := t.ready.map (· + 1) } else t
  let g : Option Bytes := mfcb.bind fun b => if t.fn % 8 = 0 then some [b] else match t.grp with
    | some l => if l.length = t.fn % 8 then some (l ++ [b]) else none
    | none => none
  let t := { t with grp := g }
  match g with
  | some l =>
    if l.length < 8 then t
    else if crc8 7 0 (l.take 7) ≠ byteAt l 7 then { t with grpBad := 0 }
    else
      let v := beAt l 0 7
      match t.st with
      | .aligned => { t with grpBad := if v = t.mfc then 0 else t.grpBad + 1 }
      | _ => { t with
          good := t.good ++ [(v, true)]
          ready := if t.ready.isNone && t.good.any (fun u => !u.2 && v == u.1 + 1) then some v else t.ready }
  | none => t

/-- Where the header check passes in a window that begins one bit before the predicted position (R241). -/
def headerAt (b : Bytes) : Option Nat :=
  [1, 0, 2].find? fun d => popcount 32 (beAt (shiftBits d b) 0 4 ^^^ faw) ≤ 2

/-- A frame in FRAME or ALIGNED (R241, R242): the position, its header, then what starts and what the frame brings. -/
def State.holdFrame (s : State) (x : Carrier) (w : RxWin) : State :=
  let t := (s.car x).tr
  let at_ := headerAt w.bits
  let h := shiftBits (at_.getD 1) (w.bits.take 16)
  let ok := at_.isSome
  let good := ok && hdrGood h
  let want := (t.fn + 1) % 256
  let fn := if good && t.st != .aligned then byteAt h 4 else want
  let s := s.modTr x fun t => { t with
    fails := if ok then 0 else t.fails + 1, hpos := t.hpos + t.next + at_.getD 1 - 1
    fn := fn, hfn := if good then byteAt h 4 else t.hfn, next := if good then beAt h 6 3 else t.next
    fnBad := if t.st == .aligned && good && byteAt h 4 != want then t.fnBad + 1 else 0
    held := if t.st == .frame then t.held + 1 else 0 }
  let s := s.rxBoundary x
  let s := s.modTr x fun t => t.group (if ok then h[5]? else none)
  s.rxContent x w ok good (unframe w (at_.getD 1) fn (s.rxK x))

/-! ### The stream of information bits (R155, R165, R255) -/

/-- `n` information bits from position `a` on, out of the blocks from position `p` on, and the ranges of them that came
from uncorrected blocks. -/
def takeInfo (l : List (Nat × BitVec 40320 × Bool)) (p a n : Nat) : List Bool × List (Nat × Nat) :=
  match l with
  | [] => ([], [])
  | e :: r =>
    let k := 32 * rateKb e.1
    let lo := max a p
    let hi := min (a + n) (p + k)
    let rest := takeInfo r (p + k) a n
    if hi ≤ lo then rest
    else (((fecBits e.2.1 e.1).drop (lo - p)).take (hi - lo) ++ rest.1,
      if e.2.2 then (lo - a, hi - a) :: rest.2 else rest.2)

/-- Without the blocks that end at or before position `a`. -/
def dropInfo (l : List (Nat × BitVec 40320 × Bool)) (p a : Nat) : List (Nat × BitVec 40320 × Bool) × Nat :=
  match l with
  | [] => ([], p)
  | e :: r => if p + 32 * rateKb e.1 ≤ a then dropInfo r (p + 32 * rateKb e.1) a else (e :: r, p)

/-- `n` of State's information bits from one bit before position `q` on, and the ranges of them that came from uncorrected
blocks; none while they have not all come. The bit before the stream's first reads as 0. -/
def Fec.bitsAt (f : Fec) (q n : Nat) : Option (List Bool × List (Nat × Nat)) :=
  let t := takeInfo f.info f.infoAt (q - 1) (if q = 0 then n - 1 else n)
  let bits := if q = 0 then false :: t.1 else t.1
  let shift := b2n (q == 0)
  if bits.length < n then none else some (bits, t.2.map fun u => (u.1 + shift, u.2 + shift))

/-- The window for a header at position `q`: a whole frame, its length from its own NEXT where the header is good, else `next`,
and at least `k` slots (R241, R255, R256). Uncorrected ranges are of the frame's bytes, its fill among them. -/
def Fec.window (f : Fec) (q k next : Nat) (hunt : Bool) : Option RxWin :=
  (f.bitsAt q 130).bind fun h =>
  let b := packBits 17 h.1
  let d := if hunt then 1 else (headerAt b).getD 1
  let hd := shiftBits d b
  let found := if hunt then beAt hd 0 4 == faw else (headerAt b).isSome
  let len := if found && hdrGood hd then beAt hd 6 3 else if hunt then 0 else next
  let n := max (8 * frameLen k + 2) (d + len)
  (f.bitsAt q n).map fun t => ⟨packBits ((n + 7) / 8) t.1, t.2.filterMap fun u =>
    if d < u.2 ∧ u.1 < d + len then some ((u.1 - d) / 8, (min u.2 (d + len) - d + 7) / 8) else none⟩

/-- RX_FRAME_RECEIVED (R25, R240 to R256): the bits from one bit before the position where a header is looked for: in
HUNT bit `pos` of the stream, else the predicted position; with them the byte ranges of the frame that came from
uncorrected blocks. Without an operand the bits are those that the decoder delivered (R165). -/
def execRxFrameReceived (x : Carrier) (pos : Nat) (got : Option (Bytes × List (Nat × Nat))) (s : State) :
    Host.Outcome State Fault Refusal := live s fun s =>
  let f := (s.car x).fec
  let t := (s.car x).tr
  let hunt := t.st == .hunt
  let q := if hunt then pos else t.hpos + t.next
  if f.st ≠ .locked then s else
  let w := match got with
    | some g => some ⟨g.1, g.2⟩
    | none => f.window q (s.rxK x) t.next hunt
  match w with
  | none => s
  | some w =>
    let s := s.modFec x fun f =>
      let r := dropInfo f.info f.infoAt (q - 1)
      { f with info := r.1, infoAt := r.2 }
    if hunt then s.huntFrame x pos w else s.holdFrame x w

/-- Messages that waited for an open path go out. -/
def State.pathOpen (s : State) (x : Carrier) : State := (s.planFlush x).kaFlush x

/-- FRAME_FOUND (R240, R258): the candidate with 3 matches earliest in the stream. Its last frame is the first whose
overhead is used, its parity checked against the frame before. -/
def execFrameFound (x : Carrier) (s : State) : Host.Outcome State Fault Refusal := live s fun s =>
  let l := (s.car x).tr.cands.filter fun c => 3 ≤ c.matched
  match l with
  | [] => s
  | d :: r =>
    if (s.car x).tr.st ≠ .hunt ∨ (s.car x).fec.st ≠ .locked then s else
    let c := r.foldl (fun a b => if b.pos < a.pos then b else a) d
    let k := s.rxK x
    let s := s.modTr x fun t => { t with
      st := .frame, cands := [], fails := 0, fn := c.fn, hfn := c.fn, next := c.next, hpos := c.pos, held := 0 }
    let s := s.modPlan x fun p => { p with alignLost := false }
    let s := match c.prev with
      | some w =>
        let f := unframe w 1 ((c.fn + 255) % 256) k
        let s := s.modTr x fun t => { t with rbip := some (bip8 (f.drop 10)) }
        s.each (s.owners .CAR_TR_SLOT_RX x k) fun s o => s.modPath x o.1 fun p => { p with
          bip := bip8 (slotBytes f o.2) }
      | none => s
    let s := s.clear 0x0801 x.ev 0
    let s := s.modTr x fun t => t.group (shiftBits 1 c.last.bits)[5]?
    let s := s.rxContent x c.last true true (unframe c.last 1 c.fn k)
    ((s.planAlignBack x).pathOpen x).settle x

/-- MULTIFRAME_ALIGNED (R239, R258). -/
def execMultiframeAligned (x : Carrier) (s : State) : Host.Outcome State Fault Refusal := live s fun s =>
  let t := (s.car x).tr
  match t.ready with
  | some m =>
    if t.st ≠ .frame then s else
    let s := s.modTr x fun t => { t with
      st := .aligned, mfc := m, mfAt := s.ns - 160 * t.fn, good := [], ready := none, fnBad := 0, grpBad := 0, held := 0 }
    let s := s.ciphAligned x m t.fn
    let s := (s.clear 0x0803 x.ev 0).occ 0x080B x.ev 0
    let s := (s.planMissed x (s.car x).tr.mfc).watchCheck x
    (s.pathOpen x).settle x
  | none => s

/-- The proposer reacts to a lost frame alignment (R221, R222). -/
def State.planLostAlign (s : State) (x : Carrier) : State :=
  if (s.car x).plan.alignLost then (s.modPlan x fun p => { p with alignLost := false }).planAlignLost x else s

/-- OOF (R241, R258): 5 failed header checks in a row. -/
def execOof (x : Carrier) (s : State) : Host.Outcome State Fault Refusal := live s fun s =>
  if (s.car x).tr.st ≠ .hunt ∧ 5 ≤ (s.car x).tr.fails then ((s.frHunt x).planLostAlign x).settle x else s

/-- LOF (R258): OOF stood for 1 ms, or FRAME or ALIGNED was held for 1 ms. -/
def execLof (x : Carrier) (s : State) : Host.Outcome State Fault Refusal := live s fun s =>
  if s.stands 0x0801 x.ev 0 then s.raise 0x0802 x.ev 0
  else if (s.car x).tr.st ≠ .hunt then s.clear 0x0802 x.ev 0
  else s

/-- LOSS_OF_MULTIFRAME (R242, R258): the framer keeps frame alignment and takes FN from the headers; or FRAME was held
for 8 multiframes. -/
def execLossOfMultiframe (x : Carrier) (s : State) : Host.Outcome State Fault Refusal := live s fun s =>
  let t := (s.car x).tr
  if t.st = .aligned ∧ (3 ≤ t.fnBad ∨ 2 ≤ t.grpBad) then
    let s := (s.leaveAligned x).modTr x fun t => { t with
      st := .frame, fn := t.hfn, fnBad := 0, grpBad := 0, grp := none, good := [], ready := none, held := 0
      shortRun := 0, longRun := 0 }
    (s.raise 0x0803 x.ev 0).settle x
  else if t.st = .frame ∧ 2048 ≤ t.held then s.raise 0x0803 x.ev 0
  else s

/-! ### Runs, intervals, messages -/

/-- RDI_RECEIVED (R248): 5 good headers in a row with or without section RDI, or a channel's path RDI. -/
def execRdiReceived (x : Carrier) (ch : Option (Fin 1024)) (s : State) : Host.Outcome State Fault Refusal :=
  live s fun s =>
  match ch with
  | none =>
    if 5 ≤ (s.car x).tr.rdiRun then s.raise 0x0804 x.ev 0
    else if 5 ≤ (s.car x).tr.noRdi then (s.clear 0x0804 x.ev 0).pathOpen x
    else s
  | some c =>
    if 5 ≤ (s.path x c).rdiRun then s.raise 0x0808 x.ev c
    else if 5 ≤ (s.path x c).noRdi then s.clear 0x0808 x.ev c
    else s

/-- TRACE_ACCEPTED (R249, R250): 3 whole cycles in a row carried the same section trace, or a channel's path trace. -/
def execTraceAccepted (x : Carrier) (ch : Option (Fin 1024)) (s : State) : Host.Outcome State Fault Refusal :=
  live s fun s =>
  match ch with
  | none =>
    if (s.car x).tr.trace.same < 3 then s else
    let s := s.modTr x fun t => { t with trace := { t.trace with acc := t.trace.last, has := true } }
    (s.traceEval x none).settle x
  | some c =>
    if (s.path x c).trace.same < 3 then s else
    let s := s.modPath x c fun p => { p with trace := { p.trace with acc := p.trace.last, has := true } }
    (s.traceEval x (some c)).settle x

/-- Runs of a degraded defect after an interval: bad and good ones in a row (R246). -/
def degRuns (whole : Bool) (thr n : Nat) (r : Nat × Nat) : Nat × Nat :=
  if !whole || thr == 0 then (0, 0) else if thr ≤ n then (r.1 + 1, 0) else (0, r.2 + 1)

/-- DEG_INTERVAL (R246): the end of 10 ms of device time. It judges every channel copy of which the framer keeps errors or runs,
with slots or without. -/
def execDegInterval (x : Carrier) (s : State) : Host.Outcome State Fault Refusal := live s fun s =>
  let t := (s.car x).tr
  let n := max 1 (s.cfx F.CAR_TR_RX_CTL_DEG_N x)
  let judge (s : State) (code i : Nat) (r : Nat × Nat) : State :=
    if n ≤ r.1 then s.raise code x.ev i else if n ≤ r.2 then s.clear code x.ev i else s
  let r := degRuns t.whole (s.cfx F.CAR_TR_RX_DEG_SDEG_THR x) t.bip10 (t.badRun, t.goodRun)
  let s := s.modTr x fun t => { t with bip10 := 0, badRun := r.1, goodRun := r.2, whole := t.st == .aligned }
  let s := judge s 0x0806 0 r
  let cs := ((s.car x).tr.paths.map (·.1) ++ (s.owners .CAR_TR_SLOT_RX x 456).map (·.1)).foldl (fun l c => insSorted c l) []
  let s := s.each cs fun s c =>
    let p := s.path x c
    let r := degRuns t.whole (s.cfx F.CAR_TR_RX_DEG_PDEG_THR x) p.bip10 (p.badRun, p.goodRun)
    judge (s.modPath x c fun p => { p with bip10 := 0, badRun := r.1, goodRun := r.2 }) 0x080C c r
  s.chEvalAll

/-- FRAME_TOO_SHORT (R256). -/
def execFrameTooShort (x : Carrier) (s : State) : Host.Outcome State Fault Refusal := live s fun s =>
  let t := (s.car x).tr
  if 3 ≤ t.shortRun then (s.raise 0x0807 x.ev 0).settle x
  else if 3 ≤ t.longRun then (s.clear 0x0807 x.ev 0).settle x
  else s

/-- MSG_SEND (R251, R252, R494). -/
def execMsgSend (fn : Fn) (r : Nat) (s : State) : Host.Outcome State Fault Refusal :=
  command fn r 0x0108 s fun d b s =>
    let x := carOf (byteAt d 16)
    let t := (s.car x).tr
    let n := t.yours.length + (match t.sending with
      | some (false, _) => 1
      | _ => 0)
    let body := padTo (leAt d 18 2) b
    if byteAt body 0 < 0x80 then stop 11 4
    else if 16 ≤ n then stop 2 0
    else (0, 0, fun s => s.modTr x fun t => { t with yours := t.yours ++ [wire body] })

/-- MESSAGE_RECEIVED (R253): the message whose last cell came first. A good message of Plaile's own is acted on by the
row of its type. -/
def execMessageReceived (x : Carrier) (s : State) : Host.Outcome State Fault Refusal := live s fun s =>
  match (s.car x).tr.whole1 with
  | [] => s
  | m :: r =>
    let p := (s.modTr x fun t => { t with whole1 := r }).msgIn x false m
    if p.2 then p.1.bumpx64 .CAR_TR_MSG_RX_LO x else p.1

end Sys2Proof.Machine
end

