-- ==== Sys2Proof/Machine/FrameTx.lean ====
section
/-! DEFINITION. The transmit side of the transport frame (chapter 08), and the encoder's count of information bits (R171,
R228). -/

namespace Sys2Proof.Machine

/-! ### Information bits taken by the encoder (R171, R228, R229) -/

/-- Reduce a fraction. -/
def qNorm (a : Nat × Nat) : Nat × Nat :=
  let g := Nat.gcd a.1 a.2
  if g = 0 then a else (a.1 / g, a.2 / g)

/-- Sum of two fractions. -/
def qAdd (a b : Nat × Nat) : Nat × Nat := qNorm (a.1 * b.2 + b.1 * a.2, a.2 * b.2)

/-- Product of two fractions. -/
def qMul (a b : Nat × Nat) : Nat × Nat := qNorm (a.1 * b.1, a.2 * b.2)

/-- I of R205 at a code rate, with the pilot spacing and entropies of the symbol frames being sent, in bit/s. -/
def State.txInfoRate (s : State) (x : Carrier) (rate : Nat) : Nat × Nat :=
  infoRate rate (payloadP (s.cfx F.CAR_TX_CTL_SC_LOG2 x) (s.car x).tx.pilot) ((s.car x).tx.ents.map bandB)
    (s.cfx F.CAR_TX_RATE_KBD x)

/-- X grows for `dt` (2⁻¹⁶ ns) at the rate in force; a new code rate starts with the block it waits for (R171, R228). -/
def Tr.advance (t : Tr) (i : Nat → Nat × Nat) (dt : Nat) : Tr :=
  let n := qAdd (t.xn, t.xd) (qMul (i t.encRate) (dt, 65536 * 10 ^ 9))
  match t.encNext with
  | none => { t with xn := n.1, xd := n.2 }
  | some r =>
    if n.1 < t.blk0 * n.2 then { t with xn := n.1, xd := n.2 }
    else
      let ratio := qMul (i r) ((i t.encRate).2, (i t.encRate).1)
      let m := qAdd (t.blk0, 1) (qMul (n.1 - t.blk0 * n.2, n.2) ratio)
      { t with xn := m.1, xd := m.2, encRate := r, encNext := none }

/-- Count a running chain's information bits up to a point of the running frame (2⁻¹⁶ ns). -/
def State.txCount (s : State) (x : Carrier) (upTo : Nat) : State :=
  if (s.car x).tx.chain then
    let i := s.txInfoRate x
    s.modTr x fun t => { t.advance i (upTo - t.xAt) with xAt := max t.xAt upTo }
  else s

/-- ⌊X⌋: bits 0 to ⌊X⌋ have been taken, so the next one has the number ⌊X⌋ + 1. -/
def Tr.taken (t : Tr) : Nat := t.xn / t.xd

/-- A committed code rate waits for the first block that starts with or after the first bit of this frame (R171). -/
def State.txRateWait (s : State) (x : Carrier) : State :=
  let r := s.cfx F.CAR_FEC_TX_RATE x
  s.modTr x fun t =>
    if t.encNext.getD t.encRate = r then t
    else if t.encNext.isSome then { t with encNext := some r }
    else
      let l := 32 * rateKb t.encRate
      { t with encNext := some r, blk0 := t.blk0 + (t.taken + l - t.blk0) / l * l }

/-- The same for the encoder's schedule: the rate starts with the block at that information bit (R171). -/
def State.txSched (s : State) (x : Carrier) : State :=
  let t := (s.car x).tr
  match t.encNext with
  | some r => s.modTx x fun c => { c with sched := (t.blk0, r) :: c.sched.filter fun e => e.1 < t.blk0 }
  | none => s

/-! ### Building a frame -/

/-- The seven bytes of a count and their CRC: an MFC group (R233). -/
def mfcGroup (m : Nat) : Bytes :=
  let b := beBytes 7 m
  b ++ [BitVec.ofNat 8 (crc8 7 0 b)]

/-- The announcement (R215). -/
def State.annBytes (s : State) (x : Carrier) : Bytes :=
  let b := beBytes 2 (s.txAct x) ++ match (s.car x).plan.txPend with
    | some m => beBytes 2 (recEpoch m.body) ++ beBytes 2 m.target ++ [1]
    | none => [0, 0, 0, 0, 0]
  b ++ [BitVec.ofNat 8 (crc8 7 0 b)]

/-- The next cell of the message channel (R251, R252). -/
def Tr.cell (t : Tr) : Tr × Bytes :=
  let t := if t.sending.isSome then t else match t.own, t.yours with
    | m :: r, _ => { t with own := r, sending := some (true, m, false) }
    | [], m :: r => { t with yours := r, sending := some (false, m, false) }
    | [], [] => t
  match t.sending with
  | none => (t, List.replicate 8 0)
  | some (own, m, begun) =>
    let d := m.take 7
    let rest := m.drop 7
    let c := (if begun then 0 else 128) + (if rest = [] then 64 else 0) + d.length
    ({ t with sending := if rest = [] then none else some (own, rest, true) }, BitVec.ofNat 8 c :: padTo 7 d)

/-- The tag-lane bytes of a frame (R254): a channel that was not encrypted on this carrier in the multiframe before has a tag of
zeros. -/
def State.tagLane (s : State) (x : Carrier) (fn : Nat) : Bytes :=
  (List.range 6).flatMap fun i =>
    let c := 6 * fn + i
    if c < 1024 then padTo 16 (s.tagOut x c) else List.replicate 16 0

/-- A mapped channel of the running frame: number, payload, MAP byte. -/
abbrev Mapped := Nat × Bytes × Nat

/-- Map every channel that owns transmit slots (R317, R318). -/
def State.mapAll (s : State) (fn : Nat) : State × List Mapped :=
  let cs := (s.owners .CAR_TR_SLOT_TX .A 456 ++ s.owners .CAR_TR_SLOT_TX .B 456).foldl (fun l o => insSorted o.1 l) []
  cs.foldl (fun a c =>
    let m := a.1.mapFrame c fn
    (m.1, a.2 ++ [(c, m.2.1, m.2.2)])) (s, [])

/-- The payload that a carrier carries of a channel: a bonded channel's part on A comes first (R300). -/
def State.partOf (s : State) (x : Carrier) (c : Nat) (p : Bytes) : Bytes :=
  let a := 105 * slotsOf s.rd c .A - 4
  match placeOf s.rd c, x with
  | .bonded, .A => p.take a
  | .bonded, .B => p.drop a
  | _, _ => p

/-- A channel's bytes in its slots on a carrier: channel overhead, then the encrypted payload (R237, R244, R245, R248,
R250, R270, R322). Only a frame that is sent takes from the far-end count. -/
def State.txPath (s : State) (x : Carrier) (fn : Nat) (m : Mapped) (n : Nat) : State × Bytes :=
  let c := m.1
  let e := s.encrypt x c m.2.2 (padTo (105 * n - 4) (s.partOf x c m.2.1))
  let s := e.1
  let p := s.path x c
  let count := min 8 p.pend
  let csf := (s.chan c).csfTx || (s.ciphCh c).zero
  let ctl := 16 * count + 8 * b2n (s.psfHere x c) + 4 * b2n csf
  let tr := (s.regBytes .CAR_TR_PTRACE_TX x (4 * c) 4).getD (fn % 16) 0
  let b := [BitVec.ofNat 8 p.txBip, BitVec.ofNat 8 ctl, tr, BitVec.ofNat 8 m.2.2] ++ e.2
  (if (s.car x).tx.chain then s.modPath x c fun p => { p with txBip := bip8 b, pend := p.pend - count } else s, b)

/-- Channels without bytes in this frame: the parity of no bytes, and without transmit slots no far-end count (R244, R245). -/
def State.txGap (s : State) (x : Carrier) : State :=
  let gap (c : Nat) (p : Path) : Path :=
    if s.ownsSlot .CAR_TR_SLOT_TX x c then (if (s.car x).tx.chain then p else { p with txBip := 0 })
    else { p with txBip := 0, pend := 0 }
  s.modTr x fun t => { t with paths := t.paths.map fun e => (e.1, gap e.1 e.2) }

/-- The bytes of `k` slots: each owner's bytes fill its slots in ascending order, unused slots are zero (R235). -/
def fillFrame (own : List (Nat × List Nat)) (data : List (Nat × Bytes)) (k : Nat) : Bytes :=
  (List.range k).flatMap fun i =>
    match own.find? fun o => o.2.contains i with
    | some o =>
      let j := (o.2.takeWhile (· != i)).length
      match data.find? fun d => d.1 == o.1 with
      | some d => padTo 105 (sub d.2 (105 * j) 105)
      | none => List.replicate 105 0
    | none => List.replicate 105 0

/-- The frame that starts at this tick, with NEXT and HCRC still zero and not yet scrambled (R232). A running chain
takes it up; the parity of the frame before is that of no bytes where there was none. -/
def State.buildFrame (s : State) (x : Carrier) (fn : Nat) (maps : List Mapped) : State :=
  let k := recSlots (s.txRecord s.rd x)
  let own := s.owners .CAR_TR_SLOT_TX x k
  let q := own.foldl (fun (a : State × List (Nat × Bytes)) o =>
    match maps.find? fun m => m.1 == o.1 with
    | some m =>
      let p := a.1.txPath x fn m o.2.length
      (p.1, a.2 ++ [(o.1, p.2)])
    | none => a) (s, [])
  let s := q.1.txGap x
  if !(s.car x).tx.chain then s else
  let t := (s.car x).tr
  let rdi := s.ssf x || s.cfx F.CAR_TR_TX_CTL_RDI_FORCE x == 1
  let sbip := (if t.cur.isSome then t.sbip else 0) ^^^ s.cfx F.CAR_TR_TX_CTL_SBIP_INJ x
  let count := min 8 t.sbei
  let cell := t.cell
  let head := beBytes 4 faw ++ [BitVec.ofNat 8 fn, (mfcGroup s.sys.txMfc).getD (fn % 8) 0, 0, 0, 0, 0]
  let ovh := [BitVec.ofNat 8 sbip, BitVec.ofNat 8 (16 * count + 8 * b2n rdi),
    (s.regBytes .CAR_TR_STRACE_TX x 0 16).getD (fn % 64) 0, 0, 0, 0] ++ s.annBytes x ++ cell.2 ++ s.tagLane x fn
  let body := ovh ++ fillFrame own q.2 k
  let c := t.taken
  s.modTr x fun _ => { cell.1 with
    sbei := t.sbei - count, rdiTx := rdi, sbip := bip8 body, cur := some (c, head ++ body) }

/-- Information bits for the encoder, in stream order (R228). -/
def State.txInfo (s : State) (x : Carrier) (l : List Bool) : State := s.modTx x fun t => { t with info := t.info ++ l }

/-- The frame that ends at this tick goes out: NEXT counts the bits taken since it began; header, HCRC, then everything
scrambled to the end of the fill (R228, R230, R232, R234). Bits past the end of the last byte are zero. Bits 0 to ⌊X⌋,
which the encoder took before the first frame, are fill, as zeros (R228, R229; DESIGN CHOICE, log 56). -/
def State.sendFrame (s : State) (x : Carrier) : State :=
  let t := (s.car x).tr
  match t.cur with
  | none => if (s.car x).tx.chain then s.txInfo x (List.replicate (t.taken + 1) false) else s
  | some (c, b) =>
    let next := t.taken - c
    let h := b.take 6 ++ beBytes 3 next
    let n := (next + 7) / 8
    let rest := scramble (scrSeed (byteAt b 4)) (padTo (n - 10) (b.drop 10))
    let f := h ++ [BitVec.ofNat 8 (hcrc h)] ++ rest
    let f := if next % 8 = 0 then f else lmod f (n - 1) fun v => v &&& BitVec.ofNat 8 (256 - 2 ^ (8 - next % 8))
    (s.emit (.frame x f)).txInfo x ((f.flatMap byteBits).take next)

end Sys2Proof.Machine
end

