-- ==== Sys2Proof/Machine/TxPath.lean ====
section
/-! DEFINITION. The transmit chain from the information bits to the DACs (R156, R158, R179 to R193, R198, R199, R329 to
R335): encoder, mapper, multiplexer with Tack, pre-compensation, pre-emphasis, skew, ramp, back-off and clipping. -/

namespace Sys2Proof.Machine

/-! ### Encoder (R155 to R158, R171) -/

/-- The code rate of the block that starts at an information bit. -/
def rateFrom (sched : List (Nat × Nat)) (pos : Nat) : Nat :=
  match sched.find? fun e => decide (e.1 ≤ pos) with
  | some e => e.2
  | none => 0

/-- The encoder takes whole blocks, at most `fuel` of them, and puts them out in stream order. -/
def TxCh.encodeGo (t : TxCh) (fuel : Nat) : TxCh :=
  match fuel with
  | 0 => t
  | fuel + 1 =>
    let rate := rateFrom t.sched t.encPos
    let k := 32 * rateKb rate
    if t.info.length < k then t else
    let b := fecEncode rate (t.info.take k) t.encPrev
    TxCh.encodeGo { t with info := t.info.drop k, encPos := t.encPos + k, encPrev := ((b, rate) :: t.encPrev).take 2
                           coded := t.coded ++ fecStream b } fuel

/-- The encoder takes every whole block of the bits that wait. -/
def TxCh.encode (t : TxCh) : TxCh := t.encodeGo (t.info.length / 26880 + 1)

/-! ### Mapper (R113 to R116, R182 to R186, R199) -/

/-- Payload symbols of a subcarrier in a symbol frame. -/
def TxFrame.payload (f : TxFrame) : Nat := payloadP (Nat.log2 f.sc) f.pilot

/-- Label bits of one symbol time of all subcarriers: 4 b of each (R159). -/
def TxFrame.width (f : TxFrame) : Nat := sumN (f.ents.map fun e => 4 * bandB e)

/-- s_i for P_ref of one (R186). -/
def txScale (e : Nat) (gain : Int) : Int :=
  let m := frat (meanSquare (bandB e) (cdfs e)) 65536
  fsqrt (fdiv (fpow10 (frat gain 640)) (2 * m))

/-- The payload of subcarrier `i` on polarisation `p`, of `l` label bits in the order of R140. -/
def TxFrame.pay (f : TxFrame) (l : List Bool) (i p : Nat) : List Cx :=
  let e := f.ents.getD i 256
  let b := bandB e
  let c := cdfs e
  let s := txScale e (f.gains.getD i 0)
  let off := sumN ((f.ents.take i).map fun e => 4 * bandB e) + 2 * b * p
  let u (d : Nat) := dither i p d f.payload
  let u0 := u 0
  let u1 := u 1
  (List.range f.payload).map fun j =>
    let at_ := (l.drop (j * f.width + off)).take (2 * b)
    (mapLevel b c (labelOf (at_.take b)) (u0.getD j 0) * s, mapLevel b c (labelOf (at_.drop b)) (u1.getD j 0) * s)

/-- Put payload in the places that known symbols leave; `a` is the amplitude of a known component. -/
def placeSyms (known : List (Option (Int × Int))) (a : Int) (pay : List Cx) : List Cx :=
  match known with
  | [] => []
  | some s :: r => (s.1 * a, s.2 * a) :: placeSyms r a pay
  | none :: r => pay.headD cx0 :: placeSyms r a pay.tail

/-- The symbols of a frame for its label bits. -/
def TxFrame.map (f : TxFrame) (l : List Bool) : TxMapped :=
  ⟨f, (List.range f.sc).map fun i =>
    let e := f.ents.getD i 256
    let a := fmul (txScale e (f.gains.getD i 0)) (knownAmp e)
    let pol (p : Nat) := placeSyms (knownSyms f.sc (pilotD f.pilot) i p) a (f.pay l i p)
    (pol 0).zip (pol 1)⟩

/-! ### Tack waveform (R329, R330, R333, R335) -/

/-- An up-chirp of value `v` at chip `num / den` of its symbol; past the chip where its frequency reaches the edge of the
band it has wrapped once. -/
def chirp (sf v : Nat) (down : Bool) (num : Int) (den : Nat) : Cx :=
  let n := 2 ^ sf
  let past : Int := num - (n - v : Nat) * den
  let z := cturn (num * num + (2 * (v : Int) - n) * num * den - (if 0 < past then 2 * n * den * past else 0)) (2 * n * den * den)
  if down then conj z else z

/-- Symbol values of `count` symbols from bits, each the Gray code of its bits. -/
def graySyms (sf : Nat) (l : List Bool) (count : Nat) : List Nat :=
  match count with
  | 0 => []
  | count + 1 =>
    let c := l.take sf
    let w := labelOf (c ++ List.replicate (sf - c.length) false)
    (w ^^^ (w / 2)) :: graySyms sf (l.drop sf) count

/-- The symbols of a burst's frame as value and down-chirp: preamble, sync, down-chirps, header, payload. -/
def tkSyms (sf rep sync : Nat) (bytes : Bytes) : List (Nat × Bool) :=
  let n := 2 ^ sf
  let up (l : List Nat) : List (Nat × Bool) := l.map fun v => (v, false)
  let body (b : Bytes) : List Nat := graySyms sf (b.flatMap byteBits) ((8 * b.length + sf - 1) / sf)
  (List.replicate 10 (0, false) ++ up [sync / 16 * n / 16, sync % 16 * n / 16] ++ [(0, true), (0, true)] ++
    up (body (bytes.take 6)) ++ up (body (bytes.drop 6))).flatMap fun e => List.replicate (2 ^ rep) e

/-- A burst at `num / den` (2⁻¹⁶ ns) after its start: its amplitude and its chirp. -/
def Burst.wave (b : Burst) (sync : Nat) (num : Int) (den : Nat) : Int × Cx :=
  let r : Int := b.ramp * 65536000 * den
  let t : Int := (b.stop - b.start : Nat) * den
  let n := 2 ^ b.sf
  let chips (v : Int) : Cx := chirp b.sf 0 false (v % (n * 8192 * den)) (8192 * den)
  if num < 0 ∨ t ≤ num then (0, cx0)
  else if num < r then (rampAmp (fdiv num r), chips num)
  else if num < t - r then
    let v := num - r
    let sym := (v / (n * 8192 * den)).toNat
    let e := (tkSyms b.sf b.rep sync b.bytes).getD sym (0, false)
    (fone, chirp b.sf e.1 e.2 (v % (n * 8192 * den)) (8192 * den))
  else (rampAmp (fdiv (t - num) r), chips (num - (t - r)))

/-! ### Multiplexer (R118, R188, R189, R199) -/

/-- Samples of a symbol frame. -/
def sfLen : Nat := 81920

/-- A subcarrier's carrier at sample `n` of its frame; a frame holds a whole number of its periods. -/
def TxFrame.tone (f : TxFrame) (i : Nat) (n : Int) : Cx :=
  let q := scFreq f.sc f.roll f.kbd i
  cturn (q.1 * n * 4) (q.2 * 5 * f.kbd * 1000)

/-- What a frame's symbols give at sample `n` counted from its start, 32 symbols on each side: X and Y. -/
def TxMapped.at (m : TxMapped) (n : Int) : Cx × Cx :=
  let f := m.cfg
  let w : Int := 5 * f.sc
  (indexed m.syms).foldl (fun (a : Cx × Cx) e =>
    let j0 := 4 * n / w - 31
    let v := (List.range 64).foldl (fun (v : Cx × Cx) (k : Nat) =>
      let j := j0 + k
      if j < 0 then v else
      let s := e.2.getD j.toNat (cx0, cx0)
      let h := rrc f.roll (4 * n - j * w) (5 * f.sc)
      (cadd v.1 (cscale h s.1), cadd v.2 (cscale h s.2))) (cx0, cx0)
    let c := f.tone e.1 n
    (cadd a.1 (cmul v.1 c), cadd a.2 (cmul v.2 c))) (cx0, cx0)

/-- TEST 2: a tone at each f_i with the subcarrier's mean power, X and Y in phase (R199). -/
def TxFrame.tones (f : TxFrame) (n : Nat) : Cx × Cx :=
  let z := csum ((List.range f.sc).map fun i => cscale (fsqrt (fpow10 (frat (f.gains.getD i 0) 640))) (f.tone i n))
  (z, z)

/-- Mean power of the multiplexed data on a polarisation. -/
def TxFrame.power (f : TxFrame) : Int := fsum (f.gains.map fun g => fpow10 (frat g 640))

/-- The burst that a frame sends, at its sample `n`: a live one only while the output is live, since its amplitude follows
that of the data, and one alone only while it is not (R332, R334, R198). -/
def TxFrame.tack (f : TxFrame) (now : Option Burst) (live : Bool) (sync n : Nat) : Int × Cx :=
  match (f.burst.orElse fun _ => now).filter fun b => b.alone != live with
  | some b => b.wave sync (((f.start : Int) - b.start) * (5 * f.kbd : Nat) + (n * 4 * 1000000 * 65536 : Nat)) (5 * f.kbd)
  | none => (0, cx0)

/-- Whether the output sends data, Tack alone, or nothing (R188, R194, R198). -/
def TxSt.live (st : TxSt) : Bool := st == .rampUp || st == .on || st == .rampDown

/-- Samples of a frame past the multiplexer: data with Tack at `level` pinches while the output is live, else Tack. -/
def muxFrame (prev cur next : TxMapped) (live : Bool) (tack : Nat → Int × Cx) (level : Int) : List (Cx × Cx) :=
  let g := fsqrt (fmul cur.cfg.power (fpow10 (frat level 640)))
  (List.range sfLen).map fun n =>
    let t := tack n
    if !live then (t.2, t.2) else
    let d := if cur.cfg.test = 2 then cur.cfg.tones n else
      let a := prev.at (n + sfLen)
      let b := cur.at n
      let c := next.at ((n : Int) - sfLen)
      (cadd (cadd a.1 b.1) c.1, cadd (cadd a.2 b.2) c.2)
    let k := cscale (fmul g t.1) t.2
    (cadd d.1 k, cadd d.2 k)

/-! ### Pre-compensation, pre-emphasis, skew (R190 to R192) -/

/-- N_pc of R190. -/
def blockPc (kbd : Nat) : Nat := if 128000000 < kbd then 16384 else 8192

/-- Pre-compensated samples: `tail` holds the 11/16 of a block before them, and the middle 5/16 of each block is kept
(DESIGN CHOICE, log 56). -/
def precomp (d g : Int) (kbd : Nat) (tail cur : List Cx) : List Cx :=
  let n := blockPc kbd
  let step := 5 * n / 16
  let l := tail.drop (tail.length - 11 * n / 16) ++ cur
  (List.range (cur.length / step)).flatMap fun k =>
    let y := spectral (fun b => dispPhase d g (binNo n b * (5 * kbd * 1000 : Nat)) (4 * n)) ((l.drop (k * step)).take n)
    (y.drop (11 * n / 32)).take step

/-- The 64-tap filter of a DAC, taps in 2⁻¹⁴, over samples of which the first 63 are those before (R191); the output is
8 samples late. -/
def preEmph (h : List Int) (l : List Int) (n : Nat) : Int :=
  fsum ((indexed h).map fun e => e.2 * tapAt l ((n : Int) + 63 - e.1)) / 16384

/-- A DAC's sample past the skew stage: the delay moves from `old` to `new` (1/64 ps) over the frame; 64 samples late
(R192). The first 128 samples of `l` are those before. -/
def skewAt (kbd : Nat) (old new : Int) (l : List Int) (n : Nat) : Int :=
  let d := 256000000000 * sfLen
  interp l (((64 + n : Nat) : Int) * (d : Nat) - (old * sfLen + (new - old) * n) * (5 * kbd : Nat)) d

/-- The last `n` elements of a list, with zeros before it where it is shorter. -/
def lastN {α : Type} (n : Nat) (z : α) (l : List α) : List α :=
  List.replicate (n - l.length) z ++ l.drop (l.length - n)

/-! ### Stage 7 and 8 (R193, R194, R198, R199) -/

/-- Position of the output's ramp `dt` (2⁻¹⁶ ns) after now. -/
def TxCh.rampIn (t : TxCh) (pos dt : Int) : Int :=
  let d := frat dt (65536000 * max 1 t.rampUs)
  match t.st with
  | .on => fone
  | .rampUp => min fone (pos + d)
  | .rampDown => max 0 (pos - d)
  | .off | .squelched | .forced => 0

/-- Root of the mean square. -/
def rms (l : List Int) : Int := if l = [] then 0 else fsqrt (fsum (l.map fun v => fmul v v) / l.length)

/-- The largest magnitude. -/
def peak (l : List Int) : Int := l.foldl (fun a v => max a v.natAbs) 0

/-- A DAC code and whether clipping changed it. -/
def dacCode (v : Int) : Int × Bool := let c := fround v; (clampI (-127) 127 c, decide (127 < c.natAbs))

/-- Words of 32 codes, the first one most significant. -/
def codeWords (l : List Int) : List (BitVec 256) :=
  (List.range (l.length / 32)).map fun g =>
    BitVec.ofNat 256 (beNat (((l.drop (32 * g)).take 32).map fun v => BitVec.ofNat 8 (usg 8 v)))

/-- The codes of one DAC for a frame: `y` past the skew stage, `amp` the amplitude at each sample, `full` its scale. -/
def dacFrame (y : List Int) (full : Int) (amp : Nat → Int) : List (Int × Bool) :=
  (indexed y).map fun e => dacCode (fmul full (fmul e.2 (amp e.1)))

/-- The four components of X and Y. -/
def comps (l : List (Cx × Cx)) : List (List Int) :=
  [l.map (·.1.1), l.map (·.1.2), l.map (·.2.1), l.map (·.2.2)]

/-- A pass of the DAC skew calibration drives pattern 4 into the DACs (R422). -/
def State.skewCal (s : State) (x : Carrier) : Bool :=
  match (agetD s.cal (4 + x.num) calReset).st with
  | .pass1 | .pass2 => true
  | _ => false

/-- A symbol frame goes through stages 3 to 8, between the frames mapped before and after it. The RMS of R193 and the peak
of R198 are those of the frame, and the output state and its ramp are those of now (DESIGN CHOICE, log 56). Without its
sample clock the die takes no samples (R44). -/
def State.txFrameOut (s : State) (x : Carrier) (prev cur next : TxMapped) : State :=
  if !(s.die x.txDie).clk then s else
  let t := (s.car x).tx
  let f := cur.cfg
  let live := t.st.live
  let sync := s.cfx F.CAR_TK_TX_CTL_SYNC x
  let now := (s.car x).tk.burst
  let tack (n : Nat) := f.tack now live sync n
  let z := (cx0, cx0)
  -- stages 3 and 4
  let mux := muxFrame prev cur next live tack (s.cfxI F.CAR_TX_TACK_LEVEL x)
  let pc := if s.cfx F.CAR_TX_CTL_PRECOMP_EN x = 0 then mux else
    let one (k : (Cx × Cx) → Cx) := precomp (s.cfxI F.CAR_TX_PRECOMP_D x) (s.cfxI F.CAR_TX_PRECOMP_GRID_N x) f.kbd
      ((lastN 11264 z t.pcTail).map k) (mux.map k)
    (one (·.1)).zip (one (·.2))
  -- stage 5
  let dacs := List.range 4
  let x5 := comps pc
  let p5 := dacs.map fun c => lastN 63 0 (t.peTail.getD c []) ++ x5.getD c []
  let y5 := dacs.map fun c =>
    let h := (List.range 64).map fun i => sgn 16 (bits (s.rd ⟨.CAR_TX_PE, carIdx .CAR_TX_PE x (64 * c + i)⟩) 15 0)
    (List.range sfLen).map (preEmph h (p5.getD c []))
  -- TEST 3 and 4 (R199)
  let pos := agetD s.sti.txn x.txDie 0 / 4 * 32
  let cal := s.skewCal x
  let test := if cal then 4 else f.test
  let raw (n : Nat) : Int := if test = 3 then ((pos + n) % 255 : Nat) - 127 else if n % 64 < 32 then 64 else -64
  -- stage 6
  let p6 := dacs.map fun c => lastN 128 0 (t.skTail.getD c []) ++
    (if test = 4 then (List.range sfLen).map fun n => raw n * fone else y5.getD c [])
  let skew := dacs.map fun c => s.cfxI F.CAR_TX_SKEW_VALUE x c
  let y6 := dacs.map fun c =>
    let new := skew.getD c 0
    (List.range sfLen).map (skewAt f.kbd (t.skOld.getD c new) new (p6.getD c []))
  -- stage 7
  let rp := s.rampNow x
  let ramp (n : Nat) : Int := rampAmp (t.rampIn rp ((n * 4 * 1000000 * 65536 : Nat) / (5 * f.kbd : Nat)))
  let target := 127 * fpow10 (frat (-(s.cfx F.CAR_TX_LEVEL_BACKOFF x : Int)) 1280)
  let codes := dacs.map fun c =>
    let y := y6.getD c []
    if t.st = .forced ∨ (!live ∧ 3 ≤ test ∧ !cal) then y.map fun _ => ((0 : Int), false)
    else if test = 3 then (List.range sfLen).map fun n => (raw n, false)
    else if test = 4 then y.map fun v => (clampI (-127) 127 (fround v), false)
    else if live then
      let m := rms y
      dacFrame y (if m = 0 then 0 else fdiv target m) ramp
    else
      let m := peak y
      dacFrame y (if m = 0 then 0 else fdiv (120 * fone) m) fun n => (tack n).1
  let words := codes.map fun l => codeWords (l.map (·.1))
  let s := s.modTx x fun t => { t with
    pcTail := lastN 11264 z mux, peTail := p5.map (lastN 63 0), skTail := p6.map (lastN 128 0), skOld := skew
    clipN := dacs.map fun c => t.clipN.getD c 0 + ((codes.getD c []).filter (·.2)).length }
  s.dealWords x.txDie ((List.range (sfLen / 32)).flatMap fun g => words.map fun l => l.getD g 0)

/-- Label bits of a frame under TEST 1, and the generator after them (R199). -/
def test31Bits (g : BitVec 31) (n : Nat) : BitVec 31 × List Bool :=
  let r := prbsRun 3 g n
  (r.1, (List.range n).map fun i => bit r.2 (n - 1 - i))

/-- Map the oldest waiting frame once its bits are there (R185); the frame mapped before it then goes out. At most `fuel`
frames. -/
def State.txBuild (s : State) (x : Carrier) (fuel : Nat) : State :=
  match fuel with
  | 0 => s
  | fuel + 1 =>
    let t := (s.car x).tx
    match t.frames with
    | [] => s
    | f :: r =>
      let n := if f.run then f.payload * f.width else 0
      if t.coded.length < n then s else
      let q := if f.run && f.test == 1 then test31Bits t.test31 n else (t.test31, t.coded.take n)
      let m : TxMapped := if f.run && decide (f.test < 2) then f.map q.2 else ⟨f, []⟩
      let s := s.modTx x fun t => { t with
        coded := t.coded.drop n, frames := r, test31 := q.1, mapped := (m :: t.mapped).take 2 }
      let s := match t.mapped with
        | cur :: older => s.txFrameOut x (older.headD ⟨cur.cfg, []⟩) cur m
        | [] => s
      s.txBuild x fuel

/-- The encoder and the mapper do what the bits and frames that wait allow. -/
def State.txRun (s : State) (x : Carrier) : State :=
  let s := s.modTx x TxCh.encode
  s.txBuild x (s.car x).tx.frames.length

/-- A symbol frame begins at this boundary (R180, R181, R187). -/
def State.txFrameStart (s : State) (x : Carrier) : State :=
  let n := 2 ^ s.cfx F.CAR_TX_CTL_SC_LOG2 x
  let f : TxFrame :=
    { sc := n, roll := s.cfx F.CAR_TX_CTL_ROLLOFF x, pilot := (s.car x).tx.pilot, kbd := s.cfx F.CAR_TX_RATE_KBD x
      test := s.cfx F.CAR_TX_CTL_TEST x, ents := (List.range n).map fun i => (s.car x).tx.ents.getD i 256
      gains := (List.range n).map fun i => s.cfxI F.CAR_TX_SC_GAIN x i
      run := (s.car x).tx.chain, start := s.sys.dtime, burst := (s.car x).tk.burst }
  s.modTx x fun t => { t with frames := t.frames ++ [f] }

end Sys2Proof.Machine
end

