-- ==== Sys2Proof/Machine/FrontEnd.lean ====
section
/-! DEFINITION. The receive front end on the words that stitch delivered (R43, R61, R73 to R78, R80, R87, R93, R347, R348):
converter corrections with their loops, dispersion equaliser, Press, Tack's canceller, up to the receive core's input; and
the core's symbol frame on those samples. -/

namespace Sys2Proof.Machine

/-! ### Converter corrections (R73 to R78) -/

/-- Groups of the words that wait: one past the highest. -/
def Fe.top (f : Fe) : Nat := f.inq.foldl (fun a e => max a (e.1 / 4 + 1)) 0

/-- The groups of four words, one of each converter, that wait in unbroken order. A word that has not come when one of two
rounds of the logical lanes later is there stands as erased (DESIGN CHOICE, log 38). -/
def Fe.groups (f : Fe) : List Nat :=
  let top := f.top
  ((List.range (top - f.inNext)).map (f.inNext + ·)).takeWhile fun g =>
    decide (g + 832 < top) || (List.range 4).all fun c => (aget f.inq (4 * g + c)).isSome

/-- The samples of converter `c` in those groups, in units of 2⁻⁹⁶ LSB; none where erased. -/
def Fe.samples (f : Fe) (c : Nat) : List (Option Int) :=
  f.groups.flatMap fun g => match aget f.inq (4 * g + c) with
    | some (some w) => (List.range 32).map fun i => some (sgn 8 (w.toNat / 256 ^ (31 - i)) * fone)
    | _ => List.replicate 32 none

/-- The interleave entry of the section that takes sample `n` of converter `c` (R73, R79). -/
def State.ilv (s : State) (x : Carrier) (c n : Nat) : Word := s.rd ⟨.CAR_FE_ILV, carIdx .CAR_FE_ILV x (64 * c + n % 64)⟩

/-- Stage 1 without its timing part: offset in 1/64 LSB and relative gain error in 2⁻¹². -/
def ilvFix (e : Word) (v : Int) : Int :=
  fdiv (v - frat (sgn 10 (bits e 9 0)) 64) (fone + frat (sgn 10 (bits e 19 10)) 4096)

/-- Converter `c` past stage 1, 64 samples late (R73, R79): the timing part of a section's entry by band-limited
interpolation, then its offset and gain. `l` begins with the 128 samples before, and `n0` is the number of the first one
after them; an erased sample stays erased. -/
def State.feIlv (s : State) (x : Carrier) (c n0 count : Nat) (l : List (Option Int)) : List (Option Int) :=
  let on := s.cfx F.CAR_FE_CTL_ILV_EN x == 1 && s.cfx F.CAR_FE_CTL_BYPASS x == 0
  let v := l.map (·.getD 0)
  let fs := 5 * s.cfx F.CAR_RXC_RATE_KBD x
  let d : Nat := 1024000000000
  (List.range count).map fun n =>
    let here : Option Int := l.getD (64 + n) none
    if !on then here else here.map fun _ =>
      let e := s.ilv x c (n0 + n)
      ilvFix e (interp v (((64 + n : Nat) : Int) * d - sgn 12 (bits e 31 20) * (fs : Int)) d)

/-- Converter `c` past stage 2, and its samples that are not erased after correction (R74, R75): an erased sample is 0. -/
def State.feDc (s : State) (x : Carrier) (c : Nat) (l : List (Option Int)) : List Int × List Int :=
  let dc := if s.cfx F.CAR_FE_CTL_BYPASS x = 1 then 0 else frat (s.cfxI F.CAR_FE_DC_VALUE x c) 64
  let v := l.map fun e => e.map (· - dc)
  (v.map (·.getD 0), v.filterMap id)

/-- Converter `c` past stage 3, 64 samples late (R78): its delay moves from the one that the symbol frame before ended with
to the committed one over the samples taken. `l` begins with the 128 samples before. -/
def State.feSkew (s : State) (x : Carrier) (c count : Nat) (old : Int) (l : List Int) : List Int :=
  let thru := s.cfx F.CAR_FE_CTL_BYPASS x == 1
  let new := s.cfxI F.CAR_FE_SKEW_VALUE x c
  let fs := 5 * s.cfx F.CAR_RXC_RATE_KBD x
  let d := 256000000000 * max 1 count
  (List.range count).map fun n =>
    if thru then tapAt l (64 + n : Nat) else
    interp l (((64 + n : Nat) : Int) * d - (old * count + (new - old) * n) * fs) d

/-- Q′ = (Q / GAIN − I sin PHASE) / cos PHASE (R76). -/
def State.feIq (s : State) (x : Carrier) (p : Nat) (z : Cx) : Cx :=
  if s.cfx F.CAR_FE_CTL_BYPASS x = 1 then z else
  let ph := s.cfxI F.CAR_FE_IQ_PHASE x p * 2 ^ 96
  let den := (2 ^ 17 * fpi).toNat
  (z.1, fdiv (fdiv z.2 (frat (s.cfx F.CAR_FE_IQ_GAIN x p) 16384) - fmul z.1 (fsinTurn ph den)) (fcosTurn ph den))

/-- Mean of a list; zero of none. -/
def meanF (l : List Int) : Int := if l = [] then 0 else fsum l / l.length

/-- A DC loop's value after the samples of a symbol frame (R75): `mean` of the corrected ones in LSB, value in 1/64 LSB. -/
def dcStep (tc : Nat) (v mean : Int) : Int := v + 64 * mean / 2 ^ tc

/-- An IQ loop's gain and phase after the samples of a symbol frame (R76): toward equal power, and toward no correlation.
The detectors are the plain ones (DESIGN CHOICE, log 38). -/
def iqStep (tc : Nat) (v : Int × Int) (l : List Cx) : Int × Int :=
  let pi := meanF (l.map fun z => fmul z.1 z.1)
  let pq := meanF (l.map fun z => fmul z.2 z.2)
  let c := meanF (l.map fun z => fmul z.1 z.2)
  if pi = 0 ∨ pq = 0 then v else
  (v.1 + fmul v.1 (fsqrt (fdiv pq pi) - fone) / 2 ^ tc, v.2 + 65536 * fdiv c (fsqrt (fmul pi pq)) / 2 ^ tc)

/-- What the corrections make of the words taken: the loops' values in units of 2⁻⁹⁶ of their fields' units. -/
structure FeOut where
  dc : List Int
  iq : List (Int × Int)
deriving DecidableEq, Repr

/-- Stages 1 to 4 take every group of words that waits (R73 to R78): the corrected samples join the equaliser's input. The
loops go on estimating from the samples that BYPASS leaves uncorrected (DESIGN CHOICE, log 38). -/
def State.feTake (s : State) (x : Carrier) : State × FeOut :=
  let f := (s.car x).fe
  let gs := f.groups
  let n0 := 32 * f.inNext
  let count := 32 * gs.length
  let conv := List.range 4
  let raw := conv.map f.samples
  let ilTail := conv.map fun c => lastN 128 (some 0) (f.ilTail.getD c [])
  let il := conv.map fun c => s.feIlv x c n0 count (ilTail.getD c [] ++ raw.getD c [])
  let dc := conv.map fun c => s.feDc x c (il.getD c [])
  let er : List Int := (List.range count).map fun n => sumN (il.map fun l => b2n ((l.getD n none).isNone))
  let tails := (List.range 5).map fun c => lastN 128 0 (f.skTail.getD c [])
  let ins := (List.range 5).map fun c => tails.getD c [] ++ (if c = 4 then er else (dc.getD c ([], [])).1)
  let skew := conv.map fun c => s.cfxI F.CAR_FE_SKEW_VALUE x c
  let y := conv.map fun c => s.feSkew x c count (f.skOld.getD c (skew.getD c 0)) (ins.getD c [])
  let z (p : Nat) : List Cx := (((y.getD (2 * p) []).zip (y.getD (2 * p + 1) [])).map fun e =>
    s.feIq x p (e.1 / 128, e.2 / 128))
  let ero := (List.range count).map fun n => (tapAt (ins.getD 4 []) (64 + n : Nat)).toNat
  let out := ((z 0).zip ((z 1).zip ero)).map fun e => (⟨e.1, e.2.1, e.2.2⟩ : Smp)
  let good := out.filter (·.er == 0)
  let dtc := s.cfx F.CAR_FE_CTL_DC_TC x
  let itc := s.cfx F.CAR_FE_CTL_IQ_TC x
  let dcv (c : Nat) : Int := f.dcAcc.getD c (s.cfxI F.CAR_FE_DC_VALUE x c * fone)
  let iqv (p : Nat) : Int × Int := f.iqAcc.getD p ((s.cfx F.CAR_FE_IQ_GAIN x p : Int) * fone, s.cfxI F.CAR_FE_IQ_PHASE x p * fone)
  let s := s.modFe x fun f => { f with
    inq := f.inq.filter fun e => f.inNext + gs.length ≤ e.1 / 4, inNext := f.inNext + gs.length
    ilTail := conv.map fun c => lastN 128 (some 0) (ilTail.getD c [] ++ raw.getD c [])
    skTail := ins.map (lastN 128 0), skOld := skew, eqIn := f.eqIn ++ out }
  let s := s.capTake x 0 fun _ => (List.range count).flatMap fun n =>
    CapEnt.bytes (.adc (raw.map fun l => ((l.getD n none).isNone, BitVec.ofInt 8 (((l.getD n none).getD 0) / fone))))
  (s, ⟨conv.map fun c => dcStep dtc (dcv c) (meanF (dc.getD c ([], [])).2),
    [iqStep itc (iqv 0) (good.map (·.x)), iqStep itc (iqv 1) (good.map (·.y))]⟩)

/-! ### Equaliser and Press on a block (R80, R82, R86, R87, R93) -/

/-- Frequency of bin `k` as a fraction of Hz: k Fs / N (R82). -/
def binHz (n kbd k : Nat) : Int × Nat := (binNo n k * (5 * kbd * 1000 : Nat), 4 * n)

/-- What bin `k` is multiplied by: the stored entry, zero while its word is poisoned, and the trim phase (R82, R86, R87). -/
def State.cdeBin (s : State) (x : Carrier) (n k : Nat) : Cx :=
  let kbd := s.cfx F.CAR_RXC_RATE_KBD x
  let w := (s.car x).fe.entry k
  let f := binHz n kbd k
  if s.poisoned x.num (k / 2) then cx0 else
  cmul (frat (sgn 16 (bits w 15 0)) 16384, frat (sgn 16 (bits w 31 16)) 16384)
    (dispPhase (s.car x).fe.trim (s.cfxI F.CAR_CDE_GRID_N x) f.1 f.2)

/-- A 15-tap intensity filter, taps in 2⁻¹⁴, tap 7 at the point (R93, R100). -/
def intens (h : Nat → Int) (l : List Int) (n : Nat) : Int :=
  fsum ((List.range 15).map fun t => h t * tapAt l ((n : Int) + 7 - t)) / 16384

/-- Press step `k` on a block (R93): put back the dispersion up to the nonlinear point, rotate each polarisation, take the
dispersion out again. Intensities are relative to the block's mean power, which γ_k's launch power stands for (DESIGN
CHOICE, log 38). -/
def State.pressStep (s : State) (x : Carrier) (n : Nat) (l : List (Cx × Cx)) (k : Nat) : List (Cx × Cx) :=
  let kbd := s.cfx F.CAR_RXC_RATE_KBD x
  let g := s.cfxI F.CAR_CDE_GRID_N x
  let c := s.segCF x k
  let disp (sign : Int) (z : List Cx) : List Cx := spectral (fun b =>
    let f := binHz n kbd b
    dispPhaseF (sign * c) g f.1 f.2) z
  let zx := disp (-1) (l.map (·.1))
  let zy := disp (-1) (l.map (·.2))
  let px := zx.map cnorm
  let py := zy.map cnorm
  let mean := meanF px + meanF py
  let rel (p : List Int) : List Int := if mean = 0 then p else p.map (fdiv · mean)
  let ix := rel px
  let iy := rel py
  let gam := fmul (frat (s.cfx F.CAR_PRESS_XI_XI x) 16384) (s.segGamma x k)
  let rot (own other : List Int) (z : List Cx) : List Cx := (indexed z).map fun e =>
    let ph := fmul gam (intens (s.segTap x k true) own e.1 + intens (s.segTap x k false) other e.1)
    cmul e.2 (cturn ((0 : Int) - ph) (2 * fpi).toNat)
  (disp 1 (rot ix iy zx)).zip (disp 1 (rot iy ix zy))

/-- The new samples of a block (R80, R84, R93): zeros unless the equaliser runs; the middle 11/32 of a block is kept
(DESIGN CHOICE, log 38). -/
def State.eqBlock (s : State) (x : Carrier) (n : Nat) (l : List Smp) : List (Cx × Cx) :=
  let z : List (Cx × Cx) :=
    if (s.car x).fe.cde ≠ 2 then List.replicate n (cx0, cx0) else
    let eq := (spectral (s.cdeBin x n) (l.map (·.x))).zip (spectral (s.cdeBin x n) (l.map (·.y)))
    (s.activeSteps x).foldl (fun l k => s.pressStep x n l k) eq
  (z.drop (21 * n / 64)).take (11 * n / 32)

/-- Erased samples of a block in 1/256 of its samples, rounded up (R74, R170). -/
def erasedFrac (n : Nat) (l : List Smp) : Nat := (sumN (l.map (·.er)) * 256 + 4 * n - 1) / (4 * n)

/-- The canceller on a run of samples from number `k` on (R347, R348): the regenerated waveform is subtracted where that lowers
the power. -/
def tkSubtract (car k : Nat) (l : List CoreSmp) : List CoreSmp :=
  let w := (List.range l.length).map fun i => Config.tackRegen car (k + i)
  let less := (l.zip w).map fun e => { e.1 with x := csub e.1.x e.2.1, y := csub e.1.y e.2.2 }
  let pow (l : List CoreSmp) : Int := fsum (l.map fun q => cnorm q.x + cnorm q.y)
  if pow less < pow l then less else l

/-- Entries of source 1 (R150): full scale is that of the ADCs, 128 LSB (DESIGN CHOICE, log 71). -/
def coreEntries (l : List CoreSmp) : Bytes :=
  l.flatMap fun e => CapEnt.bytes (.vals ([e.x.1, e.x.2, e.y.1, e.y.2].map fun v => fround (256 * v)))

/-- Entries of source 2 (R150): by symbol index, then by subcarrier of the mask; a component of energy 1/2 is 4,096. -/
def symEntries (mask : Nat) (fr : List ScFrame) : Bytes :=
  (List.range ((fr.headD ⟨[], (cx0, cx0), [], [], (⟨0, 0, 0, 0⟩, ⟨0, 0, 0, 0⟩), 0, [], []⟩).all.length)).flatMap fun j =>
    (indexed fr).flatMap fun e => if bit mask e.1 then
      let z := e.2.all.getD j (cx0, cx0)
      CapEnt.bytes (.vals ([z.1.1, z.1.2, z.2.1, z.2.2].map fun v => fround (fmul v (4096 * fsqrt (2 * fone)))))
    else []

/-- The equaliser takes whole blocks, at most `fuel`: their new samples reach the receive core (R80, R348). -/
def State.eqRun (s : State) (x : Carrier) (fuel : Nat) : State :=
  match fuel with
  | 0 => s
  | fuel + 1 =>
    let n := blockN (s.cfx F.CAR_RXC_RATE_KBD x)
    let f := (s.car x).fe
    if f.eqIn.length < n then s else
    let b := f.eqIn.take n
    let fr := erasedFrac n b
    let out := (s.eqBlock x n b).map fun e => (⟨e.1, e.2, fr⟩ : CoreSmp)
    let c := (s.car x).rxc
    let out := if (s.car x).tk.cancel then tkSubtract x.num (c.inpAt + c.inp.length) out else out
    let on := c.st != .disabled && c.st != .waitInput
    let s := s.modFe x fun f => { f with eqIn := f.eqIn.drop (11 * n / 32) }
    let s := if on then (s.modRxc x fun c => { c with inp := c.inp ++ out }).capTake x 1 fun _ => coreEntries out else s
    s.eqRun x fuel

/-! ### The receive core's symbol frame on samples (R117 to R142) -/

/-- What the symbol frame that ends measured: `c` is the receive core before it, `r` after it. -/
def sfMeasOf (c r : Rxc) (q : RxSet) : SfMeas :=
  let m := c.alignMetric q c.freq c.framePos
  let k0 := c.framePos / 2 ^ 32 - c.inpAt
  { dc := [], iq := []
    snr := pinch (meanPinch ((r.noiseF.headD []).map scMeas))
    found := Config.alignHit m.1 m.2
    erased := ((c.inp.drop k0).take sfLen).foldl (fun a e => max a e.f) 0
    freq := r.freq, clk := r.clk }

/-- The symbol frame that the core's samples hold, once they are all there: taps, phases, sums, slips, and in LOCKED its
LLRs for the line code (R117, R141). Without its samples a symbol frame shows nothing. -/
def State.rxFrame (s : State) (x : Carrier) : State × SfMeas :=
  let c := (s.car x).rxc
  let q := s.rxSet x
  let run := c.st == .train || c.st == .locked
  if run && c.frameReady q.n then
    let fr := c.scFrames q
    let r := c.frame q fr
    let s := ((s.modRxc x fun _ => r.1).bumpx .CAR_RXC_SLIP x r.2.2).capTake x 2 fun k => symEntries k.mask fr
    let feed := c.st == .locked && (s.car x).fec.st != .idle
    (if feed then s.modFec x fun f => { f with llrs := f.llrs ++ r.2.1 } else s, sfMeasOf c r.1 q)
  else (s, ⟨[], [], -32767, false, 0, c.freq, c.clk⟩)

/-- The words, blocks and symbols of a symbol frame that State holds (R73, R117). -/
def State.sfTake (s : State) (x : Carrier) : State × SfMeas × FeOut :=
  let t := s.feTake x
  let n := (t.1.car x).fe.eqIn.length
  let r := (t.1.eqRun x (n / 22528 + 1)).rxFrame x
  (r.1, r.2, t.2)

end Sys2Proof.Machine
end

