-- ==== Sys2Proof/Machine/Boundary.lean ====
section
/-! DEFINITION. The device frame tick and the symbol-frame boundaries (R24, R87): what falls on them in every unit. -/

namespace Sys2Proof.Machine

/-! ### Device frame tick (R24) -/

/-- A device frame in 2⁻¹⁶ ns. -/
def frameTime : Nat := 160 * 65536

/-- Scopes of a pending commit that take effect at a device frame tick; `mf`: a transmit multiframe starts (R23, R24,
R28). -/
def State.tickReady (s : State) (mf : Bool) (p : Pend) : List Nat :=
  [0, 2, 4, 5, 6, 7, 8].filter fun n => (p.kind == .tf || (mf && p.kind == .mf)) && s.targetDue p n

/-- The frame that ends goes out on a carrier. -/
def State.endFrame (s : State) (x : Carrier) : State :=
  ((s.txCount x frameTime).sendFrame x).modTr x fun t => { t with xAt := 0 }

/-- Stream bytes that reached the mappers since the last tick; Local Fault sets stand in place of a failed client's (R323). -/
def State.feed (s : State) (l : List (Nat × Bytes)) : State :=
  s.each l fun s e => if s.cf F.CLI_CH_CFG_EN e.1 = 1 ∧ !(s.csfIn e.1) then s.modChan e.1 fun h => { h with fifo := h.fifo ++ e.2 } else s

/-- Transmit multiframe boundary of the cipher: every channel with transmit slots or with a cipher state (R262, R268). -/
def State.ciphTxAll (s : State) : State :=
  let own := s.owners .CAR_TR_SLOT_TX .A 456 ++ s.owners .CAR_TR_SLOT_TX .B 456
  let cs := (s.ciph.ch.map (·.1) ++ own.map (·.1)).foldl (fun l c => insSorted c l) []
  s.each cs fun s c => s.ciphTxBoundary c s.sys.txMfc

/-- DEVICE_FRAME_TICK (R24 to R26, R228 to R237, R317, R318): the frame that runs ends on both carriers, the counts step,
commits take effect, and the next frame starts. `feed`: per channel the stream bytes that came to its mapper. `off`: the measured phase offset of each DPLL (R389). -/
def execDeviceFrameTick (feed : List (Nat × Bytes)) (off : Int × Int) (s : State) :
    Host.Outcome State Fault Refusal := live s fun s =>
  let s := (s.endFrame .A).endFrame .B
  let fn := (s.sys.txFn + 1) % 256
  let s := s.modSys fun y => { y with txFn := fn, txMfc := if fn = 0 then y.txMfc + 1 else y.txMfc }
  let s := s.applyReady (s.tickReady (fn == 0)) off
  let s := (((s.txRateWait .A).txSched .A).txRateWait .B).txSched .B
  let s := s.feed feed
  let s := s.each s.onChans fun s c => s.modChan c fun h =>
    if s.csfIn c then { h with csfTx := true, fifo := [] } else { h with csfTx := false, owed := 0 }
  let s := if fn = 0 then s.ciphTxAll else s
  let m := s.mapAll fn
  (m.1.buildFrame .A fn m.2).buildFrame .B fn m.2

/-! ### Symbol-frame boundaries (R87) -/

/-- The symbol frame that ended, in the lock rules of the state the core is in and in its offsets (R122, R130, R131, R134,
R152). No block adapts anything while the core is off or waits: nothing is frozen then. -/
def State.sfRuns (s : State) (x : Carrier) (m : SfMeas) : State :=
  let lock := pinch (s.cfx F.CAR_RXC_THR_LOCK_SNR x)
  let on := s.cfx F.CAR_RXC_CTL_RX_EN x == 1
  let frozen := decide (s.cfx F.CAR_RXC_LLR_ADAPT_ERASE x < m.erased)
  let st := (s.car x).rxc.st
  let s := s.modRxc x fun c => { c with
    sfc := if on then c.sfc + 1 else c.sfc, interrupted := c.interrupted - 1
    inHunt := if st == .hunt then c.inHunt + 1 else c.inHunt
    inTrain := if st == .train then c.inTrain + 1 else c.inTrain
    good := if st == .train && decide (lock ≤ m.snr) then c.good + 1 else 0
    missed := if st == .locked && !m.found then c.missed + 1 else 0
    low := if st == .locked && decide (m.snr < lock - 64) then c.low + 1 else 0 }
  let s := if st == .train || st == .locked then s.modRxc x fun c => { c with freq := m.freq, clk := m.clk } else s
  let frozen := frozen && st != .disabled && st != .waitInput
  (s.modRxc x fun c => { c with frozen := frozen }).defect frozen 0x0407 x.ev 0

/-- The active trim moves toward TARGET by at most SLEW; a regeneration overrides the step (R87, R92). While one runs, and while
the equaliser is off, the trim stays (DESIGN CHOICE, log 58). A moved trim moves the factor of R101. -/
def State.trimStep (s : State) (x : Carrier) : State :=
  let slew : Int := s.cfx F.CAR_CDE_TRIM_SLEW x
  let target := s.cfxI F.CAR_CDE_TRIM_TARGET x
  let f := (s.car x).fe
  let new := clampI (f.trim - slew) (f.trim + slew) target
  if f.cde = 0 ∨ f.cde = 1 ∨ new = f.trim then s else (s.modFe x fun f => { f with trim := new }).spanDisp x

/-- An adaptive loop's value, held to its range: the value, and whether it had to be held (R77). -/
def loopHold (lo hi v : Int) : Int × Bool := (clampI lo hi v, decide (v < lo ∨ hi < v))

/-- The adaptive DC loops (R75, R77), their values in units of 2⁻⁹⁶ of the field's; a value committed at this boundary is
its loop's seed. -/
def State.dcLoop (s : State) (x : Carrier) (old : Rd) (dc : List Int) : State :=
  if s.cfx F.CAR_FE_CTL_DC_MODE x ≠ 0 then s else
  let was := (List.range 4).map fun c => (s.car x).fe.dcAcc.getD c (s.cfxI F.CAR_FE_DC_VALUE x c * fone)
  let s := s.modFe x fun f => { f with dcAcc := was }
  s.each (List.range 4) fun s c =>
    let i := carIdx .CAR_FE_DC x c
    if old ⟨.CAR_FE_DC, i⟩ ≠ s.rd ⟨.CAR_FE_DC, i⟩ then s else
    match dc[c]? with
    | some v =>
      let h := loopHold (-2047 * fone) (2047 * fone) v
      let s := (s.modFe x fun f => { f with dcAcc := f.dcAcc.set c h.1 }).setField F.CAR_FE_DC_VALUE i (usg 12 (fround h.1))
      if h.2 then s.raise 0x0301 x.ev c [0xFF] else s
    | none => s

/-- The adaptive IQ loops (R76, R77). -/
def State.iqLoop (s : State) (x : Carrier) (old : Rd) (iq : List (Int × Int)) : State :=
  if s.cfx F.CAR_FE_CTL_IQ_MODE x ≠ 0 then s else
  let was := (List.range 2).map fun p => (s.car x).fe.iqAcc.getD p
    ((s.cfx F.CAR_FE_IQ_GAIN x p : Int) * fone, s.cfxI F.CAR_FE_IQ_PHASE x p * fone)
  let s := s.modFe x fun f => { f with iqAcc := was }
  s.each (List.range 2) fun s p =>
    let i := carIdx .CAR_FE_IQ x p
    if old ⟨.CAR_FE_IQ, i⟩ ≠ s.rd ⟨.CAR_FE_IQ, i⟩ then s else
    match iq[p]? with
    | some v =>
      let g := loopHold (0x2000 * fone) (0x6000 * fone) v.1
      let f := loopHold (-16384 * fone) (16384 * fone) v.2
      let s := s.modFe x fun e => { e with iqAcc := e.iqAcc.set p (g.1, f.1) }
      let s := (s.setField F.CAR_FE_IQ_GAIN i (usg 16 (fround g.1))).setField F.CAR_FE_IQ_PHASE i (usg 16 (fround f.1))
      if g.2 || f.2 then s.raise 0x0301 x.ev 0 [BitVec.ofNat 8 p] (4 + p) else s
    | none => s

/-- The received multiframe count that runs on from the last boundary while the framer is not ALIGNED (R221). -/
def State.mfNow (s : State) (x : Carrier) : Nat := (s.car x).tr.mfc + (s.ns - (s.car x).tr.mfAt) / 40960

/-- Loading plans at a receive symbol-frame boundary: a target that passed, a lost alignment, a cold apply, the first
swap of a recovery (R220 to R222). -/
def State.planBoundary (s : State) (x : Carrier) : State :=
  let s := if (s.car x).tr.st = .aligned then s else (s.planMissed x (s.mfNow x)).planSide x (s.mfNow x)
  let s := s.planLostAlign x
  let s := match (s.car x).plan.cold with
    | some m => (s.modPlan x fun p => { p with cold := none }).coldApply x m
    | none => s
  match (s.car x).plan.recov with
  | some v => if v.swaps = 0 then s.recovSwap x else s
  | none => s

/-- A commit that touches Press, its span table or its filters falls due at this boundary of a receive scope (R107). -/
def State.pressDue (s : State) (x : Carrier) : Bool :=
  s.regs.pend.any fun p => p.kind == .sf && s.targetDue p (2 * x.num + 1) && p.scopes.contains (2 * x.num + 1) &&
    tookReg p.vals x pressRegs

/-- Receive side of a symbol-frame boundary: what the symbol frame measured and what the adaptive loops make of it, then
commits, trim, Press. -/
def State.sfRx (s : State) (x : Carrier) (m : SfMeas) (loops : FeOut) : State :=
  let s := (s.sfRuns x m).capSnap x
  let old := s.rd
  let n := 2 * x.num + 1
  let due := s.pressDue x
  let s := s.applyReady (fun p => if p.kind == .sf && s.targetDue p n then [n] else []) (0, 0)
  let pilot := s.cfx F.CAR_RXC_CTL_PILOT x
  let s := s.modRxc x fun c => { c with pilot := pilot, winOk := c.winOk && c.pilot == pilot }
  let s := s.trimStep x
  let s := if s.cfx F.CAR_RXC_CTL_RX_EN x = 1 then (s.dcLoop x old loops.dc).iqLoop x old loops.iq else s
  let s := if due then s else s.pressBoundary x
  (s.planBoundary x).settle x

/-- The loops' values as a row tells them, in their fields' units. -/
def SfMeas.loops (m : SfMeas) : FeOut := ⟨m.dc.map (· * fone), m.iq.map fun e => (e.1 * fone, e.2 * fone)⟩

/-- The same boundary, with what the symbol frame brought told by the row, or taken from the samples that State holds. -/
def State.sfRxOf (s : State) (x : Carrier) (m : Option SfMeas) : State :=
  match m with
  | some m => s.sfRx x m m.loops
  | none =>
    let t := s.sfTake x
    t.1.sfRx x t.2.1 t.2.2

/-- Transmit side of a symbol-frame boundary: commits, then PILOT and the entropies of the frames to come (R180, R181,
R187), and the symbol frame that begins. -/
def State.sfTx (s : State) (x : Carrier) : State :=
  let n := 2 * x.num
  let s := s.txCount x (s.sys.dtime % frameTime)
  let s := s.applyReady (fun p => if p.kind == .sf && s.targetDue p n then [n] else []) (0, 0)
  let ents := (List.range (2 ^ s.cfx F.CAR_TX_CTL_SC_LOG2 x)).map fun i => s.cfx F.CAR_TX_SC_E x i
  let pilot := s.cfx F.CAR_TX_CTL_PILOT x
  let s := if (s.car x).tx.chain then s.modTx x fun t => { t with pilot := pilot, ents := ents } else s
  ((s.txFrameStart x).txRun x).settle x

/-- SYMBOL_FRAME_BOUNDARY (R22, R75 to R77, R87, R103, R134, R137): of a carrier's side; `m` is what the receive side's
symbol frame brought, none where the samples that State holds show it. -/
def execSymbolFrameBoundary (x : Carrier) (side : Side) (m : Option SfMeas) (s : State) :
    Host.Outcome State Fault Refusal :=
  live s fun s =>
  match side with
  | .rx => s.sfRxOf x m
  | .tx => s.sfTx x

end Sys2Proof.Machine
end

