-- ==== Sys2Proof/Machine/Power.lean ====
section
/-! DEFINITION. Power-on and warm reset, supervisors, thermal levels and load shedding, life consumed (chapter 21). -/

namespace Sys2Proof.Machine

/-! ### Power-on reset (R438, R540, R541, R543, R546) -/

/-- The DACs of both transmit dies hold mid-scale, code 0 (R540). -/
def midScale : List Out := [Die.TXA, Die.TXB].flatMap fun d => (List.range 4).map fun c => .dac d c 0

/-- The block in power-on reset: everything cleared but OTP. Kept beside it are what is no state of the block's: levels of
its input balls, flash, what went out, the waiting commands and the index of free values. Of an advance of the OTP count
under way, `blown` steps have a fuse blown (R525). -/
def State.powerOn (s : State) (cause rail blown : Nat) : State :=
  { State.reset with
    sys := { sysReset with
      held := true, rstCause := cause, rstRail := rail, pfail := s.sys.pfail, fresh := s.sys.fresh
      lifeSaved := s.sys.lifeSaved }
    io := { ioReset with perst := s.io.perst, out := midScale ++ s.io.out }
    boot := { bootReset with
      otpRevoked := s.boot.otpRevoked
      otpSvn := match s.boot.otpTarget with
        | some t => min t.1 (s.boot.otpSvn + blown)
        | none => s.boot.otpSvn }
    pending := s.pending }

/-- POWER_ON_RESET (R540, R543, R546): PORST_N is low. -/
def execPowerOnReset (blown : Nat) (s : State) : Host.Outcome State Fault Refusal := .next (s.powerOn 0 0 blown)

/-- SUPPLY_UNDERVOLTAGE (R541): 0 VDD_CORE, 1 VDD_SRAM, 2 VDD_CONV. -/
def execSupplyUndervoltage (rail : Fin 3) (blown : Nat) (s : State) : Host.Outcome State Fault Refusal :=
  live s fun s => s.powerOn 1 (2 ^ rail.val) blown

/-- PORST_RELEASE (R11, R438, R540): device time starts at zero, and starch begins. -/
def execPorstRelease (s : State) : Host.Outcome State Fault Refusal :=
  .next (s.modSys fun y => { y with held := false })

/-! ### Warm reset (R440, R543, R544, R546) -/

/-- A carrier's output goes FORCED for a warm reset, and its exchanges are dropped (R194, R544). -/
def State.warmCar (s : State) (x : Carrier) : State :=
  let s := (((s.tkCut x).txTo x .forced).modTk x fun t => { t with gasp := none }).tkEnd x
  let s := (s.dacZero x).modTx x fun t => { t with resetForced := true }
  let s := s.modPlan x fun p => { p with
    awaiting := none, txPend := none, prop := none, sends := 0, valid := [], rxPend := none, recov := none, query := none
    cold := none, waitMsgs := [], inbox := [], took := [], side := none, sideUndo := [] }
  let s := s.modFec x fun f => { f with watch := none }
  s.modKa x fun k => { k.ended 0 with due := [], retry := [], chans := [], waitMsg := [], inbox := [] }

/-- A write of GLB.RST_CMD by a function (R544, R546). -/
def State.warmReset (s : State) (fn : Fn) (w : Word) : State :=
  if fn = .PF1 ∧ bits w 31 16 = 0x5741 ∧ bits w 0 0 = 1 ∧ s.sys.warm = false then
    let s := { s with regs := { s.regs with staged := [], pend := [] } }
    ((s.warmCar .A).warmCar .B).modSys fun y => { y with warm := true }
  else s

/-- WARM_RESET (R544). -/
def execWarmReset (fn : Fn) (data : Word) (s : State) : Host.Outcome State Fault Refusal :=
  live s fun s => s.warmReset fn data

/-- Registers that a warm reset keeps (R543). -/
def warmKeeps (k : RegKey) : Bool := regsTim.contains k.reg || k.reg == .GLB_LIFE_LO

/-- Defects that a warm reset keeps: the timing unit's, and those that only a power-on reset clears (R459, R537). -/
def Defect.warmKeeps (d : Defect) : Bool := d.code / 256 == 0x0E || d.code == 0x1104 || d.code == 0x1207 || d.code == 0x1208

/-- A carrier's units after a warm reset; PFAIL_N acts on (R355, R569). -/
def Car.warm (c : Car) : Car :=
  { carReset with tk := { tkReset with lock := c.tk.lock, gaspWait := c.tk.gaspWait } }

/-- The block when a warm reset completes (R543, R544, R546). -/
def State.warmDone (s : State) : State :=
  let r := State.reset
  { r with
    sys := { sysReset with
      dtime := s.sys.dtime, txMfc := s.sys.txMfc, txFn := s.sys.txFn, rstCause := 2, tj := s.sys.tj, tjMax := s.sys.tjMax
      lifeFrac := s.sys.lifeFrac, lifeWarned := s.sys.lifeWarned, lifeSaved := s.sys.lifeSaved, pfail := s.sys.pfail
      fresh := s.sys.fresh }
    io := { ioReset with
      link := s.io.link, perst := s.io.perst, out := s.io.out
      cnt := s.io.cnt.filter fun e => warmKeeps e.1
      rem := s.io.rem.filter fun e => warmKeeps e.1
      wbuf := s.io.wbuf.filter fun e => warmKeeps e.1
      latch := s.io.latch
      evtw := s.io.evtw.filter fun e => warmKeeps e.1
      snaps := s.io.snaps.filter fun e => e.1 == 6
      defects := ioReset.defects ++ s.io.defects.filter Defect.warmKeeps }
    regs := ⟨s.regs.active.filter fun e => warmKeeps e.1, [], []⟩
    carA := s.carA.warm
    carB := s.carB.warm
    tim := s.tim
    mem := { r.mem with mems := s.mem.mems.map fun e =>
      (e.1, if e.1 = 114 then e.2 else { memReset with used := e.2.used, lastRow := e.2.lastRow }) }
    boot := { bootReset with
      otpSvn := s.boot.otpSvn, otpRevoked := s.boot.otpRevoked, otpTarget := s.boot.otpTarget
      idState := s.boot.idState, idTries := s.boot.idTries, idSeed := s.boot.idSeed, idPub := s.boot.idPub
      ident := s.boot.ident, cfgPending := true, cfgLast := s.ns, dbgUnlocked := s.boot.dbgUnlocked
      tap := s.boot.tap }
    pending := s.pending }

/-- WARM_RESET_DONE (R194, R543, R544): the memories are starched again, and the ROM boots after that. -/
def execWarmResetDone (s : State) : Host.Outcome State Fault Refusal := live s fun s =>
  if s.sys.warm then s.warmDone else s

/-! ### Thermal levels (R549 to R552) -/

/-- H of R550: HYST, 0 acting as 1. -/
def State.hyst (s : State) : Int := max 1 (s.cf F.GLB_THERM_CTL_HYST 0)
/-- SHED, above 120 acting as 120. -/
def State.shedAt (s : State) : Int := min 120 (s.cf F.GLB_THERM_CTL_SHED 0)
/-- WARN. -/
def State.warnAt (s : State) : Int := s.cf F.GLB_THERM_CTL_WARN 0

/-- The warning level after a sample. -/
def State.thermWarn (s : State) (t : Int) : State :=
  if s.warnAt ≤ t then (s.modSys fun y => { y with warn := true, coolWarn := 0 }).raise 0x1301 0 0
  else if t < s.warnAt - s.hyst then
    let n := s.sys.coolWarn + 1
    if s.sys.warn && decide (10000 ≤ n) then (s.modSys fun y => { y with warn := false, coolWarn := 0 }).clear 0x1301 0 0
    else s.modSys fun y => { y with coolWarn := n }
  else s.modSys fun y => { y with coolWarn := 0 }

/-- The shutdown level after a sample. -/
def State.thermShut (s : State) (t : Int) : State :=
  if 125 ≤ t then
    ((s.modSys fun y => { y with shutdown := true, coolShut := 0 }).raise 0x1303 0 0).settleAll
  else if t < 115 then
    let n := s.sys.coolShut + 1
    if s.sys.shutdown && decide (10000 ≤ n) then
      ((s.modSys fun y => { y with shutdown := false, coolShut := 0 }).clear 0x1303 0 0).settleAll
    else s.modSys fun y => { y with coolShut := n }
  else s.modSys fun y => { y with coolShut := 0 }

/-- Entry into shedding at a sample, unless it also entered shutdown (R552), and the time below SHED − H. -/
def State.thermShed (s : State) (t : Int) (shutNow : Bool) : State :=
  let s := s.modSys fun y => { y with coolShed := if t < s.shedAt - s.hyst then y.coolShed + 1 else 0 }
  if s.shedAt ≤ t ∧ s.cf F.GLB_THERM_CTL_SHED_EN 0 = 1 ∧ !s.sys.shedding ∧ !shutNow then
    (s.modSys fun y => { y with shedding := true }).raise 0x1302 0 0
  else s

/-- THERMAL_SAMPLE (R195, R549, R550, R555): the readings of sensors 24 to 27 in °C. -/
def execThermalSample (t24 t25 t26 t27 : Int) (s : State) : Host.Outcome State Fault Refusal := live s fun s =>
  let t := max (max t24 t25) (max t26 t27)
  let was := s.sys.shutdown
  let s := s.modSys fun y => { y with tj := t, tjMax := max y.tjMax (min 255 t.toNat) }
  let s := (s.thermWarn t).thermShut t
  s.thermShed t (s.sys.shutdown && !was)

/-- THERM_STAT.LEVEL (R550, R556). -/
def State.thermLevel (s : State) : Nat :=
  if s.sys.shutdown then 3 else if s.sys.shedding then 2 else if s.sys.warn then 1 else 0

/-! ### Shedding (R110, R551, R552) -/

/-- Crease maps and captures are suspended: an integration and a capture in progress are lost (R151, R365). The cause of
the failed capture is a value that the spec does not state (log 72). -/
def State.shedAux (s : State) (x : Carrier) : State :=
  let s := if (s.car x).cm.run then
      (((s.modCm x fun c => { c with run := false }).bumpx .CAR_CM_DISCARD x).occ 0x0D02 x.ev 0)
    else s
  match (s.car x).rxc.cap with
  | some _ =>
    let w := (s.modRxc x fun c => { c with cap := none }).fresh 1
    w.1.occ 0x040A x.ev 0 w.2
  | none => s

/-- The carrier whose turn it is: the one other than that of the last step shed, B first (R110). -/
def shedTurn (l : List Shed) : Carrier :=
  match l with
  | [] => .B
  | .step x _ :: _ => x.other
  | _ :: r => shedTurn r

/-- The next active step to shed (R110): the turn's carrier, or the other one. -/
def State.shedNext (s : State) : Option (Carrier × Nat) :=
  let x := shedTurn s.sys.shed
  match (s.activeSteps x).getLast?, (s.activeSteps x.other).getLast? with
  | some k, _ => some (x, k)
  | none, some k => some (x.other, k)
  | none, none => none

/-- Keep an action. -/
def State.shedPush (s : State) (h : Shed) : State := s.modSys fun y => { y with shed := h :: y.shed }

/-- SHED_ACTION (R110, R551, R552). -/
def execShedAction (s : State) : Host.Outcome State Fault Refusal := live s fun s =>
  if !s.sys.shedding ∨ s.sys.tj < s.shedAt then s
  else if !s.sys.shed.contains .aux then ((s.shedPush .aux).shedAux .A).shedAux .B
  else match s.shedNext with
    | some (x, k) =>
      ((s.shedPush (.step x k)).modFe .A fun f => { f with cmp := none }).modFe .B fun f => { f with cmp := none }
    | none => if s.sys.shed.contains .passCap then s else s.shedPush .passCap

/-- SHED_RESTORE (R551, R552): the last action is undone. A step held back is restored in its turn, by then or before. -/
def execShedRestore (s : State) : Host.Outcome State Fault Refusal := live s fun s =>
  if !s.sys.shedding ∨ s.shedAt ≤ s.sys.tj ∨ s.sys.coolShed < 10000 then s else
  let rest := s.sys.shed.tail
  let last := s.sys.shed.head?
  let s := s.modSys fun y => { y with shed := rest }
  let s := match last with
    | some (.step x k) => (s.modFe x fun f => { f with heldSteps := f.heldSteps.filter fun j => k < j }).shedFree
    | _ => s
  if rest = [] then (s.modSys fun y => { y with shedding := false }).clear 0x1302 0 0 else s

/-! ### Life consumed (R553) -/

/-- AF of R553 in fixed point, for a temperature in °C. -/
def lifeAF (t : Int) : Int := fexp (frat (81235000 * (t - 95)) (36815 * (100 * t + 27315)).toNat)

/-- LIFE_SECOND (R553, R555). -/
def execLifeSecond (s : State) : Host.Outcome State Fault Refusal := live s fun s =>
  let n := s.sys.lifeFrac + (1000 * lifeAF s.sys.tj).toNat
  let s := (s.modSys fun y => { y with lifeFrac := n % 2 ^ 96 }).bump64 .GLB_LIFE_LO 0 (n / 2 ^ 96)
  let hit := decide (s.lifeLimit ≤ s.cnt .GLB_LIFE_LO 0)
  let was := s.sys.lifeWarned
  let s := s.modSys fun y => { y with lifeWarned := hit }
  if hit && !was then s.occ 0x1305 0 0 else s

/-- LIFE_SAVE (R553): the firmware's hourly save. -/
def execLifeSave (s : State) : Host.Outcome State Fault Refusal := live s fun s =>
  if s.boot.mpUp then s.modSys fun y => { y with lifeSaved := some (s.cnt .GLB_LIFE_LO 0) } else s

/-! ### Status balls (R398, R540, R568) -/

/-- LD_ST or OD_ST: the state of DPLL `d` (0 line, 1 output), and 0b111 during power-on reset (R398). -/
def State.dpllBalls (s : State) (d : Nat) : Nat :=
  if s.sys.held then 7 else match (s.dpll d).st with
    | .freerun => 0 | .acquire => 1 | .locked => 2 | .holdover => 3 | .lockedNew => 4

/-- THERM_ALERT_N is driven low (R550, R568). -/
def State.thermAlert (s : State) : Bool := !s.sys.held && s.sys.shutdown

end Sys2Proof.Machine
end

