-- ==== Sys2Proof/Machine/RegView.lean ====
section
/-! DEFINITION. What a register shows: the fields that Plaile sets, counters and event registers, beside the active
values of the fields that software writes (R20, R501, R504 to R510 and the register tables of every chapter). -/

namespace Sys2Proof.Machine

/-! ### Words of read-only fields -/

/-- A word with given fields: value, lowest bit, width. -/
def pack (l : List (Nat × Nat × Nat)) : Word :=
  BitVec.ofNat 32 (l.foldl (fun a f => a + f.1 % 2 ^ f.2.2 * 2 ^ f.2.1) 0)

/-- A one-bit field of `pack`. -/
def flag (b : Bool) (lo : Nat) : Nat × Nat × Nat := (b2n b, lo, 1)

/-- A word holding a number. -/
def wordN (n : Nat) : Word := BitVec.ofNat 32 n

/-- A word holding a signed number; none reads 0x8000_0000. -/
def wordI (v : Option Int) : Word :=
  match v with
  | some i => BitVec.ofNat 32 (usg 32 i)
  | none => 0x80000000

/-- The carrier and index within it of a carrier register. -/
def RegKey.carIx (k : RegKey) : Carrier × Nat := (carOf k.carNo, k.idx % max 1 (count k.reg.desc.dims.tail))

/-- Converter die of a number. -/
def dieOf (n : Nat) : Die :=
  match n with
  | 0 => .RXA
  | 1 => .TXA
  | 2 => .RXB
  | _ => .TXB

/-- The ring that an index of the ring registers names. -/
def ringOf (i : Nat) : Fn × Nat := if i < 64 then (.PF0, i) else (.PF1, i - 64)

/-- Block number of a register, in the order of R480. PF1's own registers lie in HST. -/
def RegKey.block (k : RegKey) : Nat :=
  match k.reg with
  | .SNAP | .SNAP_TIME_LO | .SNAP_TIME_HI | .SNAP_LIVE => k.idx
  | .HST_PF1_ROUTE0 | .HST_PF1_ROUTE1 | .HST_MSIX | .HST_PBA => 1
  | .EVT_EVR_CTL | .EVT_EVR_BASE_LO | .EVT_EVR_BASE_HI | .EVT_EVR_HEAD | .EVT_EVR_TAIL | .EVT_EVR_SEQ
  | .EVT_EVR_LOST => if k.idx < 4 then 2 else 1
  | r => if r.desc.base < 0x1000000 then r.desc.base / 0x100000 else 13 + k.carNo

/-- Bits of words that show which vectors wait (R461). -/
def State.pbaWord (s : State) (fn : Fn) (lo : Nat) : Word :=
  BitVec.ofNat 32 (bitsNat ((List.range 32).map fun i => s.io.pba.contains (fn, lo + i)))

/-- PRESS steps assigned to a carrier (R94). -/
def State.stepsOf (s : State) (x : Carrier) : Nat := s.cfx F.CAR_PRESS_CTL_STEPS x

/-- GLB's read-only fields (R34, R112, R432, R519, R556). -/
def State.viewGlb (s : State) (k : RegKey) : Word :=
  match k.reg with
  | .GLB_DTIME_FRAC => wordN (s.sys.dtime % 65536)
  | .GLB_COMMIT_STAT => wordN (scopesMask ((List.range 9).filter s.pending?))
  | .GLB_PRESS_POOL =>
    let a := s.stepsOf .A
    let b := s.stepsOf .B
    pack [(s.retired.length, 24, 6), (48 - a - b - s.retired.length, 16, 6), (b, 8, 6), (a, 0, 6)]
  | .GLB_CAL_STAT =>
    let c := s.cali k.idx
    pack [(c.dis, 16, 8), (c.result, 4, 4), (c.st.code, 0, 2)]
  | .GLB_RST_STAT => pack [(s.sys.rstRail, 4, 3), (s.sys.rstCause, 0, 4)]
  | .GLB_THERM_STAT =>
    let steps := (s.sys.shed.filter fun h => match h with
      | .step _ _ => true
      | _ => false).length
    pack [((max 0 s.sys.tj).toNat, 24, 8), (steps, 10, 6), flag (s.sys.shed.contains .passCap) 9,
      flag (s.sys.shed.contains .aux) 8, (s.thermLevel, 0, 2)]
  | .GLB_TJ_MAX => wordN (s.sys.tjMax % 256)
  | _ => s.rd k

/-- A block has an EVENTS bit set (R510). -/
def State.blockEvents (s : State) (n : Nat) : Bool :=
  s.io.evtw.any fun e => e.1.block == n && e.2.toNat % 2 ^ 24 != 0

/-- HST's and EVT's registers that show rings (R497, R510). -/
def State.viewHst (s : State) (k : RegKey) : Word :=
  let q := s.ring (ringOf k.idx).1 (ringOf k.idx).2
  match k.reg with
  | .HST_RING_STAT =>
    pack [(q.cause, 2, 2), (match q.st with
      | .disabled => 0
      | .running => 1
      | .halted => 2
      | .stopping => 3, 0, 2)]
  | .HST_RING_ALIVE => wordN q.alive
  | .HST_RING_CONS => wordN q.cons
  | .HST_DB => wordN q.prod
  | .HST_PBA => if k.idx < 2 then s.pbaWord .PF0 (32 * k.idx) else s.pbaWord .PF1 0
  | .EVT_EVR_TAIL => wordN (s.io.evring k.idx).tail
  | .EVT_EVR_SEQ => wordN (s.io.evring k.idx).seq
  | .EVT_MSG_TAIL => wordN s.io.msgTail
  | .EVT_SUM => wordN (bitsNat ((List.range 15).map s.blockEvents))
  | _ => s.rd k

/-- PROGRESS of a region: while it is starched the spec bounds it only (log 73). -/
def State.rgnProgress (s : State) (g : Nat) : Nat :=
  match (s.rgn g).st with
  | .ready => 100
  | .starching => (Config.rgnProgress g s.sys.dtime).val
  | _ => 0

/-- MEM's and CXL's read-only fields (R460). -/
def State.viewMem (s : State) (k : RegKey) : Word :=
  match k.reg with
  | .MEM_STAT => pack [((s.mem.mems.filter fun e => e.2.worn).length, 8, 8), flag s.mem.starch 0]
  | .MEM_LAST => s.mem.last
  | .MEM_MEM_PATCH =>
    let q := s.memo k.idx
    pack [(q.used, 28, 4), flag q.worn 27, (q.lastRow, 0, 20)]
  | .CXL_PORT_STAT =>
    let p := s.cxlPort k.idx
    pack [(p.cap, 21, 11), (p.width, 16, 5), (p.rate, 8, 3), flag (p.up && !p.full) 1, flag p.up 0]
  | .CXL_RGN_STAT =>
    let g := s.rgn k.idx
    pack [(s.rgnProgress k.idx, 8, 8), (g.cause, 4, 2), (match g.st with
      | .unassigned => 0
      | .starching => 1
      | .ready => 2
      | .failed => 3, 0, 2)]
  | _ => s.rd k

/-- SPARE16 or SPARE17 of a module (R66, R72): the data lane it carries, 0x1E not available, 0x1F free. -/
def State.spareShow (s : State) (d : Die) (m p : Nat) : Nat :=
  let l := s.lane d m p
  if l.gone then 0x1E else l.carries.getD 0x1F

/-- STI's read-only fields (R72). -/
def State.viewSti (s : State) (k : RegKey) : Word :=
  match k.reg with
  | .STI_DIE_STAT =>
    let d := dieOf k.idx
    let q := s.die d
    pack [flag q.fault 15, flag q.clk 14, flag q.aligned 13, (s.degraded d, 8, 5), (s.darned d, 0, 8)]
  | .STI_MOD_STAT =>
    let d := dieOf (k.idx / 26)
    let m := k.idx % 26
    pack [flag (s.smod d m).deg 12, flag (s.smod d m).sbLock 11, flag (s.modAligned d m) 10,
      (s.spareShow d m 17, 5, 5), (s.spareShow d m 16, 0, 5)]
  | .STI_LANE_STAT =>
    let d := dieOf (k.idx / 468)
    let m := k.idx / 18 % 26
    let n := k.idx % 18
    let l := s.lane d m n
    let role := if l.retr then 3 else if s.laneTest d m n then 2 else if l.st = .failed then 3
      else if l.st = .locked ∧ l.carries = none then 1 else 0
    pack [(if l.st = .locked then l.carries.getD 0x1F else 0x1F, 6, 5), (role, 4, 2), flag l.sync 2, flag (l.st == .locked) 1]
  | _ => s.rd k

/-- TIM's read-only fields (R402). -/
def State.viewTim (s : State) (k : RegKey) : Word :=
  match k.reg with
  | .TIM_SLOT_STAT => pack [flag (s.stands 0x0E02 0 k.idx) 3, ((s.slot k.idx).st.code, 0, 3)]
  | .TIM_SLOT_FREQ => wordI (s.slot k.idx).freq
  | .TIM_ROOT_STAT => pack [flag s.tim.root 0]
  | .TIM_DPLL_STAT =>
    let q := s.dpll k.idx
    pack [flag (s.hoReady k.idx) 10, flag (s.stands 0x0E08 0 k.idx) 9, flag q.sel.isSome 7, (q.sel.getD 0, 4, 3),
      (q.st.code, 0, 3)]
  | .TIM_DPLL_FREQ => wordI (some (s.dpll k.idx).freq)
  | .TIM_DPLL_HO_USED => wordI (s.dpll k.idx).hoUsed
  | .TIM_DPLL_PHASE => wordI (some (s.dpll k.idx).phase)
  | .TIM_DPLL_HIST_IDX => pack [((s.dpll k.idx).run, 16, 12), ((s.dpll k.idx).next, 0, 12)]
  | .TIM_OUT_PHASE => wordI (some (s.outSt k.idx).phase)
  | .TIM_DPLL_HIST =>
    let e := s.histEnt (k.idx / 4096) (k.idx % 4096)
    pack [(usg 28 e.freq, 4, 28), flag e.switch 1, flag e.locked 0]
  | _ => s.rd k

/-- MON's fields that the monitor and the bias loops write (R420). -/
def State.viewMon (s : State) (k : RegKey) : Word :=
  match k.reg with
  | .MON_STAT => pack [(((s.mon.conv.map (·.input)).getD 0), 11, 5), (s.mon.urg.length, 8, 3), (s.mon.aborts, 4, 2),
      flag s.mon.supSet 2, flag s.mon.extSet 1, flag s.mon.intSet 0]
  | .MON_SCAN_CNT => wordN s.mon.scans
  | .MON_RES => agetD s.mon.res k.idx 0
  | .MON_RES_TIME => wordN (agetD s.mon.resT k.idx 0)
  | .MON_DCB_EST => wordN (usg 24 (agetD s.mon.dcb k.idx 0))
  | .MON_BIAS_VAL => wordN (s.bias k.idx).val
  | .MON_BIAS_DEM => (s.bias k.idx).dem
  | .MON_BIAS_STAT => pack [flag (s.biasRamps k.idx) 3, flag (s.bias k.idx).hold 2, flag (s.stands 0x0F06 0 k.idx) 1,
      flag (s.stands 0x0F05 0 k.idx) 0]
  | _ => s.rd k

/-! ### Check units (R516 to R518) -/

/-- A check unit. -/
def State.chkUnit (s : State) (u : Nat) : ChkUnit := agetD s.chk u chkReset
/-- Change it. -/
def State.modChk (s : State) (u : Nat) (f : ChkUnit → ChkUnit) : State := { s with chk := aset s.chk u (f (s.chkUnit u)) }

/-- Initial value of an algorithm (R516). -/
def chkInit (alg : Nat) : BitVec 64 :=
  match alg with
  | 2 => 0xFFFF
  | 3 => 0
  | _ => 0xFFFFFFFF

/-- Final XOR of an algorithm (R516). -/
def chkXor (alg : Nat) : BitVec 64 :=
  match alg with
  | 0 | 1 => 0xFFFFFFFF
  | _ => 0

/-- The running register after a byte (R516, R518). -/
def chkByte (alg : Nat) (v : BitVec 64) (b : Byte) : BitVec 64 :=
  match alg with
  | 0 => crcRefByte 0x82F63B78 v b
  | 1 => crcRefByte 0xEDB88320 v b
  | 2 => crcMsbByte 16 0x1021 v b
  | _ => crcMsbByte 64 0x42F0E1EBA9EA3693 v b

/-- The bits of VALUE that an algorithm uses (R518). -/
def chkMask (alg : Nat) : BitVec 64 :=
  match alg with
  | 2 => 0xFFFF
  | 3 => -1
  | _ => 0xFFFFFFFF

/-- The 64-bit mask of byte enables of one half. -/
def beMask (be : BitVec 4) : Word :=
  BitVec.ofNat 32 (bitsNat ((List.range 32).map fun i => be.getLsbD (i / 8)))

/-- The running register after an entry of the queue. -/
def chkOp (alg : Nat) (v : BitVec 64) (o : ChkOp) : BitVec 64 :=
  match o with
  | .byte b => chkByte alg v b
  | .valueLo w be => (merge (v.setWidth 32) w (beMask be)).setWidth 64 ||| ((v >>> 32) <<< 32)
  | .valueHi w be =>
    (v.setWidth 32).setWidth 64 ||| ((merge ((v >>> 32).setWidth 32) w (beMask be)).setWidth 64 <<< 32)
  | .init a => chkInit a

/-- The queue drains (R517). -/
def State.chkDrain (s : State) (u : Nat) : State :=
  let alg := s.cf F.CHK_CTL_ALG u
  s.modChk u fun q => ⟨(q.queue.flatMap id).foldl (chkOp alg) q.value, []⟩

/-- A queued entry is taken up in a control-clock cycle (R517). -/
def State.chkCycle (s : State) (u : Nat) : State :=
  let alg := s.cf F.CHK_CTL_ALG u
  match (s.chkUnit u).queue with
  | [] => s
  | [] :: r => s.modChk u fun q => { q with queue := r }
  | (o :: w) :: r => s.modChk u fun q => ⟨chkOp alg q.value o, if w = [] then r else w :: r⟩

/-- VALUE or RESULT of a unit, 64 bits (R518). -/
def State.chkShow (s : State) (u : Nat) (result : Bool) : Nat :=
  let alg := s.cf F.CHK_CTL_ALG u
  (((s.chkUnit u).value ^^^ (if result then chkXor alg else 0)) &&& chkMask alg).toNat

/-! ### Security, clients, Seam -/

/-- Words of a byte string: word `w`, zero past its end (R538). -/
def byteWord (b : Bytes) (w : Nat) : Word := wordN (leAt b (4 * w) 4)

/-- SEC's read-only fields (R280, R538). -/
def State.viewSec (s : State) (k : RegKey) : Word :=
  let b := s.boot
  match k.reg with
  | .SEC_BOOT_STAT => pack [(b.fail, 24, 4), ((b.running.map (·.src)).getD 0, 20, 2), (b.srcPins, 16, 2),
      ((b.running.map (·.svn)).getD 0, 8, 8), (b.st, 0, 3)]
  | .SEC_FW_BUILD => wordN ((b.running.map (·.build)).getD 0)
  | .SEC_OTP => pack [(bitsNat ((List.range 4).map b.otpRevoked.contains), 8, 4), (b.otpSvn, 0, 7)]
  | .SEC_FW_STAT => pack [flag b.staged.isSome 31, (b.dlFail, 24, 4), ((b.staged.map (·.svn)).getD 0, 16, 8),
      (b.flash, 2, 2)]
  | .SEC_ID_STAT => wordN b.idState
  | .SEC_ID_IDENT_LO => byteWord b.ident 0
  | .SEC_ID_IDENT_HI => byteWord b.ident 1
  | .SEC_CFG_STAT => pack [flag b.cfgPending 0]
  | .SEC_ATT_CNT => wordN b.attCnt
  | .SEC_DBG_STAT => pack [flag b.dbgUnlocked 0]
  | .SEC_CIPH_KA =>
    let q := s.ka (carOf k.idx)
    pack [(q.session, 16, 16), (if q.state = 2 ∧ q.respB = [] then 0 else q.state, 12, 4), (q.lastErr, 8, 4), flag (q.peer != []) 0]
  | .SEC_CIPH_CH_TX =>
    let h := s.ciphCh k.idx
    let next := [0, 1].any fun p => ((h.ent p).map (·.txNew)).getD false
    pack [(h.txEpoch, 8, 24), flag next 7, flag h.zero 6, flag h.soft 5]
  | .SEC_CIPH_CH_RX =>
    let h := s.ciphCh k.idx
    let x : Carrier := if s.ownsSlot .CAR_TR_SLOT_RX .A k.idx then .A else .B
    pack [(h.rxEpoch x, 8, 24), flag (h.rxNext x) 7, flag (s.stands 0x0901 1 k.idx || s.stands 0x0901 2 k.idx) 6,
      flag (h.rxLost .A || h.rxLost .B) 5]
  | _ => s.rd k

/-- CLI's read-only fields (R328). -/
def State.viewCli (s : State) (k : RegKey) : Word :=
  match k.reg with
  | .CLI_PORT_STAT =>
    let p := s.port k.idx
    pack [flag (s.portMode k.idx != 0 && !p.los && !p.lol) 5, flag (s.portFail k.idx) 4, flag p.hiUnc 3, flag p.lol 2,
      flag p.los 1]
  | .CLI_FLX_STAT =>
    let g := s.flxGrp k.idx
    pack [flag g.defect 2, (g.cal, 1, 1), flag g.lock 0]
  | .CLI_CH_STAT =>
    let h := s.chan k.idx
    pack [flag h.calMis 7, flag h.mapLost 6, flag h.repl 5, flag h.csfRx 4, flag h.csfTx 3, flag h.mapIn 0]
  | _ => s.rd k

/-- SEAM.DELTA_MEAS (R284): none when nothing was paired in the last 40.96 µs. -/
def State.deltaMeas (s : State) : Option Int :=
  match s.seam.arr with
  | some a => if s.ns - s.seam.pairAt ≤ 40960 then some (a.2 - a.1) else none
  | none => none

/-- SEAM's read-only fields (R307). -/
def State.viewSeam (s : State) (k : RegKey) : Word :=
  match k.reg with
  | .SEAM_STAT =>
    let g := s.ringRgn
    let up := ([0, 1].filter fun p => g < 32 && s.rgnOn g p && (s.cxlPort p).up).length
    pack [(s.seamState, 12, 4), flag s.seam.onFall 11, flag (s.stands 0x0A08 0 0) 10,
      (if s.seam.leadKnown then s.lead.num else 2, 8, 2), (up, 0, 2)]
  | .SEAM_DELTA_MEAS => wordI s.deltaMeas
  | .SEAM_DELTA_USE => wordI (some s.seam.deltaUse)
  | .SEAM_LOAD => pack [(s.deskewCap s.rd s.ringRgn, 16, 10), (sumN (s.ringChans.map (deskewSlots s.rd)), 0, 10)]
  | .SEAM_CH_STAT =>
    let c := k.idx
    let h := s.sch c
    let a := s.copyCond c .A
    let b := s.copyCond c .B
    match placeOf s.rd c with
    | .bonded => pack [flag (a == 2 || b == 2) 16, (b, 4, 2), (a, 2, 2), (1, 0, 2)]
    | .prot => pack [(h.req, 12, 4), (h.cmd, 9, 3), flag h.wtr 8, flag h.hold 7, (h.sel.num, 6, 1), (b, 4, 2), (a, 2, 2),
        (if h.dropped then 3 else 2, 0, 2)]
    | _ => 0
  | _ => s.rd k

/-! ### Carriers -/

/-- PLAN_STAT.PEND_EPOCH (R227): the proposer's epoch in flight, else the loaded end's. -/
def Plan.pendEpoch (p : Plan) : Nat :=
  (p.inFlight.or ((p.txPend.map (recEpoch ·.body)).or (p.awaiting.map recEpoch))).getD 0

/-- PLAN_STAT.RX_STATE (R227). -/
def Plan.rxState (p : Plan) : Nat :=
  if p.lost then 5 else if p.recov.isSome then 4 else if p.rxPend.isSome then 3 else if p.prop.isSome then 2
  else match p.computed with
    | some r => if recEpoch r = recEpoch p.rxRec then 0 else 1
    | none => 0

/-- The active transmit record of a subcarrier at or above the number of subcarriers shows nothing (R201). -/
def State.scOff (s : State) (x : Carrier) (i : Nat) : Bool := decide (2 ^ s.cfx F.CAR_TX_CTL_SC_LOG2 x ≤ i)

/-- Fields of a carrier's front end, equaliser and Press (R112). -/
def State.viewFe (s : State) (k : RegKey) : Word :=
  let x := k.carIx.1
  let i := k.carIx.2
  let f := (s.car x).fe
  match k.reg with
  | .CAR_CDE_ACT => wordI (some f.act)
  | .CAR_CDE_EST => wordI (some f.estD)
  | .CAR_CDE_STAT => pack [(usg 16 f.trim, 16, 16), (f.cde, 8, 4),
      flag (f.cde != 0 && blockN (s.cfx F.CAR_RXC_RATE_KBD x) == 131072) 0]
  | .CAR_CDE_EST_Q => pack [flag f.valid 9, flag f.est.isSome 8, (f.conf, 0, 8)]
  | .CAR_PRESS_STAT => pack [(f.lastDelta, 16, 16), (f.reverts, 8, 8), flag f.followStop 7, flag f.noGain 6,
      (s.segCount x, 0, 6)]
  | .CAR_PRESS_SEG =>
    let l := (s.segSpans x i).map (·.num)
    pack [(l.foldl min (l.headD 0), 24, 8), (l.length, 16, 8), (f.set.pow.getD i noMeas, 0, 16)]
  | .CAR_PRESS_DET => wordI (some (s.segC x i))
  | _ => s.rd k

/-- Fields of a carrier's receive core, line code and transmit chain (R153, R177, R201). -/
def State.viewRx (s : State) (k : RegKey) : Word :=
  let x := k.carIx.1
  let i := k.carIx.2
  let c := (s.car x).rxc
  let f := (s.car x).fec
  let t := (s.car x).tx
  let on := c.st == .train || c.st == .locked
  match k.reg with
  | .CAR_RXC_STAT => pack [flag c.frozen 5, flag (c.st == .locked) 4, (match c.st with
      | .disabled => 0
      | .waitInput => 1
      | .hunt => 2
      | .train => 3
      | .locked => 4, 0, 4)]
  | .CAR_RXC_FREQ => wordI (if on then some c.freq else none)
  | .CAR_RXC_CLK => wordI (if on then some c.clk else none)
  | .CAR_RXC_MEAN => pack [(c.mean, 16, 16), (c.min, 0, 16)]
  | .CAR_RXC_SNR => if i < 2 ^ s.cfx F.CAR_RXC_CTL_SC_LOG2 x then c.snr.getD i 0x80008000 else 0x80008000
  | .CAR_RXC_NOISE => if i < 2 ^ s.cfx F.CAR_RXC_CTL_SC_LOG2 x then c.noise.getD i 0x80008000 else 0x80008000
  | .CAR_FEC_STAT => pack [(f.detRate.getD 0, 10, 3), flag (s.stands 0x0503 x.ev 0) 9, flag f.watch.isSome 8,
      (f.actRate, 4, 3), (match f.st with
        | .idle => 0
        | .hunt => 1
        | .locked => 2, 0, 2)]
  | .CAR_FEC_MEAS => pack [(f.margin, 16, 16), (f.avgPass, 0, 16)]
  | .CAR_FEC_BER => wordN f.ber
  | .CAR_TX_STAT => pack [(bitsNat (s.txCauses x), 9, 7), (match t.st with
      | .off => 0
      | .rampUp => 1
      | .on => 2
      | .rampDown => 3
      | .squelched => 4
      | .forced => 5, 0, 3)]
  | .CAR_TX_SC =>
    if s.scOff x i then setBits (s.rd k) 15 0 0
    else setBits (s.rd k) 15 13 (bandB (s.cfx F.CAR_TX_SC_E x i))
  | .CAR_TX_CDF => if s.scOff x (i / 7) then 0 else wordN (cdf (s.cfx F.CAR_TX_SC_E x (i / 7)) (i % 7))
  | _ => s.rd k

/-- Fields of a carrier's bit loading and framer (R227, R259, R260). -/
def State.viewTr (s : State) (k : RegKey) : Word :=
  let x := k.carIx.1
  let i := k.carIx.2
  let p := (s.car x).plan
  let t := (s.car x).tr
  match k.reg with
  | .CAR_PLAN_STAT => pack [(p.pendEpoch, 16, 16), (p.rxState, 8, 4),
      (if p.txPend.isSome then 2 else if p.awaiting.isSome then 1 else 0, 4, 2), (p.lastReject, 0, 4)]
  | .CAR_PLAN_EPOCH => pack [(s.rxAct x, 16, 16), (s.txAct x, 0, 16)]
  | .CAR_PLAN_REC_NEW => byteWord ((p.awaiting.or p.computed).getD []) i
  | .CAR_PLAN_REC_TX => byteWord (s.txRecord s.rd x) i
  | .CAR_PLAN_REC_RX => byteWord (s.rxRecord s.rd x) i
  | .CAR_PLAN_SHED_MAP => wordN (sumN ((List.range 32).map fun c =>
      if (mapChans p.shedMap).contains (32 * i + c) then 2 ^ c else 0))
  | .CAR_TR_STAT => pack [flag (s.stands 0x0807 x.ev 0) 14, flag (s.ssf x) 13, flag (s.stands 0x0806 x.ev 0) 12,
      flag (s.stands 0x0805 x.ev 0) 11, flag (s.stands 0x0804 x.ev 0) 10, flag t.rdiTx 9, flag (s.stands 0x0803 x.ev 0) 8,
      flag (s.stands 0x0802 x.ev 0) 7, flag (s.stands 0x0801 x.ev 0) 6, (t.cands.length, 3, 3), (match t.st with
        | .hunt => 0
        | .frame => 1
        | .aligned => 2, 0, 2)]
  | .CAR_TR_STRACE_ACC => byteWord t.trace.acc i
  | .CAR_TR_PATH_STAT => pack [flag (s.path x i).csf 5, flag (s.psfHere x i) 4, flag (s.stands 0x080C x.ev i) 3,
      flag (s.stands 0x0809 x.ev i) 2, flag (s.stands 0x0808 x.ev i) 1, flag (s.ownsSlot .CAR_TR_SLOT_RX x i) 0]
  | .CAR_TR_PTRACE_ACC => byteWord (s.path x (i / 4)).trace.acc (i % 4)
  | _ => s.rd k

/-- TK_STAT.TX_STATE (R357): the part of the burst that runs now. -/
def State.tkTxState (s : State) (x : Carrier) : Nat :=
  match (s.car x).tk.burst with
  | none => 0
  | some b =>
    let r := b.ramp * 1000 * 65536
    if s.sys.dtime < b.start + r then 1 else if s.sys.dtime + r < b.stop then 2 else 3

/-- The listed anomalies in ascending bin order (R369). -/
def Crease.list (c : Crease) : List Anom :=
  (c.anoms.take 64).foldl (fun l a => l.takeWhile (fun b => b.bin ≤ a.bin) ++ a :: l.dropWhile (fun b => b.bin ≤ a.bin)) []

/-- Fields of a carrier's Tack and crease map (R357, R377). -/
def State.viewTk (s : State) (k : RegKey) : Word :=
  let x := k.carIx.1
  let i := k.carIx.2
  let t := (s.car x).tk
  let c := (s.car x).cm
  match k.reg with
  | .CAR_TK_STAT => pack [((t.burst.map fun b => if b.alone then 2 else 1).getD 0, 18, 2), (s.tkTxState x, 16, 2),
      (s.tkRxState x, 8, 4), (t.queue.length, 4, 4), flag (s.stands 0x0C01 x.ev 0) 2, flag (s.stands 0x0C04 x.ev 0) 1,
      flag t.cancel 0]
  | .CAR_TK_FLOOR => pack [(t.floor, 16, 16)]
  | .CAR_TK_LAST => pack [(t.sinr, 16, 16), (t.rssi, 0, 16)]
  | .CAR_TK_HELLO_RX => byteWord t.hello i
  | .CAR_CM_STAT =>
    let share := if c.run then min 100 ((s.ns - c.start) / (10000000 * max 1 (s.cfx F.CAR_CM_CTL_INT_S x))) else 0
    let on := if c.run = false then 0 else if (s.car x).rxc.st = .locked then 1 else 2
    pack [((c.fits.filter fun e => e.2.valid).length, 23, 9), (share, 8, 8), flag c.full 7,
      flag (c.fits.any fun e => e.2.deviate) 6, flag (s.stands 0x0D08 x.ev 0) 5, flag (s.stands 0x0D07 x.ev 0) 4,
      flag (s.stands 0x0D06 x.ev 0) 3, flag (s.stands 0x0D04 x.ev 0) 2, (on, 0, 2)]
  | .CAR_CM_SEQ => wordN c.seq
  | .CAR_CM_TILT => wordN c.slope
  | .CAR_CM_HIST_DEPTH => wordN (s.cmDepth x)
  | .CAR_CM_HIST_NEXT => wordN c.next
  | .CAR_CM_FIT0 => (s.cmFitWords x i).1
  | .CAR_CM_FIT1 => (s.cmFitWords x i).2
  | .CAR_CM_ANOM0 => ((c.list[i]?).map fun a => pack [(a.span, 24, 8), (a.bin, 0, 17)]).getD 0
  | .CAR_CM_ANOM1 => ((c.list[i]?).map fun a => pack [(a.loss, 16, 16), (a.age, 0, 16)]).getD 0x80000000
  | _ => s.rd k

/-! ### Counters, pairs and snapshots (R505 to R508) -/

/-- The registers that a read of a _LO register latches (R12, R26, R504, R506 and the register tables). -/
def hiOf (r : RegId) : List RegId :=
  match r with
  | .GLB_DTIME_LO => [.GLB_DTIME_HI, .GLB_DTIME_FRAC]
  | .GLB_TX_MFC_LO => [.GLB_TX_MFC_HI]
  | .GLB_CAL_TIME_LO => [.GLB_CAL_TIME_HI]
  | .GLB_LIFE_LO => [.GLB_LIFE_HI]
  | .STI_CLIP_LO => [.STI_CLIP_HI]
  | .TIM_SLOT_TS_LO => [.TIM_SLOT_TS_HI]
  | .CHK_VALUE_LO => [.CHK_VALUE_HI]
  | .CHK_RESULT_LO => [.CHK_RESULT_HI]
  | .PRF_CNT_LO => [.PRF_CNT_HI]
  | .SEC_CFG_DTIME_LO => [.SEC_CFG_DTIME_HI]
  | .CLI_PORT_FEC_CORR_LO => [.CLI_PORT_FEC_CORR_HI]
  | .CAR_RXC_SFC_LO => [.CAR_RXC_SFC_HI]
  | .CAR_FEC_BLK_LO => [.CAR_FEC_BLK_HI]
  | .CAR_FEC_CORR_LO => [.CAR_FEC_CORR_HI]
  | .CAR_TX_CLIP_LO => [.CAR_TX_CLIP_HI]
  | .CAR_PLAN_TX_TGT_LO => [.CAR_PLAN_TX_TGT_HI]
  | .CAR_PLAN_RX_TGT_LO => [.CAR_PLAN_RX_TGT_HI]
  | .CAR_TR_RX_MFC_LO => [.CAR_TR_RX_MFC_HI]
  | .CAR_TR_MSG_RX_LO => [.CAR_TR_MSG_RX_HI]
  | .CAR_TK_TX_FRM_LO => [.CAR_TK_TX_FRM_HI]
  | .CAR_TK_RX_GOOD_LO => [.CAR_TK_RX_GOOD_HI]
  | .SNAP_TIME_LO => [.SNAP_TIME_HI]
  | _ => []

/-- The _LO register of a _HI register of a pair that counts or holds 64 bits. -/
def loOf (r : RegId) : Option RegId :=
  match r with
  | .GLB_DTIME_HI => some .GLB_DTIME_LO
  | .GLB_TX_MFC_HI => some .GLB_TX_MFC_LO
  | .GLB_CAL_TIME_HI => some .GLB_CAL_TIME_LO
  | .GLB_LIFE_HI => some .GLB_LIFE_LO
  | .STI_CLIP_HI => some .STI_CLIP_LO
  | .TIM_SLOT_TS_HI => some .TIM_SLOT_TS_LO
  | .CHK_VALUE_HI => some .CHK_VALUE_LO
  | .CHK_RESULT_HI => some .CHK_RESULT_LO
  | .PRF_CNT_HI => some .PRF_CNT_LO
  | .SEC_CFG_DTIME_HI => some .SEC_CFG_DTIME_LO
  | .CLI_PORT_FEC_CORR_HI => some .CLI_PORT_FEC_CORR_LO
  | .CAR_RXC_SFC_HI => some .CAR_RXC_SFC_LO
  | .CAR_FEC_BLK_HI => some .CAR_FEC_BLK_LO
  | .CAR_FEC_CORR_HI => some .CAR_FEC_CORR_LO
  | .CAR_TX_CLIP_HI => some .CAR_TX_CLIP_LO
  | .CAR_PLAN_TX_TGT_HI => some .CAR_PLAN_TX_TGT_LO
  | .CAR_PLAN_RX_TGT_HI => some .CAR_PLAN_RX_TGT_LO
  | .CAR_TR_RX_MFC_HI => some .CAR_TR_RX_MFC_LO
  | .CAR_TR_MSG_RX_HI => some .CAR_TR_MSG_RX_LO
  | .CAR_TK_TX_FRM_HI => some .CAR_TK_TX_FRM_LO
  | .CAR_TK_RX_GOOD_HI => some .CAR_TK_RX_GOOD_LO
  | .SNAP_TIME_HI => some .SNAP_TIME_LO
  | _ => none

/-- A snapshot of a block. -/
def State.snap (s : State) (n : Nat) : Snap := agetD s.io.snaps n snapReset

/-- The whole value of a _LO register or of a register of its own, live. -/
def State.liveNat (s : State) (k : RegKey) : Nat :=
  let x := k.carIx.1
  match k.reg with
  | .GLB_DTIME_LO => s.ns
  | .GLB_TX_MFC_LO => s.sys.txMfc
  | .GLB_CAL_TIME_LO => (s.cali k.idx).time
  | .TIM_SLOT_TS_LO => (s.slot k.idx).ts
  | .CHK_VALUE_LO => s.chkShow k.idx false
  | .CHK_RESULT_LO => s.chkShow k.idx true
  | .SEC_CFG_DTIME_LO => s.boot.cfgDtime
  | .CAR_RXC_SFC_LO => (s.car x).rxc.sfc
  | .CAR_PLAN_TX_TGT_LO => (((s.car x).plan.txPend).map (·.target)).getD 0
  | .CAR_PLAN_RX_TGT_LO => (((s.car x).plan.rxPend).map (·.target)).getD 0
  | .CAR_TR_RX_MFC_LO => (s.car x).tr.mfc
  | .SNAP_TIME_LO => (s.snap k.idx).ns
  | _ => s.cnt k.reg k.idx

/-- The value that reads see: a frozen block's counters show their snapshot copies (R505). -/
def State.showNat (s : State) (k : RegKey) : Nat :=
  if k.reg.isCnt && (s.snap k.block).frozen then agetD (s.snap k.block).copies k 0 else s.liveNat k

/-- The registers whose whole value `liveNat` gives: counters and the _LO registers of pairs. -/
def RegId.isNat (r : RegId) : Bool := r.isCnt || !(hiOf r).isEmpty

/-- A register of type SQC (R509). -/
def RegId.isSqc (r : RegId) : Bool := r.desc.flds.any (fun f => f.acc == .sqc)

/-- What a register shows now, before any latch. -/
def State.view (s : State) (k : RegKey) : Word :=
  match loOf k.reg with
  | some lo => wordN (s.showNat ⟨lo, k.idx⟩ / 2 ^ 32)
  | none =>
    if k.reg.isNat then wordN (s.showNat k)
    else if k.reg.isSqc then agetD s.io.evtw k 0
    else match k.reg with
      | .SNAP => pack [((s.snap k.idx).count, 1, 31), flag (s.snap k.idx).frozen 0]
      | .PRF_BW_SEQ => wordN s.io.bwSeq
      | .PRF_BW => wordN (agetD s.io.bw k.idx (0, 0)).1
      | .CHK_STAT => wordN (s.chkUnit k.idx).queue.length
      | .PRESS_FILT => 0
      | _ => match k.block with
        | 0 => s.viewGlb k
        | 1 | 2 => s.viewHst k
        | 3 | 4 => s.viewMem k
        | 5 => s.viewSti k
        | 6 => s.viewTim k
        | 7 => s.viewMon k
        | 10 => s.viewSec k
        | 11 => s.viewCli k
        | 12 => s.viewSeam k
        | 13 | 14 =>
          if k.reg.desc.base < 0x1130000 then s.viewFe k
          else if k.reg.desc.base < 0x1160000 then s.viewRx k
          else if k.reg.desc.base < 0x11C0000 then s.viewTr k
          else s.viewTk k
        | _ => s.rd k

/-- STAGED_READ's word (R479): the staging copies of staged fields, and what the other fields show. -/
def State.stagedView (s : State) (k : RegKey) : Word :=
  merge (s.view k) (s.stagedWord k) (fldMask k.reg fun f => f.stg.isSome)

end Sys2Proof.Machine
end

