-- ==== Sys2Proof/Machine/RegRead.lean ====
section
/-! DEFINITION. Reads: registers with their latches, snapshots, the counter page, table windows; the ring commands that
read, and host buffers (R12, R447, R479, R480, R492, R500 to R506, R514, R515). -/

namespace Sys2Proof.Machine

/-- The function through whose window an agent reaches a register: the management processor sees PF0's (log 74). -/
def Agent.fn (a : Agent) : Fn :=
  match a with
  | .pf1 => .PF1
  | _ => .PF0

/-! ### Snapshots (R505) -/

/-- Live counts of a block, those kept elsewhere first. -/
def State.blockCounts (s : State) (n : Nat) : Tab RegKey Nat :=
  let own : Tab RegKey Nat := match n with
    | 0 => [(⟨.GLB_TX_MFC_LO, 0⟩, s.sys.txMfc)]
    | 13 => [(⟨.CAR_RXC_SFC_LO, 0⟩, s.carA.rxc.sfc)]
    | 14 => [(⟨.CAR_RXC_SFC_LO, 1⟩, s.carB.rxc.sfc)]
    | _ => []
  own ++ s.io.cnt.filter fun e => e.1.block == n

/-- Latch the counters of a block (R505, R480). -/
def State.snapshot (s : State) (n : Nat) : State :=
  { s with io := { s.io with
      snaps := aset s.io.snaps n ⟨s.blockCounts n, s.ns, ((s.snap n).count + 1) % 2 ^ 31, true⟩ } }

/-- Return a block's counter reads to live values. -/
def State.snapLive (s : State) (n : Nat) : State :=
  { s with io := { s.io with snaps := aset s.io.snaps n { s.snap n with frozen := false } } }

/-! ### Registers -/

/-- A reader's latched word of a register (R504): zero before its first read of the _LO register. -/
def State.latched (s : State) (who : Agent) (k : RegKey) : Word := wordN (agetD s.io.latch (who, k) 0)

/-- Set a reader's latch. -/
def State.latch (s : State) (who : Agent) (k : RegKey) (v : Nat) : State :=
  { s with io := { s.io with latch := aset s.io.latch (who, k) v } }

/-- A read of a _LO register latches the rest of its value, of which `v` is the whole (R12, R504, R506). -/
def State.latchHi (s : State) (who : Agent) (k : RegKey) (v : Nat) : State :=
  s.each (hiOf k.reg) fun s h =>
    s.latch who ⟨h, k.idx⟩ (if h = .GLB_DTIME_FRAC then s.sys.dtime % 65536 else v / 2 ^ 32 % 2 ^ 32)

/-- A register that a check unit's queue delays (R517). -/
def RegId.chkWaits (r : RegId) : Bool :=
  r == .CHK_VALUE_LO || r == .CHK_VALUE_HI || r == .CHK_RESULT_LO || r == .CHK_RESULT_HI || r == .CHK_STAT

/-- A 32-bit read of a register, with its side effects. -/
def State.readReg (s : State) (who : Agent) (k : RegKey) : State × Word :=
  let s := if k.reg = .SNAP then s.snapshot k.idx else if k.reg.chkWaits then s.chkDrain k.idx else s
  if (loOf k.reg).isSome ∨ k.reg = .GLB_DTIME_FRAC then (s, s.latched who k)
  else if (hiOf k.reg).isEmpty then (s, s.view k)
  else (s.latchHi who k (s.showNat k), s.view k)

/-! ### The counter page (R515) -/

/-- A 32-bit read at an offset of the counter page: live counts, latched for the page as a reader of its own. -/
def State.readPage (s : State) (o : Nat) : State × Word :=
  let lo (k : RegKey) : State × Word := (s.latchHi .page k (s.liveNat k), wordN (s.liveNat k))
  if s.cf F.PRF_CTL_USER_EN 0 = 0 then (s, 0)
  else if o < 0x100 then
    if o % 8 = 0 then lo ⟨.PRF_CNT_LO, o / 8⟩ else (s, s.latched .page ⟨.PRF_CNT_HI, o / 8⟩)
  else if o = 0x100 then lo ⟨.GLB_DTIME_LO, 0⟩
  else if o = 0x104 then (s, s.latched .page ⟨.GLB_DTIME_HI, 0⟩)
  else if o = 0x108 then (s, wordN s.io.bwSeq)
  else if 0x200 ≤ o ∧ o < 0x200 + 21 * 8 then (s, s.view ⟨.PRF_BW, (o - 0x200) / 4⟩)
  else (s, 0)

/-! ### Windows (R85, R364, R447, R500, R538) -/

/-- The memory behind a table window, and the offset within it. -/
def winOf (off : Nat) : Option (Nat × Nat) :=
  if 0x2000000 ≤ off ∧ off < 0x2200000 then some ((off - 0x2000000) / 0x80000, off % 0x80000)
  else if 0x2400000 ≤ off ∧ off < 0x2C00000 then some (4 + (off - 0x2400000) / 0x400000, off % 0x400000)
  else none

/-- The 32-bit half of a window's word at an offset. -/
def State.winHalf (s : State) (m o : Nat) : Word :=
  match m with
  | 0 | 1 => (s.car (carOf m)).fe.entry (o / 4)
  | 2 | 3 => (s.car (carOf (m - 2))).cm.map.getD (o / 4) 0x80000000
  | _ => wordN (leNat (s.winRead (capBase (carOf (m - 4)) + o / 4 * 4) 4))

/-- A functional read of a word (R441): `seen` is what the read shows of a word that the model holds no error in: 0 clean,
1 correctable, 2 uncorrectable. Answers whether it is delivered as poisoned. -/
def State.memRead (s : State) (m w seen : Nat) : State × Bool :=
  if s.poisoned m w then (s.memPsn m w, true)
  else match max seen (agetD (s.memo m).errs w 0) with
    | 0 => (s, false)
    | 1 =>
      let s := s.modMem m fun q => { q with errs := q.errs.filter fun e => e.1 != w }
      (((s.bump .MEM_MEM_CE m).signal 0x0050 0 m).memLast 0 m w, false)
    | _ => (s.modMem m fun q => { q with reread := if q.reread.contains w then q.reread else w :: q.reread }, true)

/-- A host read in a table window, `n` words of 32 bits from an aligned offset (R447): data, or zeros with a poisoned
completion where a word read is poisoned. -/
def State.readWindow (s : State) (m o n seen : Nat) : State × List Word × Bool :=
  let halves := (List.range n).map fun i => o + 4 * i
  let words := ((halves.map (· / 8)).foldl (fun l w => insSorted w l) [])
  let go := words.foldl (fun (a : State × List Nat) w =>
    let r := a.1.memRead m w seen
    (r.1, if r.2 then w :: a.2 else a.2)) (s, [])
  let data := halves.map fun h => if go.2.contains (h / 8) then 0 else s.winHalf m h
  match go.2.reverse with
  | [] => (go.1, data, false)
  | w :: _ => ((go.1.bump .MEM_HOST_PSN 0).occ 0x1107 0 m (memData w), data, true)

/-- The 32-bit word of a window of SEC (R538), by offset within SEC; none outside them. -/
def State.secWindow (s : State) (o : Nat) : Option Word :=
  let w (base len : Nat) (b : Bytes) : Option Word :=
    if base ≤ o ∧ o < base + len then some (byteWord b ((o - base) / 4)) else none
  (w 0x100 64 s.digest).or <| (w 0x200 32 s.boot.dbgChal).or <|
    (w 0x1000 4628 ((List.range 4628).map s.tokenByte)).or <| (w 0x4000 2592 s.boot.idPub).or
      (w 0x8000 4912 s.boot.attReport)

/-- A 32-bit read at a word-aligned offset, and whether the completion is poisoned (R498 to R501). -/
def State.read32 (s : State) (who : Agent) (off : Nat) : State × Word × Bool :=
  match winOf off with
  | some (m, o) =>
    let r := s.readWindow m o 1 0
    (r.1, r.2.1.headD 0, r.2.2)
  | none =>
    if 0x900000 ≤ off ∧ off < 0x901000 then
      let r := s.readPage (off - 0x900000)
      (r.1, r.2, false)
    else match resolve who.fn off with
      | some k =>
        let r := s.readReg who k
        (r.1, r.2, false)
      | none =>
        if off / 0x100000 = 10 then (s, (s.secWindow (off % 0x100000)).getD 0, false) else (s, 0, false)

/-- `n` words in ascending order (R502): the words and whether any was poisoned. -/
def State.readWords (s : State) (who : Agent) (off n : Nat) : State × List Word × Bool :=
  match n with
  | 0 => (s, [], false)
  | n + 1 =>
    let a := s.read32 who off
    let b := a.1.readWords who (off + 4) n
    (b.1, a.2.1 :: b.2.1, a.2.2 || b.2.2)

/-- The number that words make, the first in its low bits. -/
def wordsNat (l : List Word) : Nat := l.foldr (fun w a => w.toNat + 2 ^ 32 * a) 0

/-- A read of `n` bytes at an offset (R502): the words it touches are read, and the bytes it addresses returned. -/
def State.read (s : State) (who : Agent) (off n : Nat) : State :=
  let r := s.readWords who (off / 4 * 4) ((off % 4 + n + 3) / 4)
  r.1.emit (.readData who off (wordsNat r.2.1 / 2 ^ (8 * (off % 4)) % 2 ^ (8 * n)) r.2.2)

/-! ### Rows -/

/-- Base of a block, by its number in R480. -/
def blockBase (n : Nat) : Nat := if n < 13 then n * 0x100000 else 0x1000000 + (n - 13) * 0x800000

/-- DTIME_LO_READ (R12). -/
def execDtimeLoRead (who : Agent) (s : State) : Host.Outcome State Fault Refusal := live s fun s =>
  s.read who (if who = .page then 0x900100 else 0x10) 4

/-- LO_COUNTER_READ (R20, R501 to R506, R515): a read of `n` bytes at an offset. A _LO register latches its _HI; another
register returns what it shows. -/
def execLoCounterRead (who : Agent) (off n : Nat) (s : State) : Host.Outcome State Fault Refusal := live s fun s =>
  s.read who off n

/-- SNAP_READ (R505). -/
def execSnapRead (who : Agent) (block : Fin 15) (s : State) : Host.Outcome State Fault Refusal := live s fun s =>
  s.read who (blockBase block + 0xFF000) 4

/-- SNAP_LIVE (R505): a write of 1. -/
def execSnapLive (block : Fin 15) (s : State) : Host.Outcome State Fault Refusal := live s fun s => s.snapLive block

/-- HOST_WINDOW_READ (R441, R447, R500): a read of a table window, 64 bits when `wide`; `seen` as for `memRead`. -/
def execHostWindowRead (who : Agent) (off : Nat) (wide : Bool) (seen : Fin 3) (s : State) :
    Host.Outcome State Fault Refusal := live s fun s =>
  match winOf off with
  | some (m, o) =>
    if off % 4 = 0 then
      let r := s.readWindow m o (if wide then 2 else 1) seen
      r.1.emit (.readData who off (wordsNat r.2.1) r.2.2)
    else s
  | none => s

/-- SNAPSHOT (R480). -/
def execSnapshot (fn : Fn) (r : Nat) (s : State) : Host.Outcome State Fault Refusal :=
  command fn r 0x0004 s fun d _ _ =>
    (0, 0, fun s => s.each ((List.range 15).filter (bit (leAt d 16 4))) State.snapshot)

/-- The staged-read word at an offset (R479, R501). -/
def State.stagedAt (s : State) (fn : Fn) (off : Nat) : Word :=
  match resolve fn off with
  | some k => s.stagedView k
  | none => if off / 0x100000 = 10 then (s.secWindow (off % 0x100000)).getD 0 else 0

/-- STAGED_READ (R479). -/
def execStagedRead (fn : Fn) (r : Nat) (s : State) : Host.Outcome State Fault Refusal :=
  command fn r 0x0102 s fun d _ s => (0, (s.stagedAt fn (leAt d 16 4)).toNat, id)

/-- What a buffer read came to (R492, R495): 0 whole and checked, 1 read error, 2 poisoned, 3 CRC. -/
def ReadOut.check (o : ReadOut) (n : Nat) : Nat :=
  match o with
  | .error => 1
  | .poison => 2
  | .data b =>
    if b.length ≠ n ∨ n < 4 then 1 else if leAt b (n - 4) 4 ≠ crc32c (b.take (n - 4)) then 3 else 0

/-- The bytes a read returned. -/
def ReadOut.bytes (o : ReadOut) : Bytes :=
  match o with
  | .data b => b
  | _ => []

/-- BUFFER_READ_DONE (R492, R495, R527): the command goes on, or completes with DMA. -/
def execBufferReadDone (fn : Fn) (r : Nat) (got : ReadOut) (s : State) : Host.Outcome State Fault Refusal :=
  live s fun s =>
  match (s.ring fn r).exec with
  | some c =>
    if c.buf ≠ .wait ∨ s.io.up = false then s else
    match got.check ((bufLen c.desc).getD 0) with
    | 0 => s.modRing fn r fun q => { q with exec := some { c with buf := .ready got.bytes } }
    | n =>
      let s := if descOp c.desc = 0x0403 then s.modBoot fun b => { b with dlFail := 5 } else s
      s.finish fn r 0x0C n
  | none => s

/-- A client port that is not the lowest lane of a port counts nothing (R514). -/
def State.bwOff (s : State) (i : Nat) : Bool := i < 32 && s.portMode (i / 2) == 0

/-- BW_WINDOW_END (R514): the bytes of the window that ended, two directions for each of 21 ports. -/
def execBwWindowEnd (bytes : List Nat) (s : State) : Host.Outcome State Fault Refusal := live s fun s =>
  if s.cf F.PRF_BW_CTL_EN 0 = 0 then s else
  let bw : Tab Nat (Nat × Nat) := (List.range 42).map fun i =>
    let n := (agetD s.io.bw i (0, 0)).2 + bytes.getD i 0
    (i, if s.bwOff i then (0, 0) else (n / 256 % 2 ^ 32, n % 256))
  { s with io := { s.io with bw := bw, bwSeq := (s.io.bwSeq + 1) % 2 ^ 32 } }

/-- CHK_RESULT_READ (R517): VALUE_LO, VALUE_HI, RESULT_LO, RESULT_HI and STAT, 0 to 4, of a unit. -/
def execChkResultRead (who : Agent) (u : Fin 4) (which : Fin 5) (s : State) : Host.Outcome State Fault Refusal :=
  live s fun s => s.read who (0x800008 + u * 0x100 + which * 4) 4

end Sys2Proof.Machine
end

