-- ==== Sys2Proof/Machine/RegWrite.lean ====
section
/-! DEFINITION. Writes of registers and windows (R4, R8, R19, R445, R446, R463, R501, R502, R507 to R511, R516 to R518). -/

namespace Sys2Proof.Machine

/-! ### Fields -/

/-- Pinch settings that are no thresholds: 0x8000 written to one by a register write is ignored (R8). -/
def pinchSets (r : RegId) : List Fref :=
  match r with
  | .CAR_TX_LEVEL => [F.CAR_TX_LEVEL_BACKOFF]
  | .CAR_TX_TACK => [F.CAR_TX_TACK_LEVEL]
  | .CAR_TX_SC => [F.CAR_TX_SC_GAIN]
  | .CAR_PLAN_PARAM => [F.CAR_PLAN_PARAM_MARGIN]
  | .CAR_CM_SPAN1 => [F.CAR_CM_SPAN1_LAUNCH, F.CAR_CM_SPAN1_LOSS]
  | _ => []

/-- The mask of a write without the pinch settings that it would make 0x8000 (R8). -/
def pinchMask (r : RegId) (old w m : Word) : Word :=
  (pinchSets r).foldl (fun m f => if bits (merge old w m) f.hi f.lo = 0x8000 then m &&& ~~~(maskOf f.hi f.lo) else m) m

/-- Write the RW fields of a register within a mask (R19, R502): staged ones to staging, the others at once. -/
def State.writeRw (s : State) (k : RegKey) (w m : Word) : State :=
  let rw := fldMask k.reg fun f => f.acc == .rw && f.stg.isNone
  let st := fldMask k.reg fun f => f.acc == .rw && f.stg.isSome
  let ma := pinchMask k.reg (s.rd k) w (m &&& rw)
  let ms := pinchMask k.reg (s.stagedWord k) w (m &&& st)
  let s := if ma = 0 then s else s.setWord k (merge (s.rd k) w ma)
  let s := if ms = 0 then s else s.stage k w ms
  if ma = 0 ∧ ms = 0 then s else s.calTouched k

/-- Write an _EVT register (R509): a full write that carries the current SEQ clears the EVENTS bits written as 1. -/
def State.writeSqc (s : State) (k : RegKey) (w : Word) : State :=
  let cur := agetD s.io.evtw k 0
  if bits w 31 24 = bits cur 31 24 then
    { s with io := { s.io with evtw := aset s.io.evtw k (cur &&& ~~~(w &&& 0x00FFFFFF)) } }
  else s

/-- Counters that ignore writes (R507). -/
def RegId.cntFixed (r : RegId) : Bool :=
  r == .GLB_TX_MFC_LO || r == .GLB_TX_MFC_HI || r == .CAR_RXC_SFC_LO || r == .CAR_RXC_SFC_HI

/-- Write a counter (R507): a _LO is buffered, a _HI sets the count, a 32-bit counter takes the value. -/
def State.writeCnt (s : State) (k : RegKey) (w : Word) : State :=
  if k.reg.cntFixed then s else
  match loOf k.reg with
  | some lo =>
    let l : RegKey := ⟨lo, k.idx⟩
    { s with io := { s.io with
        cnt := aset s.io.cnt l (w.toNat * 2 ^ 32 + agetD s.io.wbuf l 0), wbuf := adel s.io.wbuf l } }
  | none =>
    if (hiOf k.reg).isEmpty then { s with io := { s.io with cnt := aset s.io.cnt k w.toNat } }
    else { s with io := { s.io with wbuf := aset s.io.wbuf k w.toNat } }

/-- Write PRF.RUN: bits 31:16 mask bits 15:0 (R4). -/
def State.writeRun (s : State) (k : RegKey) (w : Word) : State :=
  s.setWord k (merge (s.rd k) w (BitVec.ofNat 32 (w.toNat / 65536)))

/-! ### Check units (R516 to R518) -/

/-- Queue a write of a check unit. Where 16 wait, the host port holds the write until the oldest has been taken up
(R517, log 75). -/
def State.chkQueue (s : State) (u : Nat) (l : List ChkOp) : State :=
  let alg := s.cf F.CHK_CTL_ALG u
  if l = [] then s else s.modChk u fun q =>
    if q.queue.length < 16 then { q with queue := q.queue ++ [l] }
    else ⟨(q.queue.headD []).foldl (chkOp alg) q.value, q.queue.tail ++ [l]⟩

/-- The enabled bytes of a word, ascending. -/
def enabled (be : BitVec 4) (w : Word) : Bytes :=
  ((List.range 4).filter fun i => be.getLsbD i).map fun i => BitVec.ofNat 8 (w.toNat / 256 ^ i)

/-- Write CHK.CTL: ALG, and INIT (R516). -/
def State.chkCtl (s : State) (u : Nat) (w m : Word) : State :=
  let s := s.writeRw ⟨.CHK_CTL, u⟩ w m
  if bits (w &&& m) 8 8 = 1 then s.chkQueue u [.init (s.cf F.CHK_CTL_ALG u)] else s

/-- Write CHK.DATA (R517). -/
def State.chkData (s : State) (u : Nat) (be : BitVec 4) (w : Word) : State :=
  s.chkQueue u ((enabled be w).map .byte)

/-- Write a half of CHK.VALUE (R518). -/
def State.chkValue (s : State) (u : Nat) (hi : Bool) (be : BitVec 4) (w : Word) : State :=
  s.chkQueue u (if be = 0 then [] else [if hi then .valueHi w be else .valueLo w be])

/-! ### Registers whose write acts -/

/-- Write MSI-X table words (R461): a vector unmasked while it waits is sent. -/
def State.writeMsix (s : State) (k : RegKey) (w m : Word) : State :=
  let s := s.setWord k (merge (s.rd k) w (if k.idx % 4 = 3 then m &&& 1 else m))
  let fn : Fn := if k.idx < 256 then .PF0 else .PF1
  let v := k.idx % 256 / 4
  if k.idx % 4 = 3 ∧ s.io.pba.contains (fn, v) ∧ bits (s.rd k) 0 0 = 0 then
    let io := { s.io with pba := s.io.pba.filter (· != (fn, v)) }
    { s with io := io.msix s.rd fn v }
  else s

/-- Write CDE_CTL (R85, R88). -/
def State.writeCde (s : State) (k : RegKey) (w m : Word) : State :=
  let x := k.carIx.1
  let s := s.writeRw k w (m &&& ~~~(0x80 : Word))
  let s := if bits m 7 7 = 1 then s.loadEn x (bits w 7 7 == 1) else s
  if bits (w &&& m) 0 0 = 1 ∧ (s.car x).fe.est.isNone then s.estStart x .commanded else s

/-- Write CIPH_CH_CTL (R266, R272). -/
def State.writeCiph (s : State) (k : RegKey) (w m : Word) : State :=
  let s := s.writeRw k w (m &&& ~~~(1 : Word))
  let s := if bits m 0 0 = 1 then s.ciphEn k.idx (bits w 0 0 == 1) else s
  s.chEval k.idx

/-- Write STI.MOD_CTL (R66, R68). -/
def State.writeMod (s : State) (k : RegKey) (w m : Word) : State :=
  let d := dieOf (k.idx / 26)
  let n := k.idx % 26
  let s := if bits m 1 1 = 1 ∧ bits w 1 1 ≠ s.cf F.STI_MOD_CTL_TEST k.idx then s.modTest d n (bits w 1 1 == 1) else s
  if bits (w &&& m) 0 0 = 1 then (s.retrain d n).stiSettle d else s

/-- Write STI.LANE_CTL (R67 to R70). -/
def State.writeLane (s : State) (k : RegKey) (w m : Word) : State :=
  s.laneCtlWrite (dieOf (k.idx / 468)) (k.idx / 18 % 26) (k.idx % 18) w m

/-- Write MON.DCB_EST (R407). -/
def State.dcbSet (s : State) (n : Nat) (v : Word) : State :=
  s.modMon fun m => { m with dcb := aset m.dcb n (sgn 24 v.toNat) }

/-- Write MON.BIAS_VAL: ignored while the loop is on (R415, R429). -/
def State.biasWrite (s : State) (b : Nat) (v : Nat) : State :=
  if s.cf F.MON_BIAS_CTL_LOOP_EN b = 1 then s else (s.calStop (8 + b)).biasSet b v

/-- The base registers of a command ring are written only while EN is 0 (R465). -/
def State.writeBase (s : State) (k : RegKey) (w m : Word) : State :=
  if s.cf F.HST_RING_CTL_EN k.idx = 1 then s else s.writeRw k w m

/-- RING_ALIVE is written only while the ring is disabled or halted (R472, R497). -/
def State.writeAlive (s : State) (k : RegKey) (w m : Word) : State :=
  let q := ringOf k.idx
  let st := (s.ring q.1 q.2).st
  if st = .disabled ∨ st = .halted then s.modRing q.1 q.2 fun q => { q with alive := bits (merge (wordN q.alive) w m) 15 0 }
  else s

/-- Registers that only PF1 writes (R463). -/
def RegId.pf1Only (r : RegId) : Bool :=
  r == .SEC_BOOT_MBX_LO || r == .SEC_BOOT_MBX_HI || r == .SEC_BOOT_MBX_LEN || r == .SEC_BOOT_MBX_GO || r == .GLB_RST_CMD

/-- A write of a register's enabled bytes (R502). `rms`: the monitor input of a calibration that the write starts lies in
its range (R423). -/
def State.writeReg (s : State) (who : Agent) (k : RegKey) (be : BitVec 4) (w : Word) (rms : Bool) : State :=
  let m := beMask be
  let on (hi lo : Nat) : Bool := bits (w &&& m) hi lo == 1
  let ring := ringOf k.idx
  let x := k.carIx.1
  if be = 0 ∨ who = .page ∨ (k.reg.pf1Only ∧ who ≠ .pf1) then s
  else if k.reg.isSqc then (if be = 15 then s.writeSqc k w else s)
  else if k.reg.isCnt then (if be = 15 then s.writeCnt k w else s)
  else match k.reg with
    | .PRF_RUN_LO | .PRF_RUN_HI => if be = 15 then s.writeRun k w else s
    | .SNAP_LIVE => if on 0 0 then s.snapLive k.idx else s
    | .HST_RING_CTL => s.ringCtl ring.1 ring.2 w m
    | .HST_RING_BASE_LO | .HST_RING_BASE_HI | .HST_CPL_BASE_LO | .HST_CPL_BASE_HI => s.writeBase k w m
    | .HST_RING_ALIVE => s.writeAlive k w m
    | .HST_DB => s.doorbell ring.1 ring.2 (merge (s.view k) w m)
    | .HST_MSIX => s.writeMsix k w m
    | .EVT_EVR_CTL => s.evrCtl k.idx w m
    | .EVT_EVR_HEAD | .EVT_EVR_ROUTE0 | .EVT_EVR_ROUTE1 => (s.writeRw k w m).drainAll
    | .EVT_MSG_CTL => s.msgCtl w m
    | .GLB_CAL_CMD => if on 31 31 then s.calBegin (bits (w &&& m) 4 0) rms else s
    | .GLB_RST_CMD => s.warmReset .PF1 (w &&& m)
    | .STI_MOD_CTL => s.writeMod k w m
    | .STI_LANE_CTL => s.writeLane k w m
    | .SEAM_CTL =>
      let s := s.writeRw k w m
      if on 0 0 then s.seamRealign else s
    | .TIM_OUT_CMD => s.outRealign (on 2 2) (on 3 3) (bits (w &&& m) 8 8)
    | .MON_URGENT => if on 31 31 then s.urgent (bits (w &&& m) 4 0) else s
    | .MON_DCB_EST => s.dcbSet k.idx (merge (s.view k) w m)
    | .MON_BIAS_VAL => s.biasWrite k.idx (bits (merge (s.view k) w m) 19 0)
    | .CHK_CTL => s.chkCtl k.idx w m
    | .CHK_DATA => s.chkData k.idx be w
    | .CHK_VALUE_LO => s.chkValue k.idx false be w
    | .CHK_VALUE_HI => s.chkValue k.idx true be w
    | .SEC_BOOT_MBX_GO => if on 0 0 then s.mbxGo .PF1 else s
    | .SEC_DBG_CMD =>
      let s := if on 0 0 then s.dbgChallenge else s
      if on 1 1 then s.dbgSubmit else s
    | .SEC_CIPH_CH_CTL => s.writeCiph k w m
    | .CAR_CDE_CTL => s.writeCde k w m
    | .CAR_PLAN_CTL => (s.writeRw k w m).planFlush x
    | .SEC_CIPH_CTL => ((s.writeRw k w m).kaFlush .A).kaFlush .B
    | .CAR_TX_CTL => (s.writeRw k w m).txSettle x
    | .CAR_TK_TX_CMD =>
      let s := if on 0 0 then s.tkQueue x 1 [] else s
      if on 1 1 then s.tkGasp x 2 else s
    | _ => s.writeRw k w m

/-! ### Windows -/

/-- A write of one half of a word of a memory behind a window (R445, R446): `h` is 0 for the low half. -/
def State.halfWritten (s : State) (m w h : Nat) : State :=
  match aget (s.memo m).poison w with
  | some p =>
    if p ||| (1 <<< h) = 3 then s.memFull m w
    else s.modMem m fun q => { q with poison := aset q.poison w (p ||| (1 <<< h)) }
  | none =>
    let s := match agetD (s.memo m).errs w 0 with
      | 0 => s
      | 1 =>
        let s := s.modMem m fun q => { q with errs := q.errs.filter fun e => e.1 != w }
        ((s.bump .MEM_MEM_CE m).signal 0x0050 0 m).memLast 0 m w
      | _ => s.modMem m fun q => { q with reread := if q.reread.contains w then q.reread else w :: q.reread }
    s.memInjectAt m w

/-- A write at an offset of carrier `x`'s dispersion window, of 32 or 64 bits (R85, R446): taken only in custom mode while
LOAD_EN is 1. -/
def State.tableWrite (s : State) (x : Carrier) (o : Nat) (wide : Bool) (v : BitVec 64) : State :=
  if s.cfx F.CAR_CDE_CTL_TABLE_MODE x = 0 ∨ s.cfx F.CAR_CDE_CTL_LOAD_EN x = 0 then s else
  let k := o / 4
  let lo : Word := v.setWidth 32
  let hi : Word := (v >>> 32).setWidth 32
  let ent (s : State) (k : Nat) (w : Word) : State := s.modFe x fun f => { f with tab := aset f.tab k w }
  if wide ∧ k % 2 = 0 then (ent (ent s k lo) (k + 1) hi).memFull x.num (k / 2)
  else
    let s := (ent s k lo).halfWritten x.num (k / 2) (k % 2)
    if wide ∧ k + 1 < 131072 then (ent s (k + 1) hi).halfWritten x.num ((k + 1) / 2) ((k + 1) % 2) else s

/-- Write bytes of SEC's DBG_TOKEN window: PF1 only (R463, R536). -/
def State.tokenWrite (s : State) (who : Agent) (o : Nat) (be : BitVec 4) (w : Word) : State :=
  if who ≠ .pf1 then s else
  s.each ((List.range 4).filter fun i => be.getLsbD i && o + i < 4628) fun s i =>
    s.modBoot fun b => { b with dbgToken := aset b.dbgToken (o + i) (BitVec.ofNat 8 (w.toNat / 256 ^ i)) }

/-- A write of the enabled bytes of the word at an aligned offset (R498 to R502). -/
def State.write32 (s : State) (who : Agent) (off : Nat) (be : BitVec 4) (w : Word) (rms : Bool) : State :=
  if who = .page then s else
  match winOf off with
  | some (m, o) => if m < 2 ∧ be = 15 then s.tableWrite (carOf m) o false (w.setWidth 64) else s
  | none =>
    match resolve who.fn off with
    | some k => s.writeReg who k be w rms
    | none => if 0xA01000 ≤ off ∧ off < 0xA01000 + 4628 then s.tokenWrite who (off - 0xA01000) be w else s

/-- Words written in ascending order from an offset (R502). -/
def State.writeWords (s : State) (who : Agent) (off : Nat) (l : List (BitVec 4 × Word)) (rms : Bool) : State :=
  match l with
  | [] => s
  | a :: r => (s.write32 who off a.1 a.2 rms).writeWords who (off + 4) r rms

/-! ### Rows -/

/-- REGISTER_WRITE (R4, R19, R463, R501, R502): byte enables and values of the words from the one that holds `off` on; `rms`
as for `writeReg`. -/
def execRegisterWrite (who : Agent) (off : Nat) (l : List (BitVec 4 × Word)) (rms : Bool) (s : State) :
    Host.Outcome State Fault Refusal := live s fun s => s.writeWords who (off / 4 * 4) l rms

/-- COUNTER_WRITE (R502, R507): a full write of a counter's register, or of both halves of a pair when `wide`. -/
def execCounterWrite (who : Agent) (off : Nat) (data : BitVec 64) (wide : Bool) (s : State) :
    Host.Outcome State Fault Refusal := live s fun s =>
  match resolve who.fn off with
  | some k =>
    if k.reg.isCnt then
      s.writeWords who off ((15, data.setWidth 32) :: (if wide then [(15, (data >>> 32).setWidth 32)] else [])) false
    else s
  | none => s

/-- EVT_SEQ_CLEAR (R509). -/
def execEvtSeqClear (who : Agent) (off : Nat) (w : Word) (s : State) : Host.Outcome State Fault Refusal :=
  live s fun s =>
  match resolve who.fn off with
  | some k => if k.reg.isSqc then s.writeReg who k 15 w false else s
  | none => s

/-- TABLE_WINDOW_WRITE (R85, R445, R446): at an offset of a dispersion window, of 64 bits when `wide`. -/
def execTableWindowWrite (off : Nat) (wide : Bool) (data : BitVec 64) (s : State) : Host.Outcome State Fault Refusal :=
  live s fun s =>
  match winOf off with
  | some (m, o) => if m < 2 ∧ off % 4 = 0 then s.tableWrite (carOf m) o wide data else s
  | none => s

/-- CHK_INIT (R516, R518): a write of CTL with INIT 1 and an algorithm. -/
def execChkInit (u : Fin 4) (alg : Fin 4) (s : State) : Host.Outcome State Fault Refusal := live s fun s =>
  s.chkCtl u (BitVec.ofNat 32 (256 + alg)) (-1)

/-- CHK_DATA_WRITE (R517). -/
def execChkDataWrite (u : Fin 4) (be : BitVec 4) (w : Word) (s : State) : Host.Outcome State Fault Refusal :=
  live s fun s => s.chkData u be w

/-- CHK_VALUE_WRITE (R518). -/
def execChkValueWrite (u : Fin 4) (hi : Bool) (be : BitVec 4) (w : Word) (s : State) :
    Host.Outcome State Fault Refusal := live s fun s => s.chkValue u hi be w

end Sys2Proof.Machine
end

