-- ==== Sys2Proof/Machine/Dispatch.lean ====
section
/-! DEFINITION. The dispatch: each command to its meaning. -/

namespace Sys2Proof.Machine

/-- The effect of a command on everything but the queue. -/
def exec (i : Instr) (s : State) : Host.Outcome State Fault Refusal :=
  match i with
  | .registerWrite who off l rms => Sys2Proof.Machine.execRegisterWrite who off l rms s
  | .dtimeLoRead who => Sys2Proof.Machine.execDtimeLoRead who s
  | .loCounterRead who off n => Sys2Proof.Machine.execLoCounterRead who off n s
  | .counterWrite who off data wide => Sys2Proof.Machine.execCounterWrite who off data wide s
  | .evtSeqClear who off w => Sys2Proof.Machine.execEvtSeqClear who off w s
  | .snapRead who block => Sys2Proof.Machine.execSnapRead who block s
  | .snapLive block => Sys2Proof.Machine.execSnapLive block s
  | .deviceFrameTick feed off => Sys2Proof.Machine.execDeviceFrameTick feed off s
  | .symbolFrameBoundary x side m => Sys2Proof.Machine.execSymbolFrameBoundary x side m s
  | .digestRecomputed => Sys2Proof.Machine.execDigestRecomputed s
  | .mpRestart => Sys2Proof.Machine.execMpRestart s
  | .mpReturn => Sys2Proof.Machine.execMpReturn s
  | .stitchBlockReceived d m l hdr payload adc => Sys2Proof.Machine.execStitchBlockReceived d m l hdr payload adc s
  | .laneLocked d m l => Sys2Proof.Machine.execLaneLocked d m l s
  | .laneFailed d m l => Sys2Proof.Machine.execLaneFailed d m l s
  | .forwardedClockLost d m => Sys2Proof.Machine.execForwardedClockLost d m s
  | .laneLockTimeout d m l => Sys2Proof.Machine.execLaneLockTimeout d m l s
  | .darnRequest d m msg => Sys2Proof.Machine.execDarnRequest d m msg s
  | .darnComplete d m spare => Sys2Proof.Machine.execDarnComplete d m spare s
  | .darnRetry d m logical => Sys2Proof.Machine.execDarnRetry d m logical s
  | .darnTimeout d m logical => Sys2Proof.Machine.execDarnTimeout d m logical s
  | .sidebandKeepAlive d m msg => Sys2Proof.Machine.execSidebandKeepAlive d m msg s
  | .sidebandTestControl d m msg => Sys2Proof.Machine.execSidebandTestControl d m msg s
  | .sidebandLocked d m => Sys2Proof.Machine.execSidebandLocked d m s
  | .sidebandLost d m => Sys2Proof.Machine.execSidebandLost d m s
  | .retrain d m => Sys2Proof.Machine.execRetrain d m s
  | .modTestWrite d m v => Sys2Proof.Machine.execModTestWrite d m v s
  | .laneTestEnable d m l gen chk => Sys2Proof.Machine.execLaneTestEnable d m l gen chk s
  | .injectSingle d m l => Sys2Proof.Machine.execInjectSingle d m l s
  | .injectRateTick d m l => Sys2Proof.Machine.execInjectRateTick d m l s
  | .prbsSync d m l => Sys2Proof.Machine.execPrbsSync d m l s
  | .prbsSyncLoss d m l => Sys2Proof.Machine.execPrbsSyncLoss d m l s
  | .sampleClockLock d => Sys2Proof.Machine.execSampleClockLock d s
  | .sampleClockUnlock d => Sys2Proof.Machine.execSampleClockUnlock d s
  | .pathFaultClear d => Sys2Proof.Machine.execPathFaultClear d s
  | .feLimitClear x which => Sys2Proof.Machine.execFeLimitClear x which s
  | .tableReady x => Sys2Proof.Machine.execTableReady x s
  | .loadEnWrite x v => Sys2Proof.Machine.execLoadEnWrite x v s
  | .tableWindowWrite off wide data => Sys2Proof.Machine.execTableWindowWrite off wide data s
  | .hostWindowRead who off wide seen => Sys2Proof.Machine.execHostWindowRead who off wide seen s
  | .estimate x => Sys2Proof.Machine.execEstimate x s
  | .estimateDone x n j conf => Sys2Proof.Machine.execEstimateDone x n j conf s
  | .trackInterval x => Sys2Proof.Machine.execTrackInterval x s
  | .acquisitionTimeout x => Sys2Proof.Machine.execAcquisitionTimeout x s
  | .pressGuardCompare x => Sys2Proof.Machine.execPressGuardCompare x s
  | .pressGainCompare x => Sys2Proof.Machine.execPressGainCompare x s
  | .xiAdapt x snr => Sys2Proof.Machine.execXiAdapt x snr s
  | .engineTakeover x k => Sys2Proof.Machine.execEngineTakeover x k s
  | .tableLoad fn r => Sys2Proof.Machine.execTableLoad fn r s
  | .profileLoad fn r => Sys2Proof.Machine.execProfileLoad fn r s
  | .alignmentDetection x t hyp => Sys2Proof.Machine.execAlignmentDetection x t hyp s
  | .lockAcquired x => Sys2Proof.Machine.execLockAcquired x s
  | .trainingTimeout x => Sys2Proof.Machine.execTrainingTimeout x s
  | .alignmentMissedLoss x => Sys2Proof.Machine.execAlignmentMissedLoss x s
  | .pilotSnrLoss x => Sys2Proof.Machine.execPilotSnrLoss x s
  | .offsetLoss x => Sys2Proof.Machine.execOffsetLoss x s
  | .noAlignmentFound x => Sys2Proof.Machine.execNoAlignmentFound x s
  | .phaseSlip x n p quarter => Sys2Proof.Machine.execPhaseSlip x n p quarter s
  | .clockOffsetDefect x => Sys2Proof.Machine.execClockOffsetDefect x s
  | .outerTapsDefect x share => Sys2Proof.Machine.execOuterTapsDefect x share s
  | .snrWindowEnd x m => Sys2Proof.Machine.execSnrWindowEnd x m s
  | .meanSnrInterval x m => Sys2Proof.Machine.execMeanSnrInterval x m s
  | .capture fn r => Sys2Proof.Machine.execCapture fn r s
  | .captureTrigger x code => Sys2Proof.Machine.execCaptureTrigger x code s
  | .captureFillEnd x startSym entries => Sys2Proof.Machine.execCaptureFillEnd x startSym entries s
  | .captureStop fn r => Sys2Proof.Machine.execCaptureStop fn r s
  | .captureDone x => Sys2Proof.Machine.execCaptureDone x s
  | .captureFailed x => Sys2Proof.Machine.execCaptureFailed x s
  | .blockLock x pos blocks => Sys2Proof.Machine.execBlockLock x pos blocks s
  | .noBlockLock x => Sys2Proof.Machine.execNoBlockLock x s
  | .lossOfBlockLock x => Sys2Proof.Machine.execLossOfBlockLock x s
  | .codeBlockDecode x block post passes => Sys2Proof.Machine.execCodeBlockDecode x block post passes s
  | .rateMismatch x => Sys2Proof.Machine.execRateMismatch x s
  | .rateSwitchMissed x => Sys2Proof.Machine.execRateSwitchMissed x s
  | .fecInterval x => Sys2Proof.Machine.execFecInterval x s
  | .uncorrectedInterval x => Sys2Proof.Machine.execUncorrectedInterval x s
  | .txRampUpDone x => Sys2Proof.Machine.execTxRampUpDone x s
  | .txRampDownDone x => Sys2Proof.Machine.execTxRampDownDone x s
  | .txForced x => Sys2Proof.Machine.execTxForced x s
  | .forcedRelease x => Sys2Proof.Machine.execForcedRelease x s
  | .txSquelchWrite x v => Sys2Proof.Machine.execTxSquelchWrite x v s
  | .sqHoldExpire x => Sys2Proof.Machine.execSqHoldExpire x s
  | .restartProbe x => Sys2Proof.Machine.execRestartProbe x s
  | .probeEnd x => Sys2Proof.Machine.execProbeEnd x s
  | .clipInterval x n => Sys2Proof.Machine.execClipInterval x n s
  | .planCompute fn r => Sys2Proof.Machine.execPlanCompute fn r s
  | .planInterval x => Sys2Proof.Machine.execPlanInterval x s
  | .planPropose fn r => Sys2Proof.Machine.execPlanPropose fn r s
  | .planPush fn r => Sys2Proof.Machine.execPlanPush fn r s
  | .planLocal fn r => Sys2Proof.Machine.execPlanLocal fn r s
  | .planApprove fn r => Sys2Proof.Machine.execPlanApprove fn r s
  | .approvalTimeout x => Sys2Proof.Machine.execApprovalTimeout x s
  | .proposeReceived x msg => Sys2Proof.Machine.execProposeReceived x msg s
  | .planCommitReceived x msg => Sys2Proof.Machine.execPlanCommitReceived x msg s
  | .planRejectReceived x msg => Sys2Proof.Machine.execPlanRejectReceived x msg s
  | .planAbortReceived x msg => Sys2Proof.Machine.execPlanAbortReceived x msg s
  | .planQueryReceived x msg => Sys2Proof.Machine.execPlanQueryReceived x msg s
  | .proposeRetry x => Sys2Proof.Machine.execProposeRetry x s
  | .planAnnounceSeen x => Sys2Proof.Machine.execPlanAnnounceSeen x s
  | .planRecoverySwap x => Sys2Proof.Machine.execPlanRecoverySwap x s
  | .queryRetry x => Sys2Proof.Machine.execQueryRetry x s
  | .planLostQuery x => Sys2Proof.Machine.execPlanLostQuery x s
  | .epochMismatch x => Sys2Proof.Machine.execEpochMismatch x s
  | .rxFrameReceived x pos got => Sys2Proof.Machine.execRxFrameReceived x pos got s
  | .frameFound x => Sys2Proof.Machine.execFrameFound x s
  | .multiframeAligned x => Sys2Proof.Machine.execMultiframeAligned x s
  | .oof x => Sys2Proof.Machine.execOof x s
  | .lof x => Sys2Proof.Machine.execLof x s
  | .lossOfMultiframe x => Sys2Proof.Machine.execLossOfMultiframe x s
  | .rdiReceived x ch => Sys2Proof.Machine.execRdiReceived x ch s
  | .traceAccepted x ch => Sys2Proof.Machine.execTraceAccepted x ch s
  | .degInterval x => Sys2Proof.Machine.execDegInterval x s
  | .frameTooShort x => Sys2Proof.Machine.execFrameTooShort x s
  | .msgSend fn r => Sys2Proof.Machine.execMsgSend fn r s
  | .messageReceived x => Sys2Proof.Machine.execMessageReceived x s
  | .tagCheck x c => Sys2Proof.Machine.execTagCheck x c s
  | .keySoftLimit c => Sys2Proof.Machine.execKeySoftLimit c s
  | .keyExhausted c => Sys2Proof.Machine.execKeyExhausted c s
  | .keyInstall fn r => Sys2Proof.Machine.execKeyInstall fn r s
  | .peerLoad fn r => Sys2Proof.Machine.execPeerLoad fn r s
  | .keyAgree fn r => Sys2Proof.Machine.execKeyAgree fn r s
  | .ciphEnWrite c v => Sys2Proof.Machine.execCiphEnWrite c v s
  | .keyRollDue cs => Sys2Proof.Machine.execKeyRollDue cs s
  | .kaCryptoDone x => Sys2Proof.Machine.execKaCryptoDone x s
  | .initReceived x body => Sys2Proof.Machine.execInitReceived x body s
  | .respReceived x body => Sys2Proof.Machine.execRespReceived x body s
  | .confirmReceived x body => Sys2Proof.Machine.execConfirmReceived x body s
  | .kaErrorReceived x body => Sys2Proof.Machine.execKaErrorReceived x body s
  | .initRetry x => Sys2Proof.Machine.execInitRetry x s
  | .respRetry x => Sys2Proof.Machine.execRespRetry x s
  | .kaRetryMinute x => Sys2Proof.Machine.execKaRetryMinute x s
  | .seamPairMeasure m tA tB => Sys2Proof.Machine.execSeamPairMeasure m tA tB s
  | .seamFrameOut frame hdr psn => Sys2Proof.Machine.execSeamFrameOut frame hdr psn s
  | .copyClearDelay c x cause => Sys2Proof.Machine.execCopyClearDelay c x cause s
  | .holdOffExpire c => Sys2Proof.Machine.execHoldOffExpire c s
  | .wtrExpire c => Sys2Proof.Machine.execWtrExpire c s
  | .seamSwitch fn r => Sys2Proof.Machine.execSeamSwitch fn r s
  | .seamRealign => Sys2Proof.Machine.execSeamRealign s
  | .portLos p lost => Sys2Proof.Machine.execPortLos p lost s
  | .portLol p lost => Sys2Proof.Machine.execPortLol p lost s
  | .portUncInterval p corrected unc => Sys2Proof.Machine.execPortUncInterval p corrected unc s
  | .flexeGroupDefect g lock got => Sys2Proof.Machine.execFlexeGroupDefect g lock got s
  | .flexeCalendarSwitch g egress cal => Sys2Proof.Machine.execFlexeCalendarSwitch g egress cal s
  | .demapFrame c => Sys2Proof.Machine.execDemapFrame c s
  | .lossOfMapping c => Sys2Proof.Machine.execLossOfMapping c s
  | .csfReceived c => Sys2Proof.Machine.execCsfReceived c s
  | .rateAdaptFault c => Sys2Proof.Machine.execRateAdaptFault c s
  | .tackBurstStart x => Sys2Proof.Machine.execTackBurstStart x s
  | .tackBurstEnd x => Sys2Proof.Machine.execTackBurstEnd x s
  | .helloTimer x => Sys2Proof.Machine.execHelloTimer x s
  | .tackHelloCmd x => Sys2Proof.Machine.execTackHelloCmd x s
  | .rdiFrameTimer x => Sys2Proof.Machine.execRdiFrameTimer x s
  | .dyingGaspCmd x => Sys2Proof.Machine.execDyingGaspCmd x s
  | .pfail => Sys2Proof.Machine.execPfail s
  | .pfailRelease => Sys2Proof.Machine.execPfailRelease s
  | .tackDetection x l => Sys2Proof.Machine.execTackDetection x l s
  | .tackHeader x h => Sys2Proof.Machine.execTackHeader x h s
  | .tackFrameEnd x b => Sys2Proof.Machine.execTackFrameEnd x b s
  | .helloReceived x => Sys2Proof.Machine.execHelloReceived x s
  | .tackRdiReceived x => Sys2Proof.Machine.execTackRdiReceived x s
  | .tackRdiClear x => Sys2Proof.Machine.execTackRdiClear x s
  | .dyingGaspReceived x => Sys2Proof.Machine.execDyingGaspReceived x s
  | .tackSegmentReceived x => Sys2Proof.Machine.execTackSegmentReceived x s
  | .reassemblyTimeout x typ => Sys2Proof.Machine.execReassemblyTimeout x typ s
  | .tackFloorInterval x power => Sys2Proof.Machine.execTackFloorInterval x power s
  | .integrationEnd x m => Sys2Proof.Machine.execIntegrationEnd x m s
  | .historyWriteDone x => Sys2Proof.Machine.execHistoryWriteDone x s
  | .refFailed n off0 off1 => Sys2Proof.Machine.execRefFailed n off0 off1 s
  | .slotMeasurement n f off0 off1 => Sys2Proof.Machine.execSlotMeasurement n f off0 off1 s
  | .slotQualified n off0 off1 => Sys2Proof.Machine.execSlotQualified n off0 off1 s
  | .slotDisqualified n off0 off1 => Sys2Proof.Machine.execSlotDisqualified n off0 off1 s
  | .dpllLock d => Sys2Proof.Machine.execDpllLock d s
  | .dpllUnlock d => Sys2Proof.Machine.execDpllUnlock d s
  | .historySecond f0 f1 => Sys2Proof.Machine.execHistorySecond f0 f1 s
  | .outRealign pps frm src => Sys2Proof.Machine.execOutRealign pps frm src s
  | .bleedComplete o => Sys2Proof.Machine.execBleedComplete o s
  | .refEdgeStamp n => Sys2Proof.Machine.execRefEdgeStamp n s
  | .rootUnlock => Sys2Proof.Machine.execRootUnlock s
  | .rootLock => Sys2Proof.Machine.execRootLock s
  | .conversionEnd => Sys2Proof.Machine.execConversionEnd s
  | .urgentRequest n => Sys2Proof.Machine.execUrgentRequest n s
  | .dcbEstWrite n v => Sys2Proof.Machine.execDcbEstWrite n v s
  | .biasValWrite b v => Sys2Proof.Machine.execBiasValWrite b v s
  | .refSettled ref => Sys2Proof.Machine.execRefSettled ref s
  | .refUnsettled ref => Sys2Proof.Machine.execRefUnsettled ref s
  | .calStart n rms => Sys2Proof.Machine.execCalStart n rms s
  | .calibrate fn r rms => Sys2Proof.Machine.execCalibrate fn r rms s
  | .calPass1End n vals => Sys2Proof.Machine.execCalPass1End n vals s
  | .calPass2End n vals => Sys2Proof.Machine.execCalPass2End n vals s
  | .calAbort n => Sys2Proof.Machine.execCalAbort n s
  | .calRampStep n => Sys2Proof.Machine.execCalRampStep n s
  | .starchDone rows src => Sys2Proof.Machine.execStarchDone rows src s
  | .rinseRead m w seen key last => Sys2Proof.Machine.execRinseRead m w seen key last s
  | .ueReread m w again key use => Sys2Proof.Machine.execUeReread m w again key use s
  | .rowPatchDone m row => Sys2Proof.Machine.execRowPatchDone m row s
  | .goldenReloadDone m w => Sys2Proof.Machine.execGoldenReloadDone m w s
  | .memInject m kind arm next => Sys2Proof.Machine.execMemInject m kind arm next s
  | .ceRateSecond => Sys2Proof.Machine.execCeRateSecond s
  | .cxlPortUp p width rate gib => Sys2Proof.Machine.execCxlPortUp p width rate gib s
  | .cxlPortDown p => Sys2Proof.Machine.execCxlPortDown p s
  | .cxlRequestTimeout p => Sys2Proof.Machine.execCxlRequestTimeout p s
  | .cxlRetrainTimer p got => Sys2Proof.Machine.execCxlRetrainTimer p got s
  | .cxlLogPoll p ce ue fatal media => Sys2Proof.Machine.execCxlLogPoll p ce ue fatal media s
  | .cxlPoisonLine g into => Sys2Proof.Machine.execCxlPoisonLine g into s
  | .regionReady g => Sys2Proof.Machine.execRegionReady g s
  | .regionPoisonSecond g => Sys2Proof.Machine.execRegionPoisonSecond g s
  | .ringEnable fn r cls log2 vector => Sys2Proof.Machine.execRingEnable fn r cls log2 vector s
  | .ringDisable fn r => Sys2Proof.Machine.execRingDisable fn r s
  | .ringResume fn r => Sys2Proof.Machine.execRingResume fn r s
  | .doorbell fn r prod => Sys2Proof.Machine.execDoorbell fn r prod s
  | .descriptorArrive fn r got => Sys2Proof.Machine.execDescriptorArrive fn r got s
  | .descriptorReread fn r got => Sys2Proof.Machine.execDescriptorReread fn r got s
  | .nop fn r => Sys2Proof.Machine.execNop fn r s
  | .cancel fn r => Sys2Proof.Machine.execCancel fn r s
  | .snapshot fn r => Sys2Proof.Machine.execSnapshot fn r s
  | .commit fn r => Sys2Proof.Machine.execCommit fn r s
  | .stagedRead fn r => Sys2Proof.Machine.execStagedRead fn r s
  | .fwDownload fn r => Sys2Proof.Machine.execFwDownload fn r s
  | .fwActivate fn r => Sys2Proof.Machine.execFwActivate fn r s
  | .attest fn r => Sys2Proof.Machine.execAttest fn r s
  | .commandTimeout fn r => Sys2Proof.Machine.execCommandTimeout fn r s
  | .bufferReadDone fn r got => Sys2Proof.Machine.execBufferReadDone fn r got s
  | .evrEnable fn e ctl => Sys2Proof.Machine.execEvrEnable fn e ctl s
  | .evrHeadWrite fn e head => Sys2Proof.Machine.execEvrHeadWrite fn e head s
  | .coalesceTimer fn e => Sys2Proof.Machine.execCoalesceTimer fn e s
  | .msgRingEnable ctl => Sys2Proof.Machine.execMsgRingEnable ctl s
  | .msgHeadWrite head => Sys2Proof.Machine.execMsgHeadWrite head s
  | .pcieLinkDown => Sys2Proof.Machine.execPcieLinkDown s
  | .pcieLinkUp => Sys2Proof.Machine.execPcieLinkUp s
  | .flrPf0 => Sys2Proof.Machine.execFlrPf0 s
  | .flrPf1 => Sys2Proof.Machine.execFlrPf1 s
  | .perst low => Sys2Proof.Machine.execPerst low s
  | .bwWindowEnd bytes => Sys2Proof.Machine.execBwWindowEnd bytes s
  | .chkInit u alg => Sys2Proof.Machine.execChkInit u alg s
  | .chkDataWrite u be w => Sys2Proof.Machine.execChkDataWrite u be w s
  | .chkValueWrite u hi be w => Sys2Proof.Machine.execChkValueWrite u hi be w s
  | .chkResultRead who u which => Sys2Proof.Machine.execChkResultRead who u which s
  | .bootImageChecked h0 h1 body => Sys2Proof.Machine.execBootImageChecked h0 h1 body s
  | .bootMbxGo fn => Sys2Proof.Machine.execBootMbxGo fn s
  | .flashWriteDone ok => Sys2Proof.Machine.execFlashWriteDone ok s
  | .firmwareReady => Sys2Proof.Machine.execFirmwareReady s
  | .activationTimeout => Sys2Proof.Machine.execActivationTimeout s
  | .otpAdvanceDone => Sys2Proof.Machine.execOtpAdvanceDone s
  | .identityReconstruct ok => Sys2Proof.Machine.execIdentityReconstruct ok s
  | .attestSignDone => Sys2Proof.Machine.execAttestSignDone s
  | .dbgChallenge => Sys2Proof.Machine.execDbgChallenge s
  | .dbgSubmit => Sys2Proof.Machine.execDbgSubmit s
  | .jtagInstruction n => Sys2Proof.Machine.execJtagInstruction n s
  | .powerOnReset blown => Sys2Proof.Machine.execPowerOnReset blown s
  | .porstRelease => Sys2Proof.Machine.execPorstRelease s
  | .supplyUndervoltage rail blown => Sys2Proof.Machine.execSupplyUndervoltage rail blown s
  | .warmReset fn data => Sys2Proof.Machine.execWarmReset fn data s
  | .warmResetDone => Sys2Proof.Machine.execWarmResetDone s
  | .watchdogExpire => Sys2Proof.Machine.execWatchdogExpire s
  | .thermalSample t24 t25 t26 t27 => Sys2Proof.Machine.execThermalSample t24 t25 t26 t27 s
  | .shedAction => Sys2Proof.Machine.execShedAction s
  | .shedRestore => Sys2Proof.Machine.execShedRestore s
  | .lifeSecond => Sys2Proof.Machine.execLifeSecond s
  | .lifeSave => Sys2Proof.Machine.execLifeSave s
  | .tackSymbolReceived x q sec up down own lower => Sys2Proof.Machine.execTackSymbolReceived x q sec up down own lower s
  | .monitorWordBoundary w => Sys2Proof.Machine.execMonitorWordBoundary w s
  | .realignedFirstPulse o => Sys2Proof.Machine.execRealignedFirstPulse o s
  | .hostImageChecked img => Sys2Proof.Machine.execHostImageChecked img s
  | .stagedImageChecked intact => Sys2Proof.Machine.execStagedImageChecked intact s
  | .sampleClockLockHeld d => Sys2Proof.Machine.execSampleClockLockHeld d s

end Sys2Proof.Machine
end

