-- ==== Sys2Proof/Machine/Idle.lean ====
section
/-! DEFINITION. A control-clock cycle in which no command waits (R11, R365, R512, R513, R517; log 1). -/

namespace Sys2Proof.Machine

/-- A counter in level mode counts this cycle (R512, R513): a standing defect that its filters let pass, the control
clock, a class-0 descriptor outstanding, a Tack burst. -/
def State.prfLevel (s : State) (w : Word) : Bool :=
  if bits w 29 29 = 0 then s.io.defects.any fun d => prfSel w 1 0 d.code d.car d.index
  else prfSel w 1 1 0x0001 0 0 || (s.class0Waits && prfSel w 1 1 0x0034 0 0) ||
    [Carrier.A, Carrier.B].any fun x => (s.car x).tk.burst.isSome && prfSel w 1 1 0x0060 x.ev 0

/-- What a counter counts in this cycle of a signal whose activity no row shows: CXL.mem requests and cycles with one
outstanding, and cycles with a decoder pass running (R513). The value is free (log 104). -/
def State.prfOpen (s : State) (w : Word) : Nat :=
  let sel := bits w 15 0
  if bits w 29 29 = 0 then 0
  else if bits w 30 30 = 1 then
    if sel = 0x10 ∨ sel = 0x40 ∨ sel = 0x41 then (Config.prfSeen w s.sys.dtime).toNat % 2 else 0
  else if sel = 0x40 ∨ sel = 0x41 then (Config.prfSeen w s.sys.dtime).toNat else 0

/-- The performance counters that count cycles (R512): every cycle of the control clock, levels, and what no row shows. -/
def State.prfCycle (s : State) : State :=
  if s.rd ⟨.PRF_RUN_LO, 0⟩ = 0 ∧ s.rd ⟨.PRF_RUN_HI, 0⟩ = 0 then s else
  s.each (List.range 32) fun s i =>
    let w := s.rd ⟨.PRF_CNT_CFG, i⟩
    let n := if prfSel w 0 1 0x0001 0 0 || s.prfLevel w then 1 else s.prfOpen w
    if prfRuns s.rd i && n != 0 then s.bump64 .PRF_CNT_LO i n else s

/-- The first integration of a crease map starts (R365); one that is suspended does not (R551). -/
def State.cmFirst (s : State) (x : Carrier) : State :=
  if s.cfx F.CAR_CM_CTL_EN x = 1 ∧ (s.car x).cm.run = false ∧ s.sys.shed.contains .aux = false then
    s.modCm x fun c => { c with run := true, start := s.ns }
  else s

/-- One control-clock cycle, 2.5 ns (R37): device time runs on, check units take up a byte each. -/
def State.idle (s : State) : State :=
  if s.sys.held then s else
  let s := s.modSys fun y => { y with dtime := y.dtime + 163840 }
  let s := s.each [0, 1, 2, 3] State.chkCycle
  let s := (s.cmFirst .A).cmFirst .B
  s.prfCycle

end Sys2Proof.Machine
end

