-- ==== Sys2Proof/WellFormed.lean ====
section
/-! DEFINITION. Well-formed commands: operands within the bounds the spec gives the block's windows, rings, memories and
measurements. A command whose operands are finite types is well-formed as it stands. -/

namespace Sys2Proof

open Sys2Proof.Machine

/-- A word-aligned offset of a function's 64 MiB window (R463, R498). -/
def offOk (off : Nat) : Bool := decide (off < 0x4000000) && off % 4 == 0

/-- An offset in a dispersion table's window (R500). -/
def cdeOk (off : Nat) : Bool := decide (0x2000000 ≤ off) && decide (off < 0x2100000)

/-- An offset in one of the table windows (R500). -/
def winOk (off : Nat) : Bool :=
  (decide (0x2000000 ≤ off) && decide (off < 0x2200000)) || (decide (0x2400000 ≤ off) && decide (off < 0x2C00000))

/-- A command ring of a function: 64 of PF0, 8 of PF1 (R464). -/
def ringOk (fn : Fn) (r : Nat) : Bool :=
  match fn with
  | .PF0 => decide (r < 64)
  | .PF1 => decide (r < 8)

/-- An event ring of a function: 4 of PF0, 2 of PF1 (R484, R485). -/
def evrOk (fn : Fn) (e : Nat) : Bool :=
  match fn with
  | .PF0 => decide (e < 4)
  | .PF1 => decide (e < 2)

/-- Channel numbers (R314). -/
def chansOk (l : List Nat) : Bool := l.all fun c => decide (c < 1024)

/-- A command's operands are in their bounds. -/
def Instr.wf (i : Instr) : Bool :=
  match i with
  | .registerWrite _ off l _ => offOk off && decide (0 < l.length) && decide (l.length ≤ 1024)
  | .dtimeLoRead _ => true
  | .loCounterRead _ off n => offOk off && decide (1 ≤ n) && decide (n ≤ 4096)
  | .counterWrite _ off _ _ => offOk off
  | .evtSeqClear _ off _ => offOk off
  | .snapRead _ _ => true
  | .snapLive _ => true
  | .deviceFrameTick feed _ => chansOk (feed.map (·.1))
  | .symbolFrameBoundary _ _ m => m.all (fun k => decide (k.dc.length ≤ 4) && decide (k.iq.length ≤ 2) && decide (k.erased ≤ 256))
  | .digestRecomputed => true
  | .mpRestart => true
  | .mpReturn => true
  | .stitchBlockReceived _ _ _ _ _ _ => true
  | .laneLocked _ _ _ => true
  | .laneFailed _ _ _ => true
  | .forwardedClockLost _ _ => true
  | .laneLockTimeout _ _ _ => true
  | .darnRequest _ _ _ => true
  | .darnComplete _ _ _ => true
  | .darnRetry _ _ _ => true
  | .darnTimeout _ _ _ => true
  | .sidebandKeepAlive _ _ _ => true
  | .sidebandTestControl _ _ _ => true
  | .sidebandLocked _ _ => true
  | .sidebandLost _ _ => true
  | .retrain _ _ => true
  | .modTestWrite _ _ _ => true
  | .laneTestEnable _ _ _ _ _ => true
  | .injectSingle _ _ _ => true
  | .injectRateTick _ _ _ => true
  | .prbsSync _ _ _ => true
  | .prbsSyncLoss _ _ _ => true
  | .sampleClockLock _ => true
  | .sampleClockUnlock _ => true
  | .pathFaultClear _ => true
  | .feLimitClear _ _ => true
  | .tableReady _ => true
  | .loadEnWrite _ _ => true
  | .tableWindowWrite off wide _ => cdeOk off && off % (if wide then 8 else 4) == 0
  | .hostWindowRead _ off wide _ => winOk off && off % (if wide then 8 else 4) == 0
  | .estimate _ => true
  | .estimateDone _ _ _ _ => true
  | .trackInterval _ => true
  | .acquisitionTimeout _ => true
  | .pressGuardCompare _ => true
  | .pressGainCompare _ => true
  | .xiAdapt _ _ => true
  | .engineTakeover _ k => decide (k < 32)
  | .tableLoad fn r => ringOk fn r
  | .profileLoad fn r => ringOk fn r
  | .alignmentDetection _ _ _ => true
  | .lockAcquired _ => true
  | .trainingTimeout _ => true
  | .alignmentMissedLoss _ => true
  | .pilotSnrLoss _ => true
  | .offsetLoss _ => true
  | .noAlignmentFound _ => true
  | .phaseSlip _ _ _ _ => true
  | .clockOffsetDefect _ => true
  | .outerTapsDefect _ _ => true
  | .snrWindowEnd _ m => m.all (fun l => decide (l.length ≤ 16))
  | .meanSnrInterval _ m => m.all (fun l => decide (l.length ≤ 16))
  | .capture fn r => ringOk fn r
  | .captureTrigger _ code => decide (code ≤ 0xFFFF)
  | .captureFillEnd _ _ entries => decide (entries.length ≤ 524288)
  | .captureStop fn r => ringOk fn r
  | .captureDone _ => true
  | .captureFailed _ => true
  | .blockLock _ _ blocks => blocks.isEmpty || blocks.length == 6
  | .noBlockLock _ => true
  | .lossOfBlockLock _ => true
  | .codeBlockDecode _ _ post passes => decide (post.length ≤ 8) && decide (passes < 256)
  | .rateMismatch _ => true
  | .rateSwitchMissed _ => true
  | .fecInterval _ => true
  | .uncorrectedInterval _ => true
  | .txRampUpDone _ => true
  | .txRampDownDone _ => true
  | .txForced _ => true
  | .forcedRelease _ => true
  | .txSquelchWrite _ _ => true
  | .sqHoldExpire _ => true
  | .restartProbe _ => true
  | .probeEnd _ => true
  | .clipInterval _ _ => true
  | .planCompute fn r => ringOk fn r
  | .planInterval _ => true
  | .planPropose fn r => ringOk fn r
  | .planPush fn r => ringOk fn r
  | .planLocal fn r => ringOk fn r
  | .planApprove fn r => ringOk fn r
  | .approvalTimeout _ => true
  | .proposeReceived _ _ => true
  | .planCommitReceived _ _ => true
  | .planRejectReceived _ _ => true
  | .planAbortReceived _ _ => true
  | .planQueryReceived _ _ => true
  | .proposeRetry _ => true
  | .planAnnounceSeen _ => true
  | .planRecoverySwap _ => true
  | .queryRetry _ => true
  | .planLostQuery _ => true
  | .epochMismatch _ => true
  | .rxFrameReceived _ _ got => got.all (fun g => g.2.all (fun r => decide (r.1 ≤ r.2)))
  | .frameFound _ => true
  | .multiframeAligned _ => true
  | .oof _ => true
  | .lof _ => true
  | .lossOfMultiframe _ => true
  | .rdiReceived _ _ => true
  | .traceAccepted _ _ => true
  | .degInterval _ => true
  | .frameTooShort _ => true
  | .msgSend fn r => ringOk fn r
  | .messageReceived _ => true
  | .tagCheck _ _ => true
  | .keySoftLimit _ => true
  | .keyExhausted _ => true
  | .keyInstall fn r => ringOk fn r
  | .peerLoad fn r => ringOk fn r
  | .keyAgree fn r => ringOk fn r
  | .ciphEnWrite _ _ => true
  | .keyRollDue cs => chansOk cs
  | .kaCryptoDone _ => true
  | .initReceived _ _ => true
  | .respReceived _ _ => true
  | .confirmReceived _ _ => true
  | .kaErrorReceived _ _ => true
  | .initRetry _ => true
  | .respRetry _ => true
  | .kaRetryMinute _ => true
  | .seamPairMeasure m _ _ => decide (m < 2 ^ 32)
  | .seamFrameOut frame _ _ => decide (frame < 2 ^ 40)
  | .copyClearDelay _ _ _ => true
  | .holdOffExpire _ => true
  | .wtrExpire _ => true
  | .seamSwitch fn r => ringOk fn r
  | .seamRealign => true
  | .portLos _ _ => true
  | .portLol _ _ => true
  | .portUncInterval _ _ _ => true
  | .flexeGroupDefect _ _ _ => true
  | .flexeCalendarSwitch _ _ _ => true
  | .demapFrame _ => true
  | .lossOfMapping _ => true
  | .csfReceived _ => true
  | .rateAdaptFault _ => true
  | .tackBurstStart _ => true
  | .tackBurstEnd _ => true
  | .helloTimer _ => true
  | .tackHelloCmd _ => true
  | .rdiFrameTimer _ => true
  | .dyingGaspCmd _ => true
  | .pfail => true
  | .pfailRelease => true
  | .tackDetection _ l => decide (0 < l.length) && decide (l.length ≤ 6)
  | .tackHeader _ _ => true
  | .tackFrameEnd _ _ => true
  | .helloReceived _ => true
  | .tackRdiReceived _ => true
  | .tackRdiClear _ => true
  | .dyingGaspReceived _ => true
  | .tackSegmentReceived _ => true
  | .reassemblyTimeout _ typ => decide (typ < 256)
  | .tackFloorInterval _ _ => true
  | .integrationEnd _ m => decide (m.cover ≤ 10000) && decide (m.lock ≤ 10000) && m.fits.all (fun f => decide (f.1 < 256))
  | .historyWriteDone _ => true
  | .refFailed _ _ _ => true
  | .slotMeasurement _ _ _ _ => true
  | .slotQualified _ _ _ => true
  | .slotDisqualified _ _ _ => true
  | .dpllLock _ => true
  | .dpllUnlock _ => true
  | .historySecond _ _ => true
  | .outRealign _ _ _ => true
  | .bleedComplete _ => true
  | .refEdgeStamp _ => true
  | .rootUnlock => true
  | .rootLock => true
  | .conversionEnd => true
  | .urgentRequest _ => true
  | .dcbEstWrite _ _ => true
  | .biasValWrite _ _ => true
  | .refSettled _ => true
  | .refUnsettled _ => true
  | .calStart _ _ => true
  | .calibrate fn r _ => ringOk fn r
  | .calPass1End _ vals => decide (vals.length ≤ 768)
  | .calPass2End _ vals => decide (vals.length ≤ 768)
  | .calAbort _ => true
  | .calRampStep _ => true
  | .starchDone rows _ => rows.all (fun e => decide (e.2 < 2 ^ 19))
  | .rinseRead _ w _ _ _ => decide (w < 2 ^ 23)
  | .ueReread _ w _ _ _ => decide (w < 2 ^ 23)
  | .rowPatchDone _ row => decide (row < 2 ^ 19)
  | .goldenReloadDone _ w => decide (w < 2 ^ 23)
  | .memInject _ _ _ next => next.all (fun w => decide (w < 2 ^ 23))
  | .ceRateSecond => true
  | .cxlPortUp _ _ _ gib => decide (gib ≤ 1024)
  | .cxlPortDown _ => true
  | .cxlRequestTimeout _ => true
  | .cxlRetrainTimer _ got => got.all (fun g => decide (g.2.2 ≤ 1024))
  | .cxlLogPoll _ _ _ _ _ => true
  | .cxlPoisonLine _ _ => true
  | .regionReady _ => true
  | .regionPoisonSecond _ => true
  | .ringEnable fn r _ _ _ => ringOk fn r
  | .ringDisable fn r => ringOk fn r
  | .ringResume fn r => ringOk fn r
  | .doorbell fn r _ => ringOk fn r
  | .descriptorArrive fn r got => ringOk fn r && decide (got.length ≤ 65536)
  | .descriptorReread fn r _ => ringOk fn r
  | .nop fn r => ringOk fn r
  | .cancel fn r => ringOk fn r
  | .snapshot fn r => ringOk fn r
  | .commit fn r => ringOk fn r
  | .stagedRead fn r => ringOk fn r
  | .fwDownload fn r => ringOk fn r
  | .fwActivate fn r => ringOk fn r
  | .attest fn r => ringOk fn r
  | .commandTimeout fn r => ringOk fn r
  | .bufferReadDone fn r _ => ringOk fn r
  | .evrEnable fn e _ => evrOk fn e
  | .evrHeadWrite fn e _ => evrOk fn e
  | .coalesceTimer fn e => evrOk fn e
  | .msgRingEnable _ => true
  | .msgHeadWrite _ => true
  | .pcieLinkDown => true
  | .pcieLinkUp => true
  | .flrPf0 => true
  | .flrPf1 => true
  | .perst _ => true
  | .bwWindowEnd bytes => bytes.length == 42
  | .chkInit _ _ => true
  | .chkDataWrite _ _ _ => true
  | .chkValueWrite _ _ _ _ => true
  | .chkResultRead _ _ _ => true
  | .bootImageChecked _ _ _ => true
  | .bootMbxGo _ => true
  | .flashWriteDone _ => true
  | .firmwareReady => true
  | .activationTimeout => true
  | .otpAdvanceDone => true
  | .identityReconstruct _ => true
  | .attestSignDone => true
  | .dbgChallenge => true
  | .dbgSubmit => true
  | .jtagInstruction _ => true
  | .powerOnReset blown => decide (blown ≤ 64)
  | .porstRelease => true
  | .supplyUndervoltage _ blown => decide (blown ≤ 64)
  | .warmReset _ _ => true
  | .warmResetDone => true
  | .watchdogExpire => true
  | .thermalSample _ _ _ _ => true
  | .shedAction => true
  | .shedRestore => true
  | .lifeSecond => true
  | .lifeSave => true
  | .tackSymbolReceived _ _ _ up down own _ => (up ++ down).all (fun p => p.bins.all fun e => decide (e.1 < 2 ^ 20)) &&
      own.all (decide <| · < 2 ^ 20)
  | .monitorWordBoundary _ => true
  | .realignedFirstPulse _ => true
  | .hostImageChecked _ => true
  | .stagedImageChecked _ => true
  | .sampleClockLockHeld _ => true

end Sys2Proof
end

