-- ==== Sys2Proof/Safety.lean ====
section
/-! DEFINITION. What claims about the block are stated in: the parts of the state that a command leaves as they were,
the canonical form of memory, queues of well-formed commands, runs. -/

namespace Sys2Proof.Machine

/-- The parts of the state, for frames. `records`: event rings, held records, EVENTS registers, pending vectors and
what has gone out; `counters`: counts and their remainders; `host`: link, PERST and message ring; `latches`: readers'
latches, write buffers, snapshots; `regs`: every configuration register, its staging copy and pending commits. -/
inductive Zone where
  | sys | rings | records | counters | defects | host | latches | bw | regs | chk | sti
  | fe (x : Carrier) | rxc (x : Carrier) | fec (x : Carrier) | tx (x : Carrier) | plan (x : Carrier)
  | tr (x : Carrier) | tk (x : Carrier) | cm (x : Carrier)
  | ciph | seam | cli | tim | mon | cal | mem | cxl | boot | retired | pending
deriving DecidableEq, Repr

/-- A part of `t` is as in `s`. -/
def State.keeps (s t : State) (p : Zone) : Prop :=
  match p with
  | .sys => t.sys = s.sys
  | .rings => t.io.rings = s.io.rings ∧ t.io.arb = s.io.arb
  | .records => t.io.evr = s.io.evr ∧ t.io.heldEv = s.io.heldEv ∧ t.io.evtw = s.io.evtw ∧ t.io.pba = s.io.pba ∧
      t.io.out = s.io.out
  | .counters => t.io.cnt = s.io.cnt ∧ t.io.rem = s.io.rem
  | .defects => t.io.defects = s.io.defects
  | .host => t.io.link = s.io.link ∧ t.io.perst = s.io.perst ∧ t.io.msgTail = s.io.msgTail
  | .latches => t.io.latch = s.io.latch ∧ t.io.wbuf = s.io.wbuf ∧ t.io.snaps = s.io.snaps
  | .bw => t.io.bw = s.io.bw ∧ t.io.bwSeq = s.io.bwSeq
  | .regs => t.regs = s.regs
  | .chk => t.chk = s.chk
  | .sti => t.sti = s.sti
  | .fe x => (t.car x).fe = (s.car x).fe
  | .rxc x => (t.car x).rxc = (s.car x).rxc
  | .fec x => (t.car x).fec = (s.car x).fec
  | .tx x => (t.car x).tx = (s.car x).tx
  | .plan x => (t.car x).plan = (s.car x).plan
  | .tr x => (t.car x).tr = (s.car x).tr
  | .tk x => (t.car x).tk = (s.car x).tk
  | .cm x => (t.car x).cm = (s.car x).cm
  | .ciph => t.ciph = s.ciph
  | .seam => t.seam = s.seam
  | .cli => t.cli = s.cli
  | .tim => t.tim = s.tim
  | .mon => t.mon = s.mon
  | .cal => t.cal = s.cal
  | .mem => t.mem = s.mem
  | .cxl => t.cxl = s.cxl
  | .boot => t.boot = s.boot
  | .retired => t.retired = s.retired
  | .pending => t.pending = s.pending

/-- FRAME: every part but those of a list is as it was. -/
structure State.onlyIn (s t : State) (l : List Zone) : Prop where
  /-- A zone that is not listed is as it was. -/
  rest : ∀ p, p ∉ l → s.keeps t p

/-- What an event record may change: the records, and the counters of the performance monitor and of lost records. -/
def evParts : List Zone := [.records, .counters]

/-- What a defect raised or cleared may change. -/
def defParts : List Zone := [.records, .counters, .defects]

/-- What a condition that passes on to the units behind it may change on carrier `x` and at its channels: the receive
core, line code, framer, output and Tack of the carrier, the cipher's running tags, Seam, the channels, and the Tack
values that waited for a burst's end. -/
def behind (x : Carrier) : List Zone :=
  [.records, .counters, .defects, .regs, .rxc x, .fec x, .tx x, .plan x, .tr x, .tk x, .ciph, .seam, .cli]

/-- What a squelch cause that acts or ceases may change at a carrier's output. -/
def outParts (x : Carrier) : List Zone := [.regs, .tx x, .tr x, .tk x]

/-- What the consumer of a poisoned word may change beside the memory and defects (R436): by what the word holds. -/
def useParts (use : Option MemUse) : List Zone :=
  match use with
  | none | some (.step _ _) => []
  | some (.key _ _ _) => [.sys, .ciph, .seam, .cli]
  | some (.part _ _ _) => [.fe .A, .fe .B, .rxc .A, .rxc .B, .fec .A, .fec .B, .tx .A, .tx .B, .tk .A, .tk .B, .cli, .boot, .cal]

/-- What completing a ring's command may change: the ring, and the record of a halt that the next descriptor meets. -/
def cmdParts : List Zone := .rings :: defParts

/-- What sending a plan or key message may change: the message channel, Tack's queue, the messages that wait. -/
def sendParts (x : Carrier) : List Zone := [.plan x, .tr x, .tk x]

/-- A message of Plaile's went out on the message channel, where it is open. -/
def State.sent (s t : State) (x : Carrier) (body : Bytes) : Prop :=
  s.channelOpen x = true → (t.car x).tr.own = (s.car x).tr.own ++ [wire body]

/-- A key message went out on the message channel, where it is open for key messages. -/
def State.sentKey (s t : State) (x : Carrier) (body : Bytes) : Prop :=
  (s.car x).tr.st = .aligned → s.stands 0x0804 x.ev 0 = false → (t.car x).tr.own = (s.car x).tr.own ++ [wire body]

/-- An exchange can start with exactly these channels (R273): the carrier is ready and idle, none is due, and each has a
free place and an epoch to come. -/
def State.canAgree (s : State) (x : Carrier) (cs : List Nat) : Prop :=
  s.kaReady x = true ∧ (s.ka x).idle = true ∧ (s.ka x).due = [] ∧ cs ≠ [] ∧
    ∀ c ∈ cs, ((s.ciphCh c).free (s.keyCars c)).isSome = true ∧ (s.ciphCh c).topEpoch < 0xFFFFFF

/-- An exchange of these channels has started in `t`, with an epoch above all that they hold (R273). -/
def State.agrees (s t : State) (x : Carrier) (cs sched : List Nat) : Prop :=
  (t.ka x).state = 1 ∧ (t.ka x).init = true ∧ (t.ka x).step = 1 ∧ (t.ka x).due = [] ∧
    (∀ c, c ∈ (t.ka x).chans ↔ c ∈ cs) ∧ (∀ c, c ∈ (t.ka x).sched ↔ c ∈ sched) ∧ ∀ c ∈ cs, (s.ciphCh c).topEpoch < (t.ka x).epoch

/-- The failure of a carrier's exchange takes no key away: no direction of its channels uses an entry of its epoch, and none
has lost its key before (R271, R276). -/
def State.eraseQuiet (s : State) (x : Carrier) : Prop :=
  ∀ c ∈ (s.ka x).chans, (s.ciphCh c).txLost = false ∧ (∀ y, (s.ciphCh c).rxLost y = false) ∧
    ∀ p e, (s.ciphCh c).ent p = some e → e.epoch = (s.ka x).epoch → (s.ciphCh c).used [.A, .B] p = false

/-- A carrier's receiver is enabled, has its input, and has left the states that wait for it (R134). -/
def State.receives (s : State) (x : Carrier) : Prop :=
  s.cfx F.CAR_RXC_CTL_RX_EN x ≠ 0 ∧ s.rxValid x = true ∧ (s.car x).rxc.st ≠ .disabled ∧ (s.car x).rxc.st ≠ .waitInput

/-- The canonical form of the table windows' cells. -/
def State.cellsOk (s : State) : Prop := Memory.wf s.mem.windows = true

/-- Every command in the queue is well-formed. -/
def State.queueOk (s : State) : Prop := ∀ i ∈ s.pending, i.wf = true

/-- A safe run: `n` steps end in a next state, without a fault or a refusal. -/
def State.safe (s : State) (n : Nat) : Prop := ∃ t, Sys2Proof.core.run n s = .next t

/-- The register that an agent reaches at an offset: word-aligned, outside the table windows and the counter page. -/
def regAt (who : Agent) (off : Nat) : Option RegKey :=
  if off % 4 = 0 ∧ winOf off = none ∧ (off < 0x900000 ∨ 0x901000 ≤ off) then resolve who.fn off else none

/-- An offset of the BAR0 window that holds nothing for an agent (R501): no window, page, register or SEC window. -/
def reservedAt (who : Agent) (off : Nat) : Bool :=
  off % 4 == 0 && (winOf off).isNone && (decide (off < 0x900000) || decide (0x901000 ≤ off)) &&
    (resolve who.fn off).isNone && off / 0x100000 != 10

/-- Registers whose writes do more than set their RW fields: those with rules of their own and the SQC and CNT types. -/
def RegId.actsOnWrite (r : RegId) : Bool :=
  r.isSqc || r.isCnt || r.pf1Only ||
    [RegId.PRF_RUN_LO, .PRF_RUN_HI, .SNAP_LIVE, .HST_RING_CTL, .HST_RING_BASE_LO, .HST_RING_BASE_HI, .HST_CPL_BASE_LO,
     .HST_CPL_BASE_HI, .HST_RING_ALIVE, .HST_DB, .HST_MSIX, .EVT_EVR_CTL, .EVT_EVR_HEAD, .EVT_EVR_ROUTE0,
     .EVT_EVR_ROUTE1, .EVT_MSG_CTL, .GLB_CAL_CMD, .STI_MOD_CTL, .STI_LANE_CTL, .SEAM_CTL, .TIM_OUT_CMD, .MON_URGENT,
     .MON_DCB_EST, .MON_BIAS_VAL, .CHK_CTL, .CHK_DATA, .CHK_VALUE_LO, .CHK_VALUE_HI, .SEC_DBG_CMD, .SEC_CIPH_CH_CTL,
     .CAR_CDE_CTL, .CAR_TX_CTL, .CAR_TK_TX_CMD].contains r

/-- Bits of a register's RW fields that take effect on the write, and of those that are staged (R19). -/
def liveMask (r : RegId) : Word := fldMask r fun f => f.acc == .rw && f.stg.isNone
/-- Bits of a register's staged RW fields. -/
def stagedMask (r : RegId) : Word := fldMask r fun f => f.acc == .rw && f.stg.isSome

end Sys2Proof.Machine
end

