-- ==== Sys2Proof/Certificates/Slice0/Obligations.lean ====
section
/-! DEFINITION. The obligations, as propositions, in the order of the spec's chapters. Each docstring names the rules it
formalises. A clause that rests on a choice of the model names its log entry. -/

open Sys2Proof Sys2Proof.Machine

/-- Step runs the command at the front of the queue, with the rest of the queue behind it. -/
def Obligations.StepRunsFrontCommand : Prop :=
  ∀ (s : State) (c : Instr) (rest : List Instr), s.pending = c :: rest → step s = exec c { s with pending := rest }

/-! ### Registers, reads and counters (chapters 01 and 19) -/

/-- R19: a write of a register whose write has no act of its own sets the enabled bits of its RW fields: those of a
staged field in the staging copy only, those of any other field at once. A pinch setting whose value would be 0x8000 is
left as it was (R8). Every other register and staging copy is as before; a running calibration ramp may stop (R429). -/
def Obligations.RegisterWriteTakesEffect : Prop :=
  ∀ (s : State) (who : Agent) (off : Nat) (k : RegKey) (be : BitVec 4) (w : Word) (rms : Bool),
    s.sys.held = false → who ≠ .page → be ≠ 0 → regAt who off = some k → k.reg.actsOnWrite = false →
    ∃ t, exec (.registerWrite who off [(be, w)] rms) s = .next t ∧
      ((∀ f ∈ pinchSets k.reg, bits (merge (s.rd k) w (beMask be)) f.hi f.lo ≠ 0x8000 ∧
          bits (merge (s.stagedWord k) w (beMask be)) f.hi f.lo ≠ 0x8000) →
        t.rd k = merge (s.rd k) w (beMask be &&& liveMask k.reg) ∧
        t.stagedWord k &&& stagedMask k.reg =
          merge (s.stagedWord k) w (beMask be &&& stagedMask k.reg) &&& stagedMask k.reg) ∧
      (∀ f ∈ pinchSets k.reg, be = 15 → bits w f.hi f.lo = 0x8000 →
        bits (t.rd k) f.hi f.lo = bits (s.rd k) f.hi f.lo ∧
        bits (t.stagedWord k) f.hi f.lo = bits (s.stagedWord k) f.hi f.lo) ∧
      (∀ j, j ≠ k → t.rd j = s.rd j ∧ t.stagedWord j = s.stagedWord j) ∧
      s.onlyIn t [.regs, .cal, .records, .counters]

/-- R501: a reserved word of the window reads zero, without an error completion and with no other effect, and ignores
writes. -/
def Obligations.ReservedWordsReadZero : Prop :=
  ∀ (s : State) (who : Agent) (off : Nat) (be : BitVec 4) (w : Word) (rms : Bool), s.sys.held = false →
    reservedAt who off = true →
    exec (.loCounterRead who off 4) s = .next (s.emit (.readData who off 0 false)) ∧
    exec (.registerWrite who off [(be, w)] rms) s = .next s

/-- R506: a read of a 64-bit counter's _LO returns its bits 31:0 and latches bits 63:32 for this reader; a read of _HI
returns what this reader latched last, and zero when it has read no _LO since power-on reset. Neither read changes
anything else. -/
def Obligations.CounterPairReads : Prop :=
  (∀ (s : State) (who : Agent) (off : Nat) (lo hi : RegKey), s.sys.held = false → hi.idx = lo.idx →
    lo.reg.isCnt = true → hiOf lo.reg = [hi.reg] → lo.reg ≠ .SNAP →
    (regAt who off = some lo → exec (.loCounterRead who off 4) s =
      .next ((s.latch who hi (s.showNat lo / 2 ^ 32 % 2 ^ 32)).emit
        (.readData who off (s.showNat lo % 2 ^ 32) false))) ∧
    (regAt who off = some hi → exec (.loCounterRead who off 4) s =
      .next (s.emit (.readData who off (agetD s.io.latch (who, hi) 0 % 2 ^ 32) false)))) ∧
  ∀ (s : State) (blown : Nat) (who : Agent) (hi : RegKey), ∃ t,
    exec (.powerOnReset blown) s = .next t ∧ agetD t.io.latch (who, hi) 0 = 0

/-- R12: a read of GLB.DTIME_LO returns the device time's low word and latches its high word and its fraction, of the same
instant, for the reader; a 64-bit read returns the whole time of that instant; a read of GLB.DTIME_HI or GLB.DTIME_FRAC
returns what the reader latched last. The counter page shows the time in the same way while it is enabled (R515). -/
def Obligations.DeviceTimeReads : Prop :=
  (∀ (s : State) (who : Agent), s.sys.held = false → who ≠ .page →
    exec (.dtimeLoRead who) s = .next (((s.latch who ⟨.GLB_DTIME_HI, 0⟩ (s.ns / 2 ^ 32)).latch who ⟨.GLB_DTIME_FRAC, 0⟩
      (s.sys.dtime % 65536)).emit (.readData who 0x10 (s.ns % 2 ^ 32) false)) ∧
    exec (.loCounterRead who 0x10 8) s = .next (((s.latch who ⟨.GLB_DTIME_HI, 0⟩ (s.ns / 2 ^ 32)).latch who
      ⟨.GLB_DTIME_FRAC, 0⟩ (s.sys.dtime % 65536)).emit (.readData who 0x10 s.ns false)) ∧
    exec (.loCounterRead who 0x14 4) s =
      .next (s.emit (.readData who 0x14 (agetD s.io.latch (who, ⟨.GLB_DTIME_HI, 0⟩) 0 % 2 ^ 32) false)) ∧
    exec (.loCounterRead who 0x18 4) s =
      .next (s.emit (.readData who 0x18 (agetD s.io.latch (who, ⟨.GLB_DTIME_FRAC, 0⟩) 0 % 2 ^ 32) false))) ∧
  ∀ s : State, s.sys.held = false → s.cf F.PRF_CTL_USER_EN 0 = 1 →
    exec (.dtimeLoRead .page) s = .next (((s.latch .page ⟨.GLB_DTIME_HI, 0⟩ (s.ns / 2 ^ 32)).latch .page
      ⟨.GLB_DTIME_FRAC, 0⟩ (s.sys.dtime % 65536)).emit (.readData .page 0x900100 (s.ns % 2 ^ 32) false)) ∧
    exec (.loCounterRead .page 0x900104 4) s =
      .next (s.emit (.readData .page 0x900104 (agetD s.io.latch (.page, ⟨.GLB_DTIME_HI, 0⟩) 0 % 2 ^ 32) false))

/-- R507: a write of a 32-bit counter sets it; a write of a 64-bit counter's _LO waits, and the write of its _HI sets
the count from both, and from zero for the low half when none waits; a 64-bit write sets both halves; the counters that
ignore writes do. Snapshot copies stay (R505). -/
def Obligations.CounterWrites : Prop :=
  ∀ (s : State) (who : Agent) (off : Nat) (k : RegKey) (v : BitVec 64), s.sys.held = false → who ≠ .page →
    regAt who off = some k → k.reg.isCnt = true →
    (k.reg.cntFixed = true → exec (.counterWrite who off v false) s = .next s) ∧
    (k.reg.cntFixed = false → hiOf k.reg = [] → loOf k.reg = none →
      ∃ t, exec (.counterWrite who off v false) s = .next t ∧ t.cnt k.reg k.idx = v.toNat % 2 ^ 32 ∧
      (∀ r i, (r, i) ≠ (k.reg, k.idx) → t.cnt r i = s.cnt r i) ∧ t.io.snaps = s.io.snaps ∧ s.onlyIn t [.counters]) ∧
    (k.reg.cntFixed = false → hiOf k.reg ≠ [] →
      ∃ t, exec (.counterWrite who off v false) s = .next t ∧ agetD t.io.wbuf k 0 = v.toNat % 2 ^ 32 ∧
      t.io.cnt = s.io.cnt ∧ t.io.snaps = s.io.snaps ∧ t.io.latch = s.io.latch ∧ s.onlyIn t [.latches]) ∧
    (∀ lo, k.reg.cntFixed = false → loOf k.reg = some lo →
      ∃ t, exec (.counterWrite who off v false) s = .next t ∧
      t.cnt lo k.idx = v.toNat % 2 ^ 32 * 2 ^ 32 + agetD s.io.wbuf ⟨lo, k.idx⟩ 0 ∧
      agetD t.io.wbuf ⟨lo, k.idx⟩ 0 = 0 ∧ t.io.snaps = s.io.snaps ∧ t.io.latch = s.io.latch ∧
      s.onlyIn t [.counters, .latches]) ∧
    (∀ hi, k.reg.cntFixed = false → regAt who (off + 4) = some ⟨hi, k.idx⟩ → hiOf k.reg = [hi] →
      ∃ t, exec (.counterWrite who off v true) s = .next t ∧ t.cnt k.reg k.idx = v.toNat ∧
      s.onlyIn t [.counters, .latches])

/-- R509: a full write of an _EVT register whose bits 31:24 equal the current SEQ clears every EVENTS bit written as 1 and
leaves the others and SEQ; a write whose bits 31:24 differ changes nothing. -/
def Obligations.EventRegisterClear : Prop :=
  ∀ (s : State) (who : Agent) (off : Nat) (k : RegKey) (w : Word), s.sys.held = false → who ≠ .page →
    regAt who off = some k → k.reg.isSqc = true →
    (bits w 31 24 = bits (agetD s.io.evtw k 0) 31 24 →
      ∃ t, exec (.evtSeqClear who off w) s = .next t ∧
      agetD t.io.evtw k 0 = agetD s.io.evtw k 0 &&& ~~~(w &&& 0x00FFFFFF) ∧
      (∀ j, j ≠ k → aget t.io.evtw j = aget s.io.evtw j) ∧ t.io.evr = s.io.evr ∧ t.io.out = s.io.out ∧
      s.onlyIn t [.records]) ∧
    (bits w 31 24 ≠ bits (agetD s.io.evtw k 0) 31 24 → exec (.evtSeqClear who off w) s = .next s)

/-- R505: a read of a block's SNAP latches its counters and the device time, counts the snapshot and freezes the block's
counter reads; SNAP_LIVE ends that; counts are left as they are. R514: the end of a window of a bandwidth meter that runs
advances its sequence number and shows each carrier's bytes, with a remainder, in units of 256. -/
def Obligations.SnapshotsAndBandwidth : Prop :=
  ∀ (s : State) (who : Agent) (b : Fin 15), s.sys.held = false →
    (∃ t, exec (.snapRead who b) s = .next t ∧
      (t.snap b).frozen = true ∧ (t.snap b).ns = s.ns ∧ (t.snap b).count = ((s.snap b).count + 1) % 2 ^ 31 ∧
      (∀ k : RegKey, k.reg.isCnt = true → k.block = b.val → loOf k.reg = none → (k.reg = .GLB_TX_MFC_LO → k.idx = 0) →
        t.showNat k = s.liveNat k) ∧
      (∀ n : Nat, n ≠ b → t.snap n = s.snap n) ∧ t.io.latch = s.io.latch ∧ s.onlyIn t [.latches, .records]) ∧
    (∃ t, exec (.snapLive b) s = .next t ∧ (t.snap b).frozen = false ∧
      (∀ k : RegKey, k.block = b.val → t.showNat k = t.liveNat k) ∧ t.io.latch = s.io.latch ∧
      t.io.wbuf = s.io.wbuf ∧ s.onlyIn t [.latches]) ∧
    (∀ l : List Nat, s.cf F.PRF_BW_CTL_EN 0 = 1 → ∃ t, exec (.bwWindowEnd l) s = .next t ∧
      t.io.bwSeq = (s.io.bwSeq + 1) % 2 ^ 32 ∧
      (∀ i, 32 ≤ i → i < 42 → agetD t.io.bw i (0, 0) =
        (((agetD s.io.bw i (0, 0)).2 + l.getD i 0) / 256 % 2 ^ 32, ((agetD s.io.bw i (0, 0)).2 + l.getD i 0) % 256)) ∧
      s.onlyIn t [.bw])

/-- R516 to R518: a write of a check unit joins its queue in order, INIT as the initial value of the algorithm written; a
read of VALUE, RESULT or STAT first takes up everything queued, and shows VALUE so reached. The other units stay. -/
def Obligations.CheckUnits : Prop :=
  ∀ (s : State) (u : Fin 4), s.sys.held = false → (s.chkUnit u).queue.length < 16 →
    (∀ a : Fin 4, ∃ t, exec (.chkInit u a) s = .next t ∧ t.cf F.CHK_CTL_ALG u = a ∧
      t.chkUnit u = ⟨(s.chkUnit u).value, (s.chkUnit u).queue ++ [[.init a.val]]⟩ ∧
      (∀ v : Nat, v ≠ u → t.chkUnit v = s.chkUnit v) ∧ s.onlyIn t [.chk, .regs]) ∧
    (∀ (be : BitVec 4) (w : Word), be ≠ 0 → ∃ t, exec (.chkDataWrite u be w) s = .next t ∧
      t.chkUnit u = ⟨(s.chkUnit u).value, (s.chkUnit u).queue ++ [(enabled be w).map .byte]⟩ ∧
      (∀ v : Nat, v ≠ u → t.chkUnit v = s.chkUnit v) ∧ s.onlyIn t [.chk]) ∧
    (∀ (hi : Bool) (be : BitVec 4) (w : Word), be ≠ 0 → ∃ t, exec (.chkValueWrite u hi be w) s = .next t ∧
      t.chkUnit u = ⟨(s.chkUnit u).value,
        (s.chkUnit u).queue ++ [[if hi then .valueHi w be else .valueLo w be]]⟩ ∧
      (∀ v : Nat, v ≠ u → t.chkUnit v = s.chkUnit v) ∧ s.onlyIn t [.chk]) ∧
    (∀ (who : Agent) (i : Fin 5), ∃ t, exec (.chkResultRead who u i) s = .next t ∧
      (t.chkUnit u).queue = [] ∧
      (t.chkUnit u).value = ((s.chkUnit u).queue.flatMap id).foldl (chkOp (s.cf F.CHK_CTL_ALG u)) (s.chkUnit u).value ∧
      (i.val = 0 → t.io.out.head? = some
        (.readData who (0x800008 + u * 0x100) (t.chkShow u false % 2 ^ 32) false)) ∧
      (∀ v : Nat, v ≠ u → t.chkUnit v = s.chkUnit v) ∧ s.onlyIn t [.chk, .latches, .records])

/-- R85, R445, R446: while LOAD_EN is 1 in custom mode, a 64-bit write of a dispersion window sets both halves of its word
and takes its poison away; while either is 0 it changes nothing. R447, R500: a host read of clean words returns them; a
read of a poisoned word returns zeros in a poisoned completion, counts and posts. -/
def Obligations.TableWindows : Prop :=
  ∀ (s : State) (x : Carrier) (k : Nat), s.sys.held = false → k < 65536 →
    (∀ v : BitVec 64, s.cfx F.CAR_CDE_CTL_TABLE_MODE x ≠ 0 → s.cfx F.CAR_CDE_CTL_LOAD_EN x ≠ 0 →
      s.cf F.MEM_INJ_ARM 0 = 0 →
      ∃ t, exec (.tableWindowWrite (0x2000000 + x.num * 0x80000 + k * 8) true v) s = .next t ∧
      (t.car x).fe.entry (2 * k) = v.setWidth 32 ∧ (t.car x).fe.entry (2 * k + 1) = (v >>> 32).setWidth 32 ∧
      t.poisoned x.num k = false ∧
      (∀ j, j ≠ 2 * k → j ≠ 2 * k + 1 → (t.car x).fe.entry j = (s.car x).fe.entry j) ∧
      t.mem.windows = s.mem.windows ∧ s.onlyIn t (.fe x :: .mem :: defParts)) ∧
    (∀ (v : BitVec 64) (wide : Bool),
      (s.cfx F.CAR_CDE_CTL_TABLE_MODE x = 0 ∨ s.cfx F.CAR_CDE_CTL_LOAD_EN x = 0) →
      exec (.tableWindowWrite (0x2000000 + x.num * 0x80000 + k * 8) wide v) s = .next s) ∧
    (∀ who, aget (s.memo x.num).errs k = none → s.poisoned x.num k = false →
      exec (.hostWindowRead who (0x2000000 + x.num * 0x80000 + k * 8) true 0) s =
        .next (s.emit (.readData who (0x2000000 + x.num * 0x80000 + k * 8)
          (((s.car x).fe.entry (2 * k)).toNat + 2 ^ 32 * ((s.car x).fe.entry (2 * k + 1)).toNat) false))) ∧
    (∀ who (seen : Fin 3), s.poisoned x.num k = true →
      ∃ t, exec (.hostWindowRead who (0x2000000 + x.num * 0x80000 + k * 8) true seen) s = .next t ∧
      t.io.out.head? = some (.readData who (0x2000000 + x.num * 0x80000 + k * 8) 0 true) ∧
      t.cnt .MEM_HOST_PSN 0 = min 0xFFFFFFFF (s.cnt .MEM_HOST_PSN 0 + 1) ∧
      t.mem.windows = s.mem.windows ∧ (t.car x).fe = (s.car x).fe ∧ s.onlyIn t [.mem, .records, .counters])

/-! ### Stitch links (chapter 02) -/

/-- R53, R58, R56, R66: a lane in HUNT with 64 valid headers in a row enters LOCKED and its lane-failed defect clears; a
LOCKED lane with 16 invalid headers of 64, or a lane in HUNT whose lock time runs out while its die's clock is locked,
is FAILED and raises lane-failed, and keeps its logical lane until a spare has that; a lost forwarded clock leaves no
lane of its module LOCKED and the module degraded; RETRAIN returns the FAILED lanes to HUNT and leaves the others as they
are. -/
def Obligations.StitchLaneStates : Prop :=
  ∀ (s : State) (d : Die) (m : Fin 26) (l : Fin 18), s.sys.held = false →
    ((s.lane d m l).st = .hunt → 64 ≤ (s.lane d m l).run → ∃ t, exec (.laneLocked d m l) s = .next t ∧
      (t.lane d m l).st = .locked ∧ t.stands 0x0201 d.car.ev m (d.num * 32 + l) = false ∧
      (∀ e n k, (e, n, k) ≠ (d, m.val, l.val) → t.lane e n k = s.lane e n k) ∧ s.onlyIn t (.sti :: behind d.car)) ∧
    ((s.lane d m l).st = .locked → 16 ≤ ((s.lane d m l).win.filter id).length →
      ∃ t, exec (.laneFailed d m l) s = .next t ∧ (t.lane d m l).st = .failed ∧
      (t.lane d m l).carries = (s.lane d m l).carries ∧ t.stands 0x0201 d.car.ev m (d.num * 32 + l) = true ∧
      s.onlyIn t (.sti :: behind d.car)) ∧
    ((s.die d).clk = true → (s.lane d m l).st = .hunt → (s.lane d m l).retr = false →
      ∃ t, exec (.laneLockTimeout d m l) s = .next t ∧ (t.lane d m l).st = .failed ∧
      (t.lane d m l).carries = (s.lane d m l).carries ∧ t.stands 0x0201 d.car.ev m (d.num * 32 + l) = true ∧
      s.onlyIn t (.sti :: behind d.car)) ∧
    (∃ t, exec (.forwardedClockLost d m) s = .next t ∧ (∀ k : Fin 18, (t.lane d m k).st ≠ .locked) ∧
      (t.smod d m).deg = true ∧ s.onlyIn t (.sti :: behind d.car)) ∧
    (∃ t, exec (.retrain d m) s = .next t ∧ (∀ k : Fin 18, (t.lane d m k).st =
        (if (s.lane d m k).st = .failed then .hunt else (s.lane d m k).st)) ∧ s.onlyIn t (.sti :: behind d.car))

/-- R58, R59, R62: a good darn request moves the logical lane of the lane it names onto the spare at the sending end,
where an extra marker is due, again when the request is repeated (the model's choice, log 39); once the LOCKED spare's marker names the logical lane, the spare carries it, the darning is
over and lane-darned stands; the first retry repeats the request on the sideband while no marker of the spare's has been
seen; the timeout ends the darning (the model's choice, log 39) and degrades the module. -/
def Obligations.StitchDarning : Prop :=
  ∀ (s : State) (d : Die) (m : Fin 26) (k : Darn), s.sys.held = false →
    (∀ (msg : BitVec 64) (n : Fin 16), sbGood msg = true → sbByte msg 0 = 1 → sbByte msg 1 = m.val →
      (sbByte msg 3 = 16 ∨ sbByte msg 3 = 17) →
      (sbByte msg 2 = n.val ∨ 16 ≤ sbByte msg 2 ∧ (s.smod d m).sends (sbByte msg 2) = some n.val) →
      ∃ t, exec (.darnRequest d m msg) s = .next t ∧ aget (t.smod d m).sendOn n = some (sbByte msg 3) ∧
      (t.send d m (sbByte msg 3)).extra = true ∧ s.onlyIn t [.sti]) ∧
    (∀ p : Fin 18, (s.smod d m).darns.find? (·.spare == p.val) = some k → (s.lane d m p).st = .locked →
      (s.lane d m p).markL = some k.logical →
      ∃ t, exec (.darnComplete d m p) s = .next t ∧ (t.lane d m p).carries = some k.logical ∧
      (k.fromL ≠ p → (t.lane d m k.fromL).carries = none) ∧
      k ∉ (t.smod d m).darns ∧ t.stands 0x0202 d.car.ev m (d.num * 32 + k.logical) = true ∧
      s.onlyIn t (.sti :: behind d.car)) ∧
    (∀ n : Fin 16, (s.smod d m).darns.find? (·.logical == n.val) = some k →
      (k.sends = 1 → (s.lane d m k.spare).markL = none → ∃ t, exec (.darnRetry d m n) s = .next t ∧
        t.io.out = .sideband d m (sbMsg 1 m k.fromL k.spare 0) :: s.io.out ∧
        { k with sends := 2 } ∈ (t.smod d m).darns ∧ s.onlyIn t [.sti, .records]) ∧
      ((s.lane d m k.spare).markL.isSome = true → exec (.darnRetry d m n) s = .next s) ∧
      ∃ t, exec (.darnTimeout d m n) s = .next t ∧ k ∉ (t.smod d m).darns ∧ (t.smod d m).deg = true ∧
      s.onlyIn t (.sti :: behind d.car))

/-- R57, R65, R46: a sideband message counts in the run of good or of bad CRCs and breaks the other; a good test-control
message sets the lane's setting at the converter-die end, where a transmit die's checker obeys it, or the module's TEST
there (lane 31: the model's choice, log 39); eight good messages lock the sideband and clear its defect, four bad ones lose
it and raise it. -/
def Obligations.StitchSideband : Prop :=
  ∀ (s : State) (d : Die) (m : Fin 26) (msg : BitVec 64), s.sys.held = false →
    (∃ t, exec (.sidebandKeepAlive d m msg) s = .next t ∧
      (sbGood msg = true → (t.smod d m).sbGood = (s.smod d m).sbGood + 1 ∧ (t.smod d m).sbBad = 0) ∧
      (sbGood msg = false → (t.smod d m).sbGood = 0 ∧ (t.smod d m).sbBad = (s.smod d m).sbBad + 1) ∧
      (∀ e n, (e, n) ≠ (d, m.val) → t.smod e n = s.smod e n) ∧ s.onlyIn t [.sti]) ∧
    (sbGood msg = true → sbByte msg 0 = 2 → sbByte msg 1 = m.val →
      ∃ t, exec (.sidebandTestControl d m msg) s = .next t ∧
      (sbByte msg 4 ≠ 31 → (t.send d m (sbByte msg 4)).ctl = msg.toNat / 256 % 65536 ∧
        (d.isRx = false → t.recvCtl d m (sbByte msg 4) = msg.toNat / 256 % 65536) ∧
        (d.isRx = true → t.sendCtl d m (sbByte msg 4) = msg.toNat / 256 % 65536)) ∧
      (sbByte msg 4 = 31 → (t.smod d m).farTest = bit (msg.toNat / 256) 0) ∧
      (∀ e n, (e, n) ≠ (d, m.val) → t.smod e n = s.smod e n) ∧ s.onlyIn t [.sti]) ∧
    (8 ≤ (s.smod d m).sbGood → (s.smod d m).sbLock = false →
      ∃ t, exec (.sidebandLocked d m) s = .next t ∧ (t.smod d m).sbLock = true ∧
      t.stands 0x0203 d.car.ev m d.num = false ∧ s.onlyIn t (.sti :: defParts)) ∧
    (4 ≤ (s.smod d m).sbBad → (s.smod d m).sbLock = true →
      ∃ t, exec (.sidebandLost d m) s = .next t ∧ (t.smod d m).sbLock = false ∧
      t.stands 0x0203 d.car.ev m d.num = true ∧ s.onlyIn t (.sti :: defParts))

/-- R67, R68, R70: TEST puts a module under test, degraded while it is; GEN_EN and CHK_EN become 1 only on a free spare
or a module under test, and 0 always; each setting goes to the far end over the sideband (R46); an injection at the lane's
sending end flips the generator's next bit, and a single one clears INJ_MODE; at the receiving end 1,024 error-free bits bring the checker into sync and 256 errors
in 1,024 bits take it out. -/
def Obligations.StitchLaneTests : Prop :=
  ∀ (s : State) (d : Die) (m : Fin 26) (l : Fin 18), s.sys.held = false →
    (∃ t, exec (.modTestWrite d m true) s = .next t ∧ (t.smod d m).test = true ∧ (t.smod d m).deg = true ∧
      .sideband d m (sbMsg 2 m 0 0 (31 * 65536 + 1)) ∈ t.io.out ∧ s.onlyIn t (.sti :: behind d.car)) ∧
    (∃ t, exec (.modTestWrite d m false) s = .next t ∧ (t.smod d m).test = false ∧
      .sideband d m (sbMsg 2 m 0 0 (31 * 65536)) ∈ t.io.out ∧ s.onlyIn t (.sti :: behind d.car)) ∧
    (∀ gen chk : Bool, ∃ t, exec (.laneTestEnable d m l gen chk) s = .next t ∧
      t.cf F.STI_LANE_CTL_GEN_EN (laneIdx d m l) =
        (if gen = true ∧ s.testAllowed d m l = false then s.cf F.STI_LANE_CTL_GEN_EN (laneIdx d m l) else b2n gen) ∧
      t.cf F.STI_LANE_CTL_CHK_EN (laneIdx d m l) =
        (if chk = true ∧ s.testAllowed d m l = false then s.cf F.STI_LANE_CTL_CHK_EN (laneIdx d m l) else b2n chk) ∧
      t.io.out = .sideband d m (sbMsg 2 m 0 0 (l * 65536 + bits (t.rd ⟨.STI_LANE_CTL, laneIdx d m l⟩) 15 0)) ::
        s.io.out ∧ s.onlyIn t [.sti, .regs, .records]) ∧
    (bit (s.sendCtl d m l) 0 = true → s.sendCtl d m l / 256 % 4 = 1 →
      ∃ t, exec (.injectSingle d m l) s = .next t ∧ t.cf F.STI_LANE_CTL_INJ_MODE (laneIdx d m l) = 0 ∧
      t.sendCtl d m l / 256 % 4 = 0 ∧ (t.send d m l).flip = true ∧ s.onlyIn t [.sti, .regs]) ∧
    (bit (s.sendCtl d m l) 0 = true → s.sendCtl d m l / 256 % 4 = 2 →
      10 ≤ s.sendCtl d m l / 1024 % 64 → s.sendCtl d m l / 1024 % 64 ≤ 40 →
      ∃ t, exec (.injectRateTick d m l) s = .next t ∧
      (t.send d m l).flip = true ∧ s.onlyIn t [.sti]) ∧
    (bit (s.recvCtl d m l) 1 = true → (s.lane d m l).sync = false → 1024 ≤ (s.lane d m l).crun →
      ∃ t, exec (.prbsSync d m l) s = .next t ∧ (t.lane d m l).sync = true ∧ s.onlyIn t [.sti]) ∧
    (bit (s.recvCtl d m l) 1 = true → (s.lane d m l).sync = true → 256 ≤ (s.lane d m l).perr →
      ∃ t, exec (.prbsSyncLoss d m l) s = .next t ∧ (t.lane d m l).sync = false ∧ (t.lane d m l).crun = 0 ∧
      s.onlyIn t [.sti])

/-- R42, R44, R72: a converter die's clock locks and unlocks; the unlocked-clock defect stands from the unlock on, and
clears after lock held; a faulty path whose causes are gone on an aligned link is fault-free after its hold. -/
def Obligations.ConverterClocksAndPaths : Prop :=
  ∀ (s : State) (d : Die), s.sys.held = false →
    (∃ t, exec (.sampleClockLock d) s = .next t ∧ (t.die d).clk = true ∧ s.onlyIn t (.sti :: behind d.car)) ∧
    ((s.die d).clk = true → ∃ t, exec (.sampleClockUnlock d) s = .next t ∧ (t.die d).clk = false ∧
      (t.die d).fault = true ∧ t.stands 0x0205 d.car.ev 0 d.num = true ∧
      s.onlyIn t (.sti :: .fe d.car :: behind d.car)) ∧
    ((s.die d).fault = true → s.pathCause d = false → (s.die d).aligned = true →
      ∃ t, exec (.pathFaultClear d) s = .next t ∧ (t.die d).fault = false ∧
      t.stands 0x0206 d.car.ev 0 d.num = false ∧ s.onlyIn t (.sti :: behind d.car)) ∧
    ((s.die d).clk = true → ∃ t, exec (.sampleClockLockHeld d) s = .next t ∧
      t.stands 0x0205 d.car.ev 0 d.num = false ∧ s.onlyIn t defParts)

/-- R48, R49, R51, R53, R54, R60, R64: in each block period a lane's receiving end takes a block and its sending end sends
one. In HUNT an invalid header ends the run, moves the search position and counts; a valid one extends the run, held at
64. In LOCKED the header's validity enters the window of the last 64, an invalid header counts, and a data block brings its
descrambled word into the alignment buffer of its logical lane, with its number in that lane's order; a lane that is not
available brings it erased. What the buffer of 16 blocks pushes out is delivered, erased while the module is degraded, and
counted when it is erased. Each 4,096th block that a lane sends is a marker with the next count; an extra marker has the
last count (the model's choice, log 39); else it sends a word that is ready. A receive die whose clock is unlocked sends idle
blocks only. -/
def Obligations.StitchBlocks : Prop :=
  ∀ (s : State) (d : Die) (m : Fin 26) (l : Fin 18) (hdr : BitVec 2) (p : BitVec 256) (adc : Option (BitVec 256)),
    s.sys.held = false →
    ∃ t, exec (.stitchBlockReceived d m l hdr p adc) s = .next t ∧ (t.lane d m l).st = (s.lane d m l).st ∧
    ((s.lane d m l).st = .hunt →
      ((hdr = 0 ∨ hdr = 3) → (t.lane d m l).run = 0 ∧ (t.lane d m l).pos = ((s.lane d m l).pos + 1) % 258) ∧
      ((hdr = 1 ∨ hdr = 2) → (t.lane d m l).run = min 64 ((s.lane d m l).run + 1) ∧
        (t.lane d m l).pos = (s.lane d m l).pos)) ∧
    ((hdr = 0 ∨ hdr = 3) →
      t.cnt .STI_LANE_HDR_ERR (laneIdx d m l) = min 0xFFFFFFFF (s.cnt .STI_LANE_HDR_ERR (laneIdx d m l) + 1)) ∧
    (hdr = 1 → t.cnt .STI_LANE_HDR_ERR (laneIdx d m l) = s.cnt .STI_LANE_HDR_ERR (laneIdx d m l)) ∧
    ((s.lane d m l).st = .locked → (t.lane d m l).win = ((hdr == 0 || hdr == 3) :: (s.lane d m l).win).take 64) ∧
    (∀ (n : Fin 16) (e : Nat × Option (BitVec 256)), (s.lane d m l).carries = some n.val → hdr = 1 →
      (s.die d).clk = true →
      ((s.lane d m l).st = .locked ∧ (s.lane d m l).idle = false ∧
          e = (agetD s.sti.rxn (d, 16 * m + n) 0, some (descramble (s.lane d m l).scr p)) ∨
        (s.lane d m l).st = .failed ∧ e = (agetD s.sti.rxn (d, 16 * m + n) 0, none)) →
      agetD t.sti.rxn (d, 16 * m + n) 0 = e.1 + 1 ∧
      agetD t.sti.buf (d, 16 * m + n) [] = (some e :: agetD s.sti.buf (d, 16 * m + n) []).take 16 ∧
      (∀ j w, (agetD s.sti.buf (d, 16 * m + n) []).drop 15 = [some (j, w)] →
        ((w.isNone = true ∨ (s.smod d m).deg = true) →
          t.cnt .STI_ERASED d.num = min 0xFFFFFFFF (s.cnt .STI_ERASED d.num + 1)) ∧
        ((w.isSome = true ∧ (s.smod d m).deg = false) → t.cnt .STI_ERASED d.num = s.cnt .STI_ERASED d.num) ∧
        (d.isRx = true → aget (t.car d.car).fe.inq (wordNo (16 * m + n) j) =
          some (if (s.smod d m).deg = true then none else w)) ∧
        (d.isRx = false → (s.car d.car).tx.st ≠ .forced →
          .dac d (j % 4) (if (s.smod d m).deg = true then 0 else w.getD 0) ∈ t.io.out))) ∧
    (t.send d m l).sent = ((s.send d m l).sent + 1) % 4096 ∧
    (hdr ≠ 2 ∨ blkByte (descramble (s.lane d m l).scr p) 0 ≠ 0x4D → bit (s.sendCtl d m l) 0 = false →
      (d.isRx = true → (s.die d).clk = false → t.io.out.head? = some (.stitch d m l 2
        (BitVec.ofNat 256 (scrambleBits (ctlBlock 0 0 0 0 0) 256 (s.send d m l).scr).2))) ∧
      ((d.isRx = false ∨ (s.die d).clk = true) →
        ((s.send d m l).sent = 0 → t.io.out.head? = some (.stitch d m l 2
          (BitVec.ofNat 256 (scrambleBits (ctlBlock 0x4D m (((s.smod d m).sends l).getD 0xFF) l (s.send d m l).count) 256
            (s.send d m l).scr).2)) ∧ (t.send d m l).count = ((s.send d m l).count + 1) % 2 ^ 32) ∧
        ((s.send d m l).sent ≠ 0 → (s.send d m l).extra = true → t.io.out.head? = some (.stitch d m l 2
          (BitVec.ofNat 256 (scrambleBits (ctlBlock 0x4D m (((s.smod d m).sends l).getD 0xFF) l
            ((s.send d m l).count + 2 ^ 32 - 1)) 256 (s.send d m l).scr).2)) ∧ (t.send d m l).extra = false) ∧
        ∀ (n : Fin 16) (w : BitVec 256) (r : List (BitVec 256)), (s.send d m l).sent ≠ 0 → (s.send d m l).extra = false →
          (s.smod d m).sends l = some n.val →
          (if d.isRx = true then agetD s.sti.words (d, 16 * m + n) []
            else agetD (s.car d.car).tx.words (16 * m + n) []) = w :: r →
          t.io.out.head? = some (.stitch d m l 1 (BitVec.ofNat 256 (scrambleBits w 256 (s.send d m l).scr).2)))) ∧
    s.onlyIn t (.sti :: .fe d.car :: behind d.car)

/-- R50, R52, R55, R59: a marker that a LOCKED lane passes sets the lane's count and, where it is the lane's own, what it says
of the logical lane; with no darning under way the lane's place starts anew there. Where every other lane of the module
that carries traffic is LOCKED and passed the marker of this count within 8 blocks, the module's lanes are aligned on it.
Such a block brings no word. -/
def Obligations.StitchMarkers : Prop :=
  ∀ (s : State) (d : Die) (m : Fin 26) (l : Fin 18) (p : BitVec 256) (adc : Option (BitVec 256)) (count : Nat),
    s.sys.held = false → (s.lane d m l).st = .locked → blkByte (descramble (s.lane d m l).scr p) 0 = 0x4D →
    count = (descramble (s.lane d m l).scr p).toNat / 256 ^ 24 % 2 ^ 32 →
    ∃ t, exec (.stitchBlockReceived d m l 2 p adc) s = .next t ∧ (t.lane d m l).mark = some count ∧
    (ownMarker (descramble (s.lane d m l).scr p) m l = true →
      (t.lane d m l).markL = some (blkByte (descramble (s.lane d m l).scr p) 2)) ∧
    ((s.smod d m).darns = [] → (t.lane d m l).since = 0 ∧
      ((∀ i : Fin 18, i ≠ l → (s.lane d m i).busy = true → (s.lane d m i).st = .locked ∧
          (s.lane d m i).mark = some count ∧ near 8 ((s.lane d m i).place.getD 0) (count * 4096 % 2 ^ 44) = true) →
        (t.smod d m).common = some count ∧
        ∀ i : Fin 18, (i = l ∨ (s.lane d m i).busy = true) → (t.lane d m i).algn = true)) ∧
    s.onlyIn t (.sti :: .fe d.car :: behind d.car)

/-! ### Dispersion and the Press stages (chapter 03) -/

/-- R84 to R86, R100, R494: the last of the N entries of a regeneration makes the generated table the one in use, without
written entries or poisoned words among them; entries above N stay. In custom mode LOAD_EN 1 stops a running equaliser for a load, and LOAD_EN 0 starts it
on what was loaded. A good TABLE_LOAD stages the 120 words of its filter set for both carriers and leaves the active
ones. -/
def Obligations.DispersionTable : Prop :=
  ∀ (s : State) (x : Carrier), s.sys.held = false →
    ((s.car x).fe.cde = 1 → ∃ t, exec (.tableReady x) s = .next t ∧
      (t.car x).fe = { (s.car x).fe with
        cde := 2, act := (s.car x).fe.genD
        gen := some ((s.car x).fe.genD, s.cfxI F.CAR_CDE_GRID_N x, s.cfx F.CAR_RXC_RATE_KBD x)
        genHi := if blockN (s.cfx F.CAR_RXC_RATE_KBD x) = 65536 then (s.car x).fe.genHi
          else some ((s.car x).fe.genD, s.cfxI F.CAR_CDE_GRID_N x, s.cfx F.CAR_RXC_RATE_KBD x)
        tab := (s.car x).fe.tab.filter fun e => blockN (s.cfx F.CAR_RXC_RATE_KBD x) ≤ e.1 } ∧
      (∀ k, blockN (s.cfx F.CAR_RXC_RATE_KBD x) ≤ k → (t.car x).fe.entry k = (s.car x).fe.entry k) ∧
      (s.cf F.MEM_INJ_ARM 0 = 0 → ∀ w, w < blockN (s.cfx F.CAR_RXC_RATE_KBD x) / 2 → t.poisoned x.num w = false) ∧
      t.mem.windows = s.mem.windows ∧
      s.onlyIn t (.fe x :: .mem :: behind x)) ∧
    (∀ v : Bool, s.cfx F.CAR_CDE_CTL_TABLE_MODE x ≠ 0 → (s.car x).fe.cde ≠ 0 →
      s.cfx F.CAR_CDE_CTL_LOAD_EN x ≠ b2n v → ∃ t, exec (.loadEnWrite x v) s = .next t ∧
      (t.car x).fe = { (s.car x).fe with cde := if v then 3 else 2 } ∧ s.onlyIn t (.fe x :: behind x)) ∧
    (∀ v : Bool, (s.cfx F.CAR_CDE_CTL_TABLE_MODE x = 0 ∨ (s.car x).fe.cde = 0) →
      ∃ t, exec (.loadEnWrite x v) s = .next t ∧ t.cfx F.CAR_CDE_CTL_LOAD_EN x = b2n v ∧ s.onlyIn t [.regs]) ∧
    (∀ (fn : Fn) (r : Nat) (c : ExecCmd), s.running fn r 0x0201 = some c → byteAt c.desc 17 < 4 →
      byteAt c.desc 18 < 7 → leAt c.data 0 2 = 1 → byteAt c.data 2 = byteAt c.desc 17 →
      byteAt c.data 3 = byteAt c.desc 18 →
      ∃ t, exec (.tableLoad fn r) s = .next t ∧ t.ring fn r = (s.finish fn r 0 0).ring fn r ∧ t.rd = s.rd ∧
      (∀ y w, w < 120 → t.stagedWord (filtKey y (byteAt c.desc 17 * 7 + byteAt c.desc 18) w) =
        BitVec.ofNat 32 (leAt c.data (16 + 4 * w) 4)) ∧
      (∀ k, k.reg ≠ .PRESS_FILT → t.stagedWord k = s.stagedWord k) ∧ s.onlyIn t (.regs :: cmdParts))

/-- R77, R88 to R92: an estimate starts on command, on the tracking interval and on loss of lock where SOURCE says so, and
none starts while one runs; its coarse points begin at the committed range or at −D_max, a tracking one's at the dispersion
in use. A valid result, the best point, ends it and clears the failed-estimate defect; with SOURCE 0 nothing is applied, with
SOURCE 1 or 2 a near one sets TARGET and a far one regenerates the table; a tracking result within 4 ps/nm of the dispersion in use
leaves TRIM. A third invalid attempt ends it with the defect, an earlier one is repeated; CDE_EST keeps the last valid
result (the model's choice, log 58). A value inside its range by 1/8 of it clears its front-end limit. -/
def Obligations.BlindEstimation : Prop :=
  ∀ (s : State) (x : Carrier), s.sys.held = false →
    ((s.car x).fe.est = none → ∃ t, exec (.estimate x) s = .next t ∧
      (t.car x).fe = { (s.car x).fe with
        est := some .commanded, tries := 0, estLo := (s.srch x).1, estN := (s.srch x).2 } ∧ s.onlyIn t [.fe x]) ∧
    ((s.car x).fe.est ≠ none → exec (.estimate x) s = .next s) ∧
    (s.cfx F.CAR_CDE_CTL_SOURCE x = 2 → (s.car x).fe.est = none → (s.car x).fe.cde = 2 →
      ∃ t, exec (.trackInterval x) s = .next t ∧
      (t.car x).fe = { (s.car x).fe with
        est := some .tracking, tries := 0, estLo := (s.car x).fe.act + (s.car x).fe.trim, estN := 1 } ∧
      s.onlyIn t [.fe x]) ∧
    ((s.cfx F.CAR_CDE_CTL_SOURCE x = 1 ∨ s.cfx F.CAR_CDE_CTL_SOURCE x = 2) → (s.car x).rxc.st ≠ .locked →
      s.stands 0x0401 x.ev 0 = true → s.cfx F.CAR_RXC_CTL_RX_EN x = 1 → (s.car x).fe.est ≠ some .acquisition →
      ∃ t, exec (.acquisitionTimeout x) s = .next t ∧
      (t.car x).fe = { (s.car x).fe with
        est := some .acquisition, tries := 0, estLo := (s.srch x).1, estN := (s.srch x).2 } ∧ s.onlyIn t [.fe x]) ∧
    (∀ (i : Nat) (j : Fin 161) (q : Fin 256) (k : EstKind), (s.car x).fe.est = some k →
      (s.car x).fe.estCut ≠ some s.sys.dtime →
      (96 ≤ q.val → ∃ t, exec (.estimateDone x i j q) s = .next t ∧ (t.car x).fe.est = none ∧
        (t.car x).fe.estD = (s.car x).fe.estPoint i j ∧ (t.car x).fe.conf = q.val ∧ (t.car x).fe.valid = true ∧
        t.stands 0x0304 x.ev 0 = false ∧
        (s.cfx F.CAR_CDE_CTL_SOURCE x = 0 → (t.car x).fe = { (s.car x).fe with
          est := none, tries := 0, estD := (s.car x).fe.estPoint i j, conf := q.val, valid := true }) ∧
        (k = .tracking → ((s.car x).fe.estPoint i j - ((s.car x).fe.act + (s.car x).fe.trim)).natAbs < 5 →
          (t.car x).fe = { (s.car x).fe with
            est := none, tries := 0, estD := (s.car x).fe.estPoint i j, conf := q.val, valid := true } ∧
          t.rd = s.rd) ∧
        (k ≠ .tracking → s.cfx F.CAR_CDE_CTL_SOURCE x ≠ 0 → (t.car x).fe.inUse = true ∧
          (((s.car x).fe.estPoint i j - (s.car x).fe.act).natAbs ≤ 400 → (s.car x).fe.tgtAt ≠ some s.sys.dtime →
            t.cfxI F.CAR_CDE_TRIM_TARGET x = (s.car x).fe.estPoint i j - (s.car x).fe.act) ∧
          (400 < ((s.car x).fe.estPoint i j - (s.car x).fe.act).natAbs → s.cfx F.CAR_CDE_CTL_TABLE_MODE x = 0 →
            (t.car x).fe.cde = 1 ∧ (t.car x).fe.genD = (s.car x).fe.estPoint i j ∧ (t.car x).fe.trim = 0)) ∧
        s.onlyIn t (.fe x :: behind x)) ∧
      (q.val < 96 → ∃ t, exec (.estimateDone x i j q) s = .next t ∧ (t.car x).fe.valid = false ∧
        (t.car x).fe.estD = (s.car x).fe.estD ∧
        (2 ≤ (s.car x).fe.tries → (t.car x).fe.est = none ∧ t.stands 0x0304 x.ev 0 = true) ∧
        ((s.car x).fe.tries < 2 → (t.car x).fe = { (s.car x).fe with
          tries := (s.car x).fe.tries + 1, conf := q.val, valid := false }) ∧ s.onlyIn t (.fe x :: defParts))) ∧
    (∀ w : Fin 6, w.val < 4 → -1535 ≤ s.cfxI F.CAR_FE_DC_VALUE x w → s.cfxI F.CAR_FE_DC_VALUE x w ≤ 1535 →
      ∃ t, exec (.feLimitClear x w) s = .next t ∧ t.stands 0x0301 x.ev w = false ∧ s.onlyIn t defParts)

/-- R104 to R106, R109: with WINDOW intervals measured on each side of the boundary, the guard comparison that finds a drop
of the mean above DROP puts the previous set back and counts, and on
the third in a row stops following; one that finds none ends the run. A gain comparison raises or clears no-gain. ξ moves
by one step in its direction, turned when the SNR fell, within its limits. An engine's takeover of a step ends its wait. -/
def Obligations.PressAdaptation : Prop :=
  ∀ (s : State) (x : Carrier), s.sys.held = false →
    (∀ (w : Nat) (b a : Int), (s.car x).fe.compared .guard = some (w, b, a) →
      (pinch (s.cfx F.CAR_PRESS_GUARD_DROP x) * w < b - a →
        ∃ t, exec (.pressGuardCompare x) s = .next t ∧ (t.car x).fe.cmp = none ∧
        (t.car x).fe.waitSet = some (s.car x).fe.prevSet ∧ (t.car x).fe.restore = true ∧
        (t.car x).fe.reverts = ((s.car x).fe.reverts + 1) % 256 ∧
        (2 ≤ (s.car x).fe.reverts → (t.car x).fe.followStop = true ∧ t.stands 0x0309 x.ev 0 = true) ∧
        s.onlyIn t (.fe x :: defParts)) ∧
      (b - a ≤ pinch (s.cfx F.CAR_PRESS_GUARD_DROP x) * w →
        ∃ t, exec (.pressGuardCompare x) s = .next t ∧
        (t.car x).fe = { (s.car x).fe with cmp := none, lastDelta := pinchCode (roundDiv (a - b) w), reverts := 0 } ∧
        s.onlyIn t [.fe x])) ∧
    (∀ (w : Nat) (b a : Int), (s.car x).fe.compared .gain = some (w, b, a) →
      ∃ t, exec (.pressGainCompare x) s = .next t ∧
      (t.car x).fe = { (s.car x).fe with
        cmp := none, lastDelta := pinchCode (roundDiv (a - b) w), noGain := decide (a < b)
        autoOff := (s.car x).fe.autoOff || (decide (a < b) && s.cfx F.CAR_PRESS_CTL_AUTO_OFF x == 1) } ∧
      t.stands 0x030A x.ev 0 = decide (a < b) ∧ s.onlyIn t (.fe x :: defParts)) ∧
    (∀ n : Nat, s.cfx F.CAR_PRESS_CTL_ADAPT x ≠ 0 → s.activeSteps x ≠ [] → isMeas n = true →
      isMeas (s.car x).fe.xiSnr = true → ∃ t, exec (.xiAdapt x n) s = .next t ∧
      (t.car x).fe.xiSnr = n ∧
      (t.car x).fe.xiUp = (if pinch n < pinch (s.car x).fe.xiSnr then !(s.car x).fe.xiUp else (s.car x).fe.xiUp) ∧
      (t.cfx F.CAR_PRESS_XI_XI x : Int) = clampI 0x2000 0x6000 ((s.cfx F.CAR_PRESS_XI_XI x : Int) +
        (if (t.car x).fe.xiUp then 256 else -256)) ∧
      s.onlyIn t (.fe x :: .regs :: defParts)) ∧
    (∀ k : Nat, ∃ t, exec (.engineTakeover x k) s = .next t ∧
      (t.car x).fe = { (s.car x).fe with takeover := (s.car x).fe.takeover.filter (· ≠ k) } ∧ s.onlyIn t [.fe x])

/-! ### Receive core and captures (chapter 04) -/

/-- R131, R134, R141, R152, R161: an alignment detection one symbol frame after an earlier one, at the same or the next
hypothesis, takes a receive core in HUNT to TRAIN; another is kept for its pair. 16 good frames take TRAIN to LOCKED and end
loss of lock; 4,096 frames without them end in HUNT. Eight missed alignment blocks, 64 frames of low pilot SNR, or an offset
outside its range take LOCKED to HUNT: loss of lock stands, the aligner idles, at once or after its decoder's flush, and its
framer hunts. The other carrier stays. -/
def Obligations.ReceiveLock : Prop :=
  ∀ (s : State) (x : Carrier), s.sys.held = false →
    (∀ (n : Nat) (h : Int), (s.car x).rxc.st = .hunt → h.natAbs ≤ 12 → s.alignSeen x n h = true →
      ((s.car x).rxc.det.any (detPair n h) = true →
        ∃ t, exec (.alignmentDetection x n h) s = .next t ∧ (t.car x).rxc.st = .train ∧
        (t.car x).rxc.freq = h * 250000 ∧ (t.car x).rxc.inTrain = 0 ∧ t.stands 0x0402 x.ev 0 = false ∧
        (s.cfx F.CAR_RXC_CTL_EQ_MODE x = 0 → (t.car x).rxc.taps =
          tapsReset (2 ^ s.cfx F.CAR_RXC_CTL_SC_LOG2 x) (s.cfx F.CAR_RXC_CTL_TAPS x)) ∧
        s.onlyIn t (.rxc x :: defParts)) ∧
      ((s.car x).rxc.det.any (detPair n h) = false →
        ∃ t, exec (.alignmentDetection x n h) s = .next t ∧ (t.car x).rxc.st = .hunt ∧
        (n, h) ∈ (t.car x).rxc.det ∧ (∀ d ∈ (s.car x).rxc.det, n ≤ d.1 + 81921 → d ∈ (t.car x).rxc.det) ∧
        s.onlyIn t [.rxc x])) ∧
    (s.cfx F.CAR_RXC_CTL_RX_EN x ≠ 0 → s.rxValid x = true →
      ((s.car x).rxc.st = .train → s.cfx F.CAR_RXC_THR_LOCK_SNR x ≠ 0x8000 → 16 ≤ (s.car x).rxc.good →
        ∃ t, exec (.lockAcquired x) s = .next t ∧ (t.car x).rxc.st = .locked ∧
        t.stands 0x0401 x.ev 0 = false ∧
        (t.car x).fec.st = (if (s.car x).fec.st = .idle then .hunt else (s.car x).fec.st) ∧
        s.onlyIn t (behind x)) ∧
      ((s.car x).rxc.st = .train → 4096 ≤ (s.car x).rxc.inTrain →
        ∃ t, exec (.trainingTimeout x) s = .next t ∧ (t.car x).rxc.st = .hunt ∧ (t.car x).rxc.inHunt = 0 ∧
        s.onlyIn t (behind x)) ∧
      ((s.car x).rxc.st = .locked →
        ∀ c : Instr, (c = .alignmentMissedLoss x ∧ 8 ≤ (s.car x).rxc.missed) ∨
          (c = .pilotSnrLoss x ∧ 64 ≤ (s.car x).rxc.low ∧ s.cfx F.CAR_RXC_THR_LOCK_SNR x ≠ 0x8000) ∨
          (c = .offsetLoss x ∧ (3500000 < (s.car x).rxc.freq.natAbs ∨ 200000 < (s.car x).rxc.clk.natAbs)) →
        ∃ t, exec c s = .next t ∧ (t.car x).rxc.st = .hunt ∧ t.stands 0x0401 x.ev 0 = true ∧
        ((s.car x).fec.st ≠ .locked → (t.car x).fec.st = .idle) ∧
        ((s.car x).fec.st = .locked → (s.car x).fec.win = [] → (s.car x).fec.llrs = [] →
          (t.car x).fec.st = .idle ∧ (t.car x).tr.st = .hunt) ∧
        ((s.car x).fec.st = .locked → (s.car x).fec.win ≠ [] →
          (t.car x).fec.st = .locked ∧ (t.car x).fec.flush = some false) ∧ s.onlyIn t (behind x)))

/-- R133, R142, R143, R145, R152: 65,536 frames in HUNT raise no-alignment; a phase slip counts in TRAIN and LOCKED and puts
the phase to the pilot's; a clock offset or an outer-tap share beyond its limit raises its defect and one well inside
clears it. A window wholly in LOCKED gives the SNR of each subcarrier and their mean, another window the no-measurement
codes; an interval of 10 ms likewise, and it enters a running Press comparison, which one without a value ends. -/
def Obligations.ReceiveQuality : Prop :=
  ∀ (s : State) (x : Carrier), s.sys.held = false →
    ((s.car x).rxc.st = .hunt → 65536 ≤ (s.car x).rxc.inHunt → ∃ t, exec (.noAlignmentFound x) s = .next t ∧
      t.stands 0x0402 x.ev 0 = true ∧ s.onlyIn t defParts) ∧
    ((s.car x).rxc.st = .train ∨ (s.car x).rxc.st = .locked → ∀ (i : Fin 16) (p : Bool) (q : Fin 4),
      ∃ t, exec (.phaseSlip x i p q) s = .next t ∧
      t.cnt .CAR_RXC_SLIP (carIdx .CAR_RXC_SLIP x 0) =
        min 0xFFFFFFFF (s.cnt .CAR_RXC_SLIP (carIdx .CAR_RXC_SLIP x 0) + 1) ∧
      (t.car x).rxc.phase[i.val]? = some (
        let z := (s.car x).rxc.phase.getD i.val ((fone, 0), (fone, 0))
        if p then (z.1, cmul z.2 (cturn q.val 4)) else (cmul z.1 (cturn q.val 4), z.2)) ∧
      (t.car x).rxc = { (s.car x).rxc with phase := (t.car x).rxc.phase } ∧ s.onlyIn t [.counters, .rxc x]) ∧
    ((s.car x).rxc.st = .locked →
      ∃ t, exec (.clockOffsetDefect x) s = .next t ∧
        (100000 < (s.car x).rxc.clk.natAbs → t.stands 0x0404 x.ev 0 = true) ∧
        ((s.car x).rxc.clk.natAbs ≤ 90000 → t.stands 0x0404 x.ev 0 = false) ∧
        (90000 < (s.car x).rxc.clk.natAbs → (s.car x).rxc.clk.natAbs ≤ 100000 →
          t.stands 0x0404 x.ev 0 = s.stands 0x0404 x.ev 0) ∧ s.onlyIn t defParts) ∧
    (∀ a b : Nat, ∃ t, exec (.outerTapsDefect x (some (a, b))) s = .next t ∧
      (b < 16 * a → t.stands 0x0406 x.ev 0 = true) ∧ (b ≥ 16 * a → 32 * a < b → t.stands 0x0406 x.ev 0 = false) ∧
      s.onlyIn t defParts) ∧
    (∃ t, exec (.outerTapsDefect x none) s = .next t ∧
      exec (.outerTapsDefect x (some (outerShare (s.car x).rxc.taps))) s = .next t) ∧
    (∀ (o : Option (List (Nat × Nat × Nat × Nat))) (m : List (Nat × Nat × Nat × Nat)),
      m = o.getD ((s.car x).rxc.sums.map scMeas) → ∃ t, exec (.snrWindowEnd x o) s = .next t ∧
      ((s.car x).rxc.st = .locked → (s.car x).rxc.winOk = true → m.length = 2 ^ s.cfx F.CAR_RXC_CTL_SC_LOG2 x →
        (t.car x).rxc.snr = m.map snrWord ∧ (t.car x).rxc.mean = meanPinch m ∧ (t.car x).rxc.min = minPinch m) ∧
      (((s.car x).rxc.st ≠ .locked ∨ (s.car x).rxc.winOk = false) →
        (t.car x).rxc.snr = [] ∧ (t.car x).rxc.mean = 0x8000 ∧ (t.car x).rxc.min = 0x8000 ∧
        t.io.defects = s.io.defects) ∧
      (t.car x).rxc.winOk = decide ((s.car x).rxc.st = .locked) ∧ s.onlyIn t (.rxc x :: defParts)) ∧
    (∀ (o : Option (List (Nat × Nat × Nat × Nat))) (m : List (Nat × Nat × Nat × Nat)),
      m = o.getD ((s.car x).rxc.sums10.map scMeas) → ∃ t, exec (.meanSnrInterval x o) s = .next t ∧
      ((s.car x).rxc.st = .locked → (s.car x).rxc.mean10ok = true → m.length = 2 ^ s.cfx F.CAR_RXC_CTL_SC_LOG2 x →
        (t.car x).rxc.mean10.head? = some (meanPinch m) ∧
        (t.car x).fe.cmp = (s.car x).fe.cmp.bind fun r => r.take (meanPinch m)) ∧
      (((s.car x).rxc.st ≠ .locked ∨ (s.car x).rxc.mean10ok = false ∨ m.length ≠ 2 ^ s.cfx F.CAR_RXC_CTL_SC_LOG2 x) →
        (t.car x).rxc.mean10.head? = some 0x8000 ∧
        (t.car x).fe.cmp = (s.car x).fe.cmp.bind fun r => r.take 0x8000) ∧
      s.onlyIn t [.rxc x, .fe x])

/-- R146 to R149, R494, R495: CAPTURE on a free carrier with a READY region no user names arms, or with trigger 0 fills at
once, with what its descriptor asks for; a second is refused as busy. A trigger starts the fill of an armed capture whose
count or event it is. CAPTURE_STOP ends an armed capture and marks a filling one. -/
def Obligations.CaptureControl : Prop :=
  ∀ (s : State) (x : Carrier), s.sys.held = false →
    (∀ (fn : Fn) (r : Nat) (c : ExecCmd), s.running fn r 0x0301 = some c → carOf (byteAt c.desc 16) = x →
      ((s.car x).rxc.cap.isSome = true → exec (.capture fn r) s = .next (s.finish fn r 2 0)) ∧
      ((s.car x).rxc.cap = none → s.sys.shed.contains .aux = false → s.capRegion (byteAt c.desc 25) = true →
        capReady (s.car x).rxc (byteAt c.desc 17) = true ∨ byteAt c.desc 24 ≠ 0 →
        ∃ t k, exec (.capture fn r) s = .next t ∧ (t.car x).rxc.cap = some k ∧
        k.st = (if byteAt c.desc 24 = 0 then .filling else .armed) ∧ k.source = byteAt c.desc 17 ∧
        k.count = leAt c.desc 20 4 ∧ k.trigger = byteAt c.desc 24 ∧ k.region = byteAt c.desc 25 ∧
        k.offset = leAt c.desc 36 8 ∧ (byteAt c.desc 24 = 0 → k.dtime = s.sys.dtime) ∧
        t.ring fn r = (s.finish fn r 0 0).ring fn r ∧ s.onlyIn t (.rxc x :: cmdParts))) ∧
    (∀ (k : Capture) (code : Nat), (s.car x).rxc.cap = some k → k.st = .armed →
      (k.trigger = 1 ∧ k.sfc ≤ (s.car x).rxc.sfc ∨ k.trigger ≠ 1 ∧ k.event = code) →
      capReady (s.car x).rxc k.source = true →
      ∃ t q, exec (.captureTrigger x code) s = .next t ∧ (t.car x).rxc.cap = some q ∧ q.st = .filling ∧
      q.dtime = s.sys.dtime ∧ q.sfcFirst = (s.car x).rxc.sfc ∧ q.count = k.count ∧ s.onlyIn t [.rxc x]) ∧
    (∀ (fn : Fn) (r : Nat) (c : ExecCmd) (k : Capture), s.running fn r 0x0302 = some c →
      carOf (byteAt c.desc 16) = x → (s.car x).rxc.cap = some k →
      ∃ t, exec (.captureStop fn r) s = .next t ∧
      (k.st = .armed → (t.car x).rxc.cap = none ∧ t.ring fn r = (s.finish fn r 0 0).ring fn r) ∧
      (k.st = .filling → (t.car x).rxc.cap = some { k with flags := k.flags ||| 8 }) ∧
      (k.st = .draining → t = s.finish fn r 10 0) ∧ s.onlyIn t (.rxc x :: cmdParts))

/-- R148 to R151: the end of a fill stores the entries from the start of the carrier's capture buffer in the layout of its
source, and leaves every other byte of the windows: the taps or the entries taken from the machine's own signals, else those
that the row tells; the drain writes the entries to the region, those of poisoned words as
zeros, and the header, which counts these, and ends the capture; a region no longer READY fails it. -/
def Obligations.CaptureDrain : Prop :=
  ∀ (s : State) (x : Carrier) (k : Capture), s.sys.held = false → (s.car x).rxc.cap = some k →
    (∀ (l : List CapEnt) (n : Nat), k.st = .filling → k.source ≠ 3 → k.snap = true → k.got = [] →
      l.all (·.fits k.source) = true → l.length = k.count → s.cellsOk →
      ∃ t, exec (.captureFillEnd x n l) s = .next t ∧
      (∃ q, (t.car x).rxc.cap = some q ∧ q.st = .draining ∧ q.taken = l.length ∧ q.region = k.region ∧
        (k.source = 2 → q.startSym = n)) ∧
      (∀ i, i < 8 * l.length → cellsGet t.mem.windows (capBase x + i) = ((l.flatMap CapEnt.bytes).getD i 0)) ∧
      (∀ a, a < capBase x ∨ capBase x + 8 * l.length ≤ a →
        cellsGet t.mem.windows a = cellsGet s.mem.windows a) ∧
      (s.cf F.MEM_INJ_ARM 0 = 0 → ∀ w, w < l.length → t.poisoned (capMem x) w = false) ∧
      s.onlyIn t [.rxc x, .mem, .regs, .records, .counters, .defects]) ∧
    (∀ (l : List CapEnt) (n : Nat), k.st = .filling → k.snap = true →
      (k.source = 3 ∨ k.got ≠ [] ∧ k.got.length = capEntry k.source * k.count) → s.cellsOk →
      ∃ t, exec (.captureFillEnd x n l) s = .next t ∧
      (∃ q, (t.car x).rxc.cap = some q ∧ q.st = .draining ∧ q.taken = k.got.length / capEntry k.source ∧
        q.startSym = 0) ∧
      (∀ i, i < k.got.length → cellsGet t.mem.windows (capBase x + i) = k.got.getD i 0) ∧
      (∀ a, a < capBase x ∨ capBase x + k.got.length ≤ a →
        cellsGet t.mem.windows a = cellsGet s.mem.windows a) ∧
      s.onlyIn t [.rxc x, .mem, .regs, .records, .counters, .defects]) ∧
    (k.st = .draining → (agetD s.cxl.rgns k.region rgnReset).st = .ready →
      ∃ t, exec (.captureDone x) s = .next t ∧ (t.car x).rxc.cap = none ∧
      .cxlWrite k.region k.offset ((if s.capPoison x k = [] then k else
        { k with poisoned := (s.capPoison x k).length, flags := k.flags ||| 4 }).header x) ∈ t.io.out ∧
      .cxlWrite k.region (k.offset + 64) ((List.range k.taken).flatMap fun i =>
        if (s.capPoison x k).contains i then List.replicate (capEntry k.source) 0
        else s.winRead (capBase x + capEntry k.source * i) (capEntry k.source)) ∈ t.io.out ∧
      s.onlyIn t (.rxc x :: evParts)) ∧
    (k.st = .draining → (agetD s.cxl.rgns k.region rgnReset).st ≠ .ready →
      ∃ t, exec (.captureFailed x) s = .next t ∧ (t.car x).rxc.cap = none ∧ s.onlyIn t (.rxc x :: evParts))

/-! ### Line code (chapter 05) -/

/-- R161, R162: six blocks of which the last four pass the test at one rate lock the aligner: its defects clear, its window
starts with the last two as context, at the lowest such rate, and its framer hunts; blocks that pass at no rate do not; 1,024 block periods in HUNT
raise no-block-lock; 64 blocks at no rate end the lock with a count, the defect and the framer in HUNT. -/
def Obligations.BlockLock : Prop :=
  ∀ (s : State) (x : Carrier), s.sys.held = false →
    (∀ (p : Fin 40320) (b l : List (BitVec 40320)), (s.car x).fec.st = .hunt →
      l = (if b = [] ∧ p.val + 6 * 40320 ≤ (s.car x).fec.llrs.length then (s.car x).fec.sixAt p else b) →
      (lockRates l ≠ [] → ∃ t, exec (.blockLock x p b) s = .next t ∧
        (t.car x).fec.st = .locked ∧ (t.car x).fec.pos = p ∧ (t.car x).fec.win = [] ∧
        (t.car x).fec.before = [(l.getD 5 0, (lockRates l).headD 0), (l.getD 4 0, (lockRates l).headD 0)] ∧
        (t.car x).tr.st = .hunt ∧
        t.stands 0x0501 x.ev 0 = false ∧ t.stands 0x0502 x.ev 0 = false ∧ t.stands 0x0801 x.ev 0 = true ∧
        s.onlyIn t (.fec x :: .tr x :: .plan x :: .ciph :: .seam :: defParts)) ∧
      (lockRates l = [] → exec (.blockLock x p b) s = .next s)) ∧
    ((s.car x).fec.st = .hunt → 1024 ≤ (s.car x).fec.huntN → ∃ t, exec (.noBlockLock x) s = .next t ∧
      t.stands 0x0501 x.ev 0 = true ∧ s.onlyIn t defParts) ∧
    ((s.car x).fec.st = .locked → 64 ≤ (s.car x).fec.noneRun → (s.car x).fec.flush = none →
      ∃ t, exec (.lossOfBlockLock x) s = .next t ∧ (s.receives x → (t.car x).fec.st = .hunt ∧
        (t.car x).rxc = (s.car x).rxc) ∧ (t.car x).fec.st ≠ .locked ∧ (t.car x).tr.st = .hunt ∧
      t.stands 0x0502 x.ev 0 = true ∧ s.onlyIn t (behind x))

/-- R156, R160, R161, R163 to R165, R170: a block that enters in LOCKED joins the window, with its rate and erasure, and its
syndrome test, with the two blocks before it at the rates at which they passed, advances the runs; with eight held the oldest leaves and, unless it is context, counts as decoded, with its
corrected bits, goes to the framer, and counts as uncorrected where a check that involves it stayed unsatisfied. A flush
empties the window and then leaves LOCKED. In HUNT a block period passes. A run of four blocks at another rate raises rate
mismatch, one at the active rate ends it; a rate switch not seen by its target ends the watch. -/
def Obligations.BlockDecoding : Prop :=
  ∀ (s : State) (x : Carrier), s.sys.held = false →
    (∀ (b : BitVec 40320) (e : Bool) (post : List (BitVec 40320)) (n : Nat) (k : FecBlk)
      (bef : List (BitVec 40320 × Nat)), (s.car x).fec.st = .locked →
      (s.car x).fec.watch = none → (s.car x).fec.flush = none →
      k = ⟨b, (s.car x).fec.actRate, e, decide (0 < (s.car x).fec.ctxLeft), none⟩ →
      bef = (indexed (s.car x).fec.before).map (fun p => (p.2.1, (s.car x).fec.seen.getD p.1 p.2.2)) →
      ∃ t, exec (.codeBlockDecode x (.given b e) post n) s = .next t ∧
      (fecPass b (s.car x).fec.actRate bef = true →
        (t.car x).fec.noneRun = 0 ∧ (t.car x).fec.misRate = none ∧
        (t.car x).fec.actRun = (s.car x).fec.actRun + 1) ∧
      (fecPass b (s.car x).fec.actRate bef = false → (t.car x).fec.actRun = 0 ∧
        ((∀ r, r < 8 → fecPass b r bef = false) → (t.car x).fec.noneRun = (s.car x).fec.noneRun + 1) ∧
        (∀ r, r < 8 → r ≠ (s.car x).fec.actRate → fecPass b r bef = true →
          (t.car x).fec.noneRun = 0 ∧ (t.car x).fec.mis.getD r 0 = (s.car x).fec.mis.getD r 0 + 1)) ∧
      ((s.car x).fec.win.length < 7 → (t.car x).fec.win = k :: (s.car x).fec.win ∧
        (t.car x).fec.blocks = (s.car x).fec.blocks) ∧
      (∀ w, (s.car x).fec.win.length = 7 → (s.car x).fec.win.getLast? = some w →
        (t.car x).fec.win.length = 7 ∧
        (w.context = true → (t.car x).fec.blocks = (s.car x).fec.blocks) ∧
        (w.context = false → (t.car x).fec.blocks = (s.car x).fec.blocks + 1 ∧
          (t.car x).fec.bitsCor = (s.car x).fec.bitsCor + popcount 40320 (post.headD w.signs ^^^ w.signs).toNat ∧
          (∃ bad : Bool, bad = !(postGood (s.car x).fec.left
              ((indexed ((s.car x).fec.win.reverse ++ [k])).map fun p => (post.getD p.1 p.2.signs, p.2.rate))) ∧
            (t.car x).fec.unc10 = (s.car x).fec.unc10 + b2n bad ∧
            (t.car x).fec.info = (s.car x).fec.info ++ [(w.rate, post.headD w.signs, bad)]) ∧
          t.cnt .CAR_FEC_BLK_LO (carIdx .CAR_FEC_BLK_LO x 0) =
            (s.cnt .CAR_FEC_BLK_LO (carIdx .CAR_FEC_BLK_LO x 0) + 1) % 2 ^ 64)) ∧
      s.onlyIn t (.fec x :: evParts)) ∧
    (∀ (post : List (BitVec 40320)) (n : Nat), (s.car x).fec.st = .locked →
      ((s.car x).fec.watch = none → 40320 ≤ (s.car x).fec.llrs.length → (s.car x).fec.win.length < 7 →
        ∃ t, exec (.codeBlockDecode x .line post n) s = .next t ∧
        (t.car x).fec.llrs = (s.car x).fec.llrs.drop 40320 ∧
        (t.car x).fec.win = lineBlk (s.cfx F.CAR_FEC_CTL_ERASE_WEIGHT x) (s.car x).fec.actRate
          (decide (0 < (s.car x).fec.ctxLeft)) ((s.car x).fec.llrs.take 40320) :: (s.car x).fec.win ∧
        s.onlyIn t (.fec x :: evParts)) ∧
      (∀ w, (s.car x).fec.win = [w] → (s.car x).fec.flush.isSome = true → (s.car x).fec.llrs.length < 40320 →
        s.receives x → ∃ t, exec (.codeBlockDecode x .flush post n) s = .next t ∧ (t.car x).fec.win = [] ∧
        (t.car x).fec.st = (if (s.car x).fec.flush = some true then .hunt else .idle) ∧
        (t.car x).fec.flush = none ∧ (t.car x).tr.st = .hunt ∧ s.onlyIn t (behind x))) ∧
    (∀ (b : BitVec 40320) (e : Bool) (post : List (BitVec 40320)) (n : Nat), (s.car x).fec.st = .hunt →
      ∃ t, exec (.codeBlockDecode x (.given b e) post n) s = .next t ∧
      (t.car x).fec.huntN = (s.car x).fec.huntN + 1 ∧ s.onlyIn t [.fec x]) ∧
    (∀ r, (s.car x).fec.st = .locked → (s.car x).fec.misRate = some r → (s.car x).fec.detRate ≠ some r →
      (s.car x).plan.recov = none → ∃ t, exec (.rateMismatch x) s = .next t ∧
      (t.car x).fec = { (s.car x).fec with detRate := some r } ∧
      t.stands 0x0503 x.ev 0 = true ∧ s.onlyIn t (.fec x :: defParts)) ∧
    ((s.car x).fec.st = .locked → (s.car x).fec.misRate = none → 4 ≤ (s.car x).fec.actRun →
      ∃ t, exec (.rateMismatch x) s = .next t ∧ (t.car x).fec = { (s.car x).fec with detRate := none } ∧
      t.stands 0x0503 x.ev 0 = false ∧ s.onlyIn t (.fec x :: defParts)) ∧
    (∀ n m, (s.car x).fec.watch = some (n, m) → m + 1 ≤ (s.car x).tr.mfc →
      ∃ t, exec (.rateSwitchMissed x) s = .next t ∧ (t.car x).fec = { (s.car x).fec with watch := none } ∧
      s.onlyIn t (.fec x :: evParts)) ∧
    (∀ (k : BlkIn) (post : List (BitVec 40320)) (n : Nat), ∃ t, exec (.codeBlockDecode x k post n) s = .next t ∧
      s.onlyIn t (behind x) ∧ ((s.car x).fec.st = .idle → t = s))

/-- R173 to R175: an interval of 100 ms wholly in LOCKED gives the bit error ratio in units of 10⁻⁹ and the margin, another
interval the no-measurement codes, and the sums start again; a third low margin raises FEC-degraded. An interval of 10 ms
counts its uncorrected blocks: a third bad one raises the defect, and the tenth clean one clears it. -/
def Obligations.LineCodeIntervals : Prop :=
  ∀ (s : State) (x : Carrier), s.sys.held = false →
    (∃ t, exec (.fecInterval x) s = .next t ∧
      ((s.car x).fec.st = .locked → (s.car x).fec.whole = true → (s.car x).fec.bitsDec ≠ 0 →
        ((t.car x).fec.ber : Int) = (roundDiv ((s.car x).fec.bitsCor * 1000000000) (s.car x).fec.bitsDec).toNat ∧
        (t.car x).fec.margin =
          fecMargin (s.car x).fec.bitsCor (s.car x).fec.bitsDec (s.car x).fec.actRate (s.maxPass x)) ∧
      ((s.car x).fec.whole = false → (t.car x).fec.ber = 0xFFFFFFFF ∧ (t.car x).fec.margin = 0x8000) ∧
      (t.car x).fec.bitsDec = 0 ∧ (t.car x).fec.bitsCor = 0 ∧ (t.car x).fec.blocks = 0 ∧
      (2 ≤ (s.car x).fec.degLow → s.cfx F.CAR_FEC_THR_DEG_MARGIN x ≠ 0x8000 → (t.car x).fec.margin ≠ 0x8000 →
        sgn 16 (t.car x).fec.margin < sgn 16 (s.cfx F.CAR_FEC_THR_DEG_MARGIN x) →
        t.stands 0x0504 x.ev 0 = true) ∧ s.onlyIn t (.fec x :: defParts)) ∧
    (∃ t, exec (.uncorrectedInterval x) s = .next t ∧ (t.car x).fec.unc10 = 0 ∧
      (t.car x).fec.uncRun =
        (if max 1 (s.cfx F.CAR_FEC_THR_UNC_N x) ≤ (s.car x).fec.unc10 then (s.car x).fec.uncRun + 1 else 0) ∧
      (t.car x).fec.okRun = (if (s.car x).fec.unc10 = 0 then (s.car x).fec.okRun + 1 else 0) ∧
      (3 ≤ (t.car x).fec.uncRun → t.stands 0x0505 x.ev 0 = true) ∧
      (10 ≤ (t.car x).fec.okRun → t.stands 0x0505 x.ev 0 = false) ∧
      ((t.car x).fec.uncRun < 3 → (t.car x).fec.okRun < 10 →
        t.stands 0x0505 x.ev 0 = s.stands 0x0505 x.ev 0) ∧
      s.onlyIn t (.fec x :: defParts))

/-! ### Transmit output (chapter 06) -/

/-- R194: an up-ramp's end enters ON with its event, a down-ramp's end enters OFF while TX_EN is 0 and SQUELCHED under a
squelch cause; a forced cause puts the output in FORCED, ends its burst and puts the DACs at code 0; with no forced cause left, FORCED is left
as OFF is: to OFF, to SQUELCHED under a squelch cause, to an up-ramp with neither. -/
def Obligations.TransmitOutputStates : Prop :=
  ∀ (s : State) (x : Carrier), s.sys.held = false →
    ((s.car x).tx.st = .rampUp → s.txForced x = false → s.txSquelch x = false → s.cfx F.CAR_TX_CTL_TX_EN x = 1 →
      ∃ t, exec (.txRampUpDone x) s = .next t ∧ (t.car x).tx.st = .on ∧ s.onlyIn t (behind x)) ∧
    ((s.car x).tx.st = .rampDown → s.txForced x = false → s.cfx F.CAR_TX_CTL_TX_EN x = 0 →
      ∃ t, exec (.txRampDownDone x) s = .next t ∧ (t.car x).tx.st = .off ∧ t.stands 0x0601 x.ev 0 = false ∧
      s.onlyIn t (behind x)) ∧
    ((s.car x).tx.st = .rampDown → s.txForced x = false → s.cfx F.CAR_TX_CTL_TX_EN x = 1 →
      s.cfx F.CAR_TX_CTL_SQUELCH x = 1 →
      ∃ t, exec (.txRampDownDone x) s = .next t ∧ (t.car x).tx.st = .squelched ∧ s.onlyIn t (behind x)) ∧
    (s.txForced x = true → (s.car x).tx.st ≠ .forced → ∃ t, exec (.txForced x) s = .next t ∧
      (t.car x).tx.st = .forced ∧ (t.car x).tk.burst = none ∧ t.stands 0x0601 x.ev 0 = true ∧
      (∀ c : Fin 4, .dac x.txDie c 0 ∈ t.io.out) ∧ s.onlyIn t (behind x)) ∧
    ((s.car x).tx.st = .forced → s.txForced x = false → s.sys.warm = false → (s.car x).tk.gaspWait = false →
      (s.car x).tk.burst = none → ∃ t, exec (.forcedRelease x) s = .next t ∧
      (t.car x).tx.st = (if s.cfx F.CAR_TX_CTL_TX_EN x = 0 then .off else if s.txSquelch x then .squelched else .rampUp) ∧
      s.onlyIn t (behind x))

/-- R195, R197, R200: a write of SQUELCH sets the bit, and from ON starts the down-ramp with its event; SQ_HOLD's end
takes the RX_LOL cause from the lock state; a probe starts from SQUELCHED under RX_LOL alone, and its end 100 ms after ON
ramps down again under the same cause; a clipped share at the threshold in ON raises clipping-high. -/
def Obligations.TransmitSquelchAndProbe : Prop :=
  ∀ (s : State) (x : Carrier), s.sys.held = false →
    (∀ v : Bool, ∃ t, exec (.txSquelchWrite x v) s = .next t ∧ s.onlyIn t (behind x) ∧
      ((∀ k, k ∈ (s.car x).tk.waitVals → k.1.reg ≠ .CAR_TX_CTL) → t.cfx F.CAR_TX_CTL_SQUELCH x = b2n v) ∧
      (v = true → (s.car x).tx.st = .on → s.txForced x = false →
        (t.car x).tx.st = .rampDown ∧ t.stands 0x0601 x.ev 0 = true)) ∧
    (∃ t, exec (.sqHoldExpire x) s = .next t ∧ s.onlyIn t (behind x) ∧
      (t.car x).tx.rxLol = ((s.car x).rxc.st != .locked)) ∧
    ((s.car x).tx.st = .squelched → s.onlyRxLol x = true → s.cfx F.CAR_TX_SQ_RESTART x ≠ 0 →
      s.cfx F.CAR_TX_CTL_TX_EN x = 1 → (s.car x).tk.burst = none →
      ∃ t, exec (.restartProbe x) s = .next t ∧ (t.car x).tx.st = .rampUp ∧ (t.car x).tx.probing = true ∧
      s.onlyIn t (behind x)) ∧
    ((s.car x).tx.st = .on → (s.car x).tx.probing = true → s.onlyRxLol x = true →
      ∃ t, exec (.probeEnd x) s = .next t ∧ (t.car x).tx.st = .rampDown ∧ (t.car x).tx.probing = false ∧
      s.onlyIn t (behind x)) ∧
    (∀ (n : Option (Nat × Nat × Nat × Nat)) (c : List Nat),
      c = (match n with | some (xi, xq, yi, yq) => [xi, xq, yi, yq] | none => (s.car x).tx.clipN) →
      ∃ t, exec (.clipInterval x n) s = .next t ∧ (t.car x).tx.clipN = [0, 0, 0, 0] ∧
      ((s.car x).tx.st = .on → (∃ q ∈ c, s.cfx F.CAR_TX_LEVEL_CLIP_THR x * 5 * s.cfx F.CAR_TX_RATE_KBD x ≤ q * 4 * 2 ^ 20) →
        t.stands 0x0603 x.ev 0 = true ∧ (t.car x).tx.clipLow = 0) ∧
      ((s.car x).tx.st ≠ .on → t.io.defects = s.io.defects) ∧ s.onlyIn t (behind x))

/-! ### Commits and bit loading (chapters 01 and 07) -/

/-- R21, R23, R30, R40, R41, R219, R477, R478: an accepted COMMIT moves its scopes' staging copies into a pending commit of
its kind and target, and a refused one completes with the reason; neither touches an active value. CANCEL takes away every
pending commit that its mask meets, is refused while a receive plan is among them, and finds none otherwise. A profile
stages its values, for the carriers named. -/
def Obligations.CommitCommands : Prop :=
  ∀ (s : State) (fn : Fn) (r : Nat) (c : ExecCmd), s.sys.held = false →
    (s.running fn r 0x0101 = some c →
      (([(1, s.carA.plan), (3, s.carB.plan)].filter fun q => (maskScopes (leAt c.desc 16 2)).contains q.1).findSome?
        fun q => q.2.inFlight) = none →
      (∀ v, s.rejects (maskScopes (leAt c.desc 16 2)) (kindOf (byteAt c.desc 18))
          (if bit (byteAt c.desc 19) 0 then some (leAt c.desc 20 7) else none) none = some v →
        exec (.commit fn r) s = .next (s.finish fn r 1 v)) ∧
      (s.rejects (maskScopes (leAt c.desc 16 2)) (kindOf (byteAt c.desc 18))
          (if bit (byteAt c.desc 19) 0 then some (leAt c.desc 20 7) else none) none = none →
        ∃ t, exec (.commit fn r) s = .next t ∧ t.rd = s.rd ∧
        t.regs.pend = s.regs.pend ++ [⟨maskScopes (leAt c.desc 16 2), kindOf (byteAt c.desc 18),
          if bit (byteAt c.desc 19) 0 then some (leAt c.desc 20 7) else none,
          overVals (s.takeVals (maskScopes (leAt c.desc 16 2))) [], none⟩] ∧
        t.regs.staged = s.dropStaged (maskScopes (leAt c.desc 16 2)) ∧ s.onlyIn t (.regs :: cmdParts))) ∧
    (s.running fn r 0x0002 = some c →
      (∀ e, (s.regs.pend.filter fun p => p.scopes.any (bit (leAt c.desc 16 2))).findSome? rxPlanOf = some e →
        exec (.cancel fn r) s = .next (s.finish fn r 9 e)) ∧
      ((s.regs.pend.filter fun p => p.scopes.any (bit (leAt c.desc 16 2))) = [] →
        exec (.cancel fn r) s = .next (s.finish fn r 10 0)) ∧
      ((∀ p ∈ s.regs.pend, p.scopes.any (bit (leAt c.desc 16 2)) = true → p.plan = none) →
        (∃ p ∈ s.regs.pend, p.scopes.any (bit (leAt c.desc 16 2)) = true) →
        ∃ t, exec (.cancel fn r) s = .next t ∧
        t.regs.pend = (s.regs.pend.filter fun p => !p.scopes.any (bit (leAt c.desc 16 2))) ∧
        t.regs.active = s.regs.active ∧ t.regs.staged = s.regs.staged ∧ s.onlyIn t (.regs :: cmdParts))) ∧
    (∀ x : Carrier, s.running fn r 0x0103 = some c → byteAt c.desc 17 = 2 ^ x.num →
      (profile (byteAt c.desc 16)).1 + F.CAR_PRESS_CTL_STEPS.at s.stagedWord (carIdx .CAR_PRESS_CTL x.other 0) +
        s.retired.length ≤ 48 →
      ∃ t, exec (.profileLoad fn r) s = .next t ∧ t.ring fn r = (s.finish fn r 0 0).ring fn r ∧
      F.CAR_PRESS_CTL_STEPS.at t.stagedWord (carIdx .CAR_PRESS_CTL x 0) = (profile (byteAt c.desc 16)).1 ∧
      F.CAR_TX_CTL_PILOT.at t.stagedWord (carIdx .CAR_TX_CTL x 0) = (profile (byteAt c.desc 16)).2.1 ∧
      t.cfx F.CAR_PLAN_PARAM_MARGIN x = (profile (byteAt c.desc 16)).2.2.1 ∧
      (∀ k, k.reg ≠ .CAR_PLAN_PARAM → t.rd k = s.rd k) ∧ s.onlyIn t (.regs :: cmdParts))

/-- R202, R211, R214, R226: a proposal goes out with the next epoch when none is in flight, and is refused with the one that
is; it is sent again while it has been sent fewer than three times and then fails with a count. A computation keeps its
record and is reported, or counts a failure; outside automatic mode an interval computes nothing. A REJECT ends the
proposal it names; an ABORT ends the receive plan it names: a message's row acts on the oldest plan message that waits, and
does nothing where that is another one. While a proposal's frames are still in Tack its timer does not run (R340). -/
def Obligations.PlanProposer : Prop :=
  ∀ (s : State) (x : Carrier), s.sys.held = false →
    (∀ (fn : Fn) (r : Nat) (c : ExecCmd) (rcd : Bytes), s.running fn r 0x0105 = some c →
      carOf (byteAt c.desc 16) = x → s.planSource x c.desc c.data = some rcd →
      ((s.car x).plan.inFlight = none → ∃ t, exec (.planPropose fn r) s = .next t ∧
        (t.car x).plan.prop = some (recSetEpoch rcd ((s.rxAct x + 1) % 65536)) ∧ (t.car x).plan.sends = 1 ∧
        s.sent t x (msgPropose 1 (recSetEpoch rcd ((s.rxAct x + 1) % 65536))) ∧
        t.ring fn r = (s.finish fn r 0 ((s.rxAct x + 1) % 65536)).ring fn r ∧
        s.onlyIn t (sendParts x ++ cmdParts)) ∧
      (∀ e, (s.car x).plan.inFlight = some e → exec (.planPropose fn r) s = .next (s.finish fn r 8 e))) ∧
    (s.tkSending x 4 0x31 = true → exec (.proposeRetry x) s = .next s) ∧
    (∀ rcd, (s.car x).plan.prop = some rcd → s.tkSending x 4 0x31 = false → ∃ t, exec (.proposeRetry x) s = .next t ∧
      ((s.car x).plan.sends < 3 → (t.car x).plan.prop = some rcd ∧
        (t.car x).plan.sends = (s.car x).plan.sends + 1 ∧
        s.sent t x (msgPropose ((s.car x).plan.sends + 1) rcd) ∧ s.onlyIn t (sendParts x)) ∧
      (3 ≤ (s.car x).plan.sends → (t.car x).plan.prop = none ∧
        t.cnt .CAR_PLAN_FAIL (carIdx .CAR_PLAN_FAIL x 0) =
          min 0xFFFFFFFF (s.cnt .CAR_PLAN_FAIL (carIdx .CAR_PLAN_FAIL x 0) + 1) ∧ s.onlyIn t (.plan x :: evParts))) ∧
    (∀ (fn : Fn) (r : Nat) (c : ExecCmd) (p : Nat), s.running fn r 0x0104 = some c → carOf (byteAt c.desc 16) = x →
      p = (if byteAt c.desc 17 = 0xFF then s.cfx F.CAR_RXC_CTL_PILOT x else byteAt c.desc 17) →
      (s.computeBusy x = true → exec (.planCompute fn r) s = .next (s.finish fn r 2 0)) ∧
      (s.computeBusy x = false → ∃ t, exec (.planCompute fn r) s = .next t ∧ (t.car x).plan.computed = s.compute x p ∧
      (∀ rcd, s.compute x p = some rcd → t.ring fn r = (s.finish fn r 0 (recSlots rcd)).ring fn r) ∧
      (s.compute x p = none → t.ring fn r = (s.finish fn r 11 1).ring fn r ∧
        (t.car x).plan.prop = (s.car x).plan.prop) ∧ s.onlyIn t (sendParts x ++ cmdParts))) ∧
    (s.cfx F.CAR_PLAN_CTL_MODE x = 2 → s.computeBusy x = false → ∃ t, exec (.planInterval x) s = .next t ∧
      (t.car x).plan.computed = s.compute x (s.cfx F.CAR_RXC_CTL_PILOT x) ∧ s.onlyIn t (sendParts x ++ evParts)) ∧
    (s.cfx F.CAR_PLAN_CTL_MODE x ≠ 2 ∨ s.computeBusy x = true → exec (.planInterval x) s = .next s) ∧
    (∀ m : Bytes, ((s.car x).plan.inbox.head? ≠ some m ∨ byteAt m 0 ≠ 0x33 → exec (.planRejectReceived x m) s = .next s) ∧
      ((s.car x).plan.inbox.head? ≠ some m ∨ byteAt m 0 ≠ 0x34 → exec (.planAbortReceived x m) s = .next s) ∧
      (∀ r, (s.car x).plan.inbox = m :: r → byteAt m 0 = 0x33 → ∃ t, exec (.planRejectReceived x m) s = .next t ∧
        (t.car x).plan.inbox = r ∧
        (t.car x).plan.lastReject = byteAt m 6 % 16 ∧ s.onlyIn t (.plan x :: .tr x :: .tk x :: defParts)) ∧
      (∀ r, (s.car x).plan.inbox = m :: r → byteAt m 0 = 0x34 → ∃ t, exec (.planAbortReceived x m) s = .next t ∧
        (t.car x).plan.inbox = r ∧ ((s.car x).plan.sideUndo = [] → t.regs.active = s.regs.active) ∧
        s.onlyIn t (.plan x :: .fec x :: .regs :: evParts))) ∧
    (∀ (m rcd : Bytes), (s.car x).plan.inbox.head? = some m → byteAt m 0 = 0x33 → (s.car x).plan.prop = some rcd →
      recEpoch rcd = beAt m 4 2 → (s.car x).plan.query = none → ∃ t, exec (.planRejectReceived x m) s = .next t ∧
      (t.car x).plan.prop = none ∧ (t.car x).plan.lastReject = byteAt m 6 % 16 ∧
      s.onlyIn t (.plan x :: evParts)) ∧
    (∀ (m : Bytes) (q : PlanMsg), (s.car x).plan.inbox.head? = some m → byteAt m 0 = 0x34 → (s.car x).plan.rxPend = some q →
      recEpoch q.body = beAt m 4 2 → ∃ t, exec (.planAbortReceived x m) s = .next t ∧
      (t.car x).plan.rxPend = none ∧ (∀ p ∈ t.regs.pend, isRxPlan x p = false) ∧
      ((s.car x).plan.sideUndo = [] → t.regs.active = s.regs.active) ∧ s.onlyIn t (.plan x :: .fec x :: .regs :: evParts))

/-- R212 to R214, R222: a PROPOSE that fails a check is rejected with its code, one that waits for approval is held, one that
passes makes a pending commit of the transmit side at TX_MFC + LEAD and is answered with COMMIT; a repeat of it is
answered again. An approval's refusal and its timeout reject with code 5. A push makes the same commit, a local apply
makes those of the sides it names, unannounced. A QUERY is answered with the COMMIT of the active epoch, or with code 2. -/
def Obligations.PlanLoadedEnd : Prop :=
  ∀ (s : State) (x : Carrier), s.sys.held = false →
    (∀ (msg rcd : Bytes) (r : List Bytes), (s.car x).plan.inbox = msg :: r → byteAt msg 0 = 0x31 →
      rcd = recClean (recSwap (msg.drop 4)) →
      sameEpoch (s.car x).plan.lastCommit (recEpoch rcd) = none → (s.car x).plan.awaiting = none →
      ((s.car x).plan.txPend = none →
        (s.proposeCheck x rcd ≠ 0 → ∃ t, exec (.proposeReceived x msg) s = .next t ∧
          (t.car x).plan.lastReject = s.proposeCheck x rcd ∧ (t.car x).plan.txPend = none ∧
          s.sent t x (msgReject (recEpoch rcd) (s.proposeCheck x rcd)) ∧ s.onlyIn t (sendParts x ++ evParts)) ∧
        (s.proposeCheck x rcd = 0 → s.cfx F.CAR_PLAN_CTL_APPROVE x = 1 →
          ∃ t, exec (.proposeReceived x msg) s = .next t ∧ (t.car x).plan.awaiting = some rcd ∧
          s.onlyIn t (.plan x :: evParts)) ∧
        (s.proposeCheck x rcd = 0 → s.cfx F.CAR_PLAN_CTL_APPROVE x ≠ 1 → ∀ u,
          (s.modPlan x fun p => { p with inbox := r }).planGo x rcd none true (s.ctlNow x) = .ok u →
          exec (.proposeReceived x msg) s = .next u ∧
          (∃ m, (u.car x).plan.txPend = some m ∧ m.body = rcd ∧
            m.target = s.sys.txMfc + max 8 (s.cfx F.CAR_PLAN_CTL_LEAD x)) ∧
          (∃ p ∈ u.regs.pend, p.plan = some (x, .tx, recEpoch rcd) ∧ p.kind = .mf ∧
            p.target = some (s.sys.txMfc + max 8 (s.cfx F.CAR_PLAN_CTL_LEAD x))) ∧ u.rd = s.rd ∧
          s.onlyIn u (.regs :: sendParts x ++ evParts))) ∧
      (∀ m, (s.car x).plan.txPend = some m → recEpoch m.body = recEpoch rcd →
        ∃ t, exec (.proposeReceived x msg) s = .next t ∧ (t.car x).plan.txPend = some m ∧
        s.sent t x (msgCommit m.body m.target (m.flags % 16 ||| 0) m.map) ∧ s.onlyIn t (sendParts x))) ∧
    (∀ msg : Bytes, ∃ t, exec (.proposeReceived x msg) s = .next t ∧ s.onlyIn t (.regs :: sendParts x ++ evParts) ∧
      t.regs.active = s.regs.active ∧
      ((s.car x).plan.inbox.head? ≠ some msg ∨ byteAt msg 0 ≠ 0x31 → t = s)) ∧
    (∀ (fn : Fn) (r : Nat) (c : ExecCmd) (rcd : Bytes), s.running fn r 0x0005 = some c →
      carOf (byteAt c.desc 16) = x → (s.car x).plan.awaiting = some rcd → recEpoch rcd = leAt c.desc 18 2 →
      ∃ t, exec (.planApprove fn r) s = .next t ∧ (t.car x).plan.awaiting = none ∧
      (byteAt c.desc 17 = 2 → (t.car x).plan.lastReject = 5 ∧ s.sent t x (msgReject (recEpoch rcd) 5)) ∧
      (byteAt c.desc 17 ≠ 2 → (∃ m, (t.car x).plan.txPend = some m ∧ m.body = rcd) ∨ (t.car x).plan.lastReject = 1) ∧
      t.ring fn r = (s.finish fn r 0 0).ring fn r ∧ s.onlyIn t (.regs :: sendParts x ++ cmdParts)) ∧
    (∀ rcd, (s.car x).plan.awaiting = some rcd → ∃ t, exec (.approvalTimeout x) s = .next t ∧
      (t.car x).plan.awaiting = none ∧ (t.car x).plan.lastReject = 5 ∧ s.sent t x (msgReject (recEpoch rcd) 5) ∧
      s.onlyIn t (sendParts x ++ evParts)) ∧
    (∀ (fn : Fn) (r : Nat) (c : ExecCmd) (rcd : Bytes), s.running fn r 0x0106 = some c →
      carOf (byteAt c.desc 16) = x → s.planSource x c.desc c.data = some rcd →
      s.pushCheck x (recSetEpoch rcd ((s.txAct x + 1) % 65536)) = none →
      (s.planGo x (recSetEpoch rcd ((s.txAct x + 1) % 65536)) none true (s.ctlNow x)).isOk = true →
      ∀ u, (s.finish fn r 0 ((s.txAct x + 1) % 65536)).planGo x (recSetEpoch rcd ((s.txAct x + 1) % 65536)) none true
        ((s.finish fn r 0 ((s.txAct x + 1) % 65536)).ctlNow x) = .ok u →
      exec (.planPush fn r) s = .next u ∧ (∃ m, (u.car x).plan.txPend = some m ∧
        m.body = recSetEpoch rcd ((s.txAct x + 1) % 65536)) ∧ s.onlyIn u (.regs :: sendParts x ++ cmdParts)) ∧
    (∀ (fn : Fn) (r : Nat) (c : ExecCmd) (rcd tx rx : Bytes) (u : State), s.running fn r 0x0107 = some c →
      carOf (byteAt c.desc 16) = x → s.planSource x c.desc c.data = some rcd →
      tx = recSetEpoch rcd ((s.txAct x + 1) % 65536) → rx = recSetEpoch rcd ((s.rxAct x + 1) % 65536) →
      (bit (byteAt c.desc 18) 0 = true → s.pushCheck x tx = none) →
      (bit (byteAt c.desc 18) 1 = true → (s.car x).plan.inFlight = none ∧
        recValid rx (s.cfx F.CAR_RXC_CTL_SC_LOG2 x) (s.cfx F.CAR_RXC_RATE_KBD x) = true) →
      (s.planLocal x (byteAt c.desc 18) (leAt c.desc 32 7) tx rx).isOk = true →
      (s.finish fn r 0 (recEpoch (if bit (byteAt c.desc 18) 0 then tx else rx))).planLocal x (byteAt c.desc 18)
        (leAt c.desc 32 7) tx rx = .ok u →
      exec (.planLocal fn r) s = .next u ∧
      (bit (byteAt c.desc 18) 0 = true → ∃ m, (u.car x).plan.txPend = some m ∧ m.body = tx ∧ m.target = leAt c.desc 32 7) ∧
      (bit (byteAt c.desc 18) 1 = true → (∃ m, (u.car x).plan.rxPend = some m ∧ m.body = rx ∧
          m.target = leAt c.desc 32 7) ∧
        ∃ p ∈ u.regs.pend, p.plan = some (x, .rx, recEpoch rx) ∧ p.target = some (leAt c.desc 32 7)) ∧
      (u.car x).tr.own = (s.car x).tr.own ∧ s.onlyIn u (.regs :: .fec x :: .plan x :: cmdParts)) ∧
    (∀ msg : Bytes, (s.car x).plan.inbox.head? = some msg → byteAt msg 0 = 0x35 → (s.car x).plan.txPend = none →
      ∃ t, exec (.planQueryReceived x msg) s = .next t ∧
      (∀ m, (s.car x).plan.lastCommit = some m → beAt msg 4 2 = s.txAct x →
        s.sent t x (msgCommit m.body m.target (m.flags % 16 ||| 8) m.map) ∧ s.onlyIn t (sendParts x)) ∧
      (beAt msg 4 2 ≠ s.txAct x → s.sent t x (msgReject (beAt msg 4 2) 2) ∧ (t.car x).plan.lastReject = 2) ∧
      s.onlyIn t (sendParts x ++ evParts))

/-- R216, R220 to R222, R226: a COMMIT for another epoch than the active one, outside recovery, arms the receive side for
its record at its target or at the next multiframe; a repeat of the active epoch changes nothing. An announcement of a
valid plan arms it; one of an unknown active epoch queries. In recovery the candidates swap, at most eight times and then
with plan lost; queries repeat three times and then raise it. The epoch-mismatch defect follows its runs. -/
def Obligations.PlanRecovery : Prop :=
  ∀ (s : State) (x : Carrier), s.sys.held = false →
    (∀ (msg rcd : Bytes) (r : List Bytes), (s.car x).plan.inbox = msg :: r → byteAt msg 0 = 0x32 →
      rcd = recClean (recSwap (sub msg 4 48)) → (s.car x).plan.query = none →
      (recEpoch rcd = s.rxAct x →
        exec (.planCommitReceived x msg) s = .next (s.modPlan x fun p => { p with inbox := r })) ∧
      (recEpoch rcd ≠ s.rxAct x → byteAt msg 59 % 16 < 4 → (s.car x).plan.rxPend = none → (s.car x).plan.side = none →
        (s.car x).plan.recov = none → ∃ t, exec (.planCommitReceived x msg) s = .next t ∧
        (∃ m, (t.car x).plan.rxPend = some m ∧ m.body = rcd ∧
          m.target = max (beAt msg 52 7) ((s.car x).tr.mfc + 1) ∧
          (∃ p ∈ t.regs.pend, p.plan = some (x, .rx, recEpoch rcd) ∧ p.target = some m.target)) ∧
        (t.car x).plan.prop = none ∧ t.rd = s.rd ∧ s.onlyIn t (.plan x :: .fec x :: .regs :: evParts))) ∧
    (∀ m : PlanMsg, 4 ≤ (s.car x).plan.annRun → (s.car x).tr.st ≠ .hunt → (s.car x).plan.recov = none →
      annPend (s.car x).plan.ann = true → beAt (s.car x).plan.ann 2 2 ≠ s.rxAct x → (s.car x).plan.rxPend = none →
      (s.car x).plan.side = none →
      (s.car x).plan.valid.find? (fun q => recEpoch q.body == beAt (s.car x).plan.ann 2 2) = some m →
      beAt (s.car x).plan.ann 4 2 = ((s.car x).tr.mfc + 1) % 65536 →
      ∃ t, exec (.planAnnounceSeen x) s = .next t ∧
      (t.car x).plan.rxPend = some { m with target := (s.car x).tr.mfc + 1 } ∧ t.rd = s.rd ∧
      s.onlyIn t (.fec x :: .regs :: sendParts x ++ evParts)) ∧
    (4 ≤ (s.car x).plan.annRun → (s.car x).tr.st ≠ .hunt → (s.car x).plan.recov = none →
      annPend (s.car x).plan.ann = false → beAt (s.car x).plan.ann 0 2 ≠ s.rxAct x → (s.car x).plan.rxPend = none →
      (s.car x).plan.valid = [] → (s.car x).plan.query = none →
      ∃ t, exec (.planAnnounceSeen x) s = .next t ∧ (t.car x).plan.query = some (beAt (s.car x).plan.ann 0 2, 1) ∧
      s.sent t x (msgQuery 1 (beAt (s.car x).plan.ann 0 2)) ∧ s.onlyIn t (sendParts x)) ∧
    (∀ v : Recov, (s.car x).plan.recov = some v →
      (v.swaps = 0 ∨ (s.car x).tr.st = .hunt →
        (v.swaps < 8 → ∃ t, exec (.planRecoverySwap x) s = .next t ∧
          (t.car x).plan.recov = some ⟨v.prev, v.next, !v.onNew, v.swaps + 1,
            if v.onNew then [] else undoVals s.rd (s.rxMapVals s.rd x v.next), false, v.told⟩ ∧
          (t.car x).plan.rxRec = (if v.onNew then v.prev else v.next).body ∧
          (t.car x).fec.actRate = recRate (if v.onNew then v.prev else v.next).body ∧
          s.onlyIn t (.plan x :: .fec x :: .rxc x :: .regs :: evParts)) ∧
        (8 ≤ v.swaps → ∃ t, exec (.planRecoverySwap x) s = .next t ∧ (t.car x).plan.recov = none ∧
          t.stands 0x070A x.ev 0 = true ∧ (t.car x).plan.lastRx = some v.next ∧
          s.onlyIn t (.plan x :: .fec x :: .rxc x :: .regs :: .cli :: .seam :: .ciph :: defParts))) ∧
      (v.swaps ≠ 0 → (s.car x).tr.st ≠ .hunt → 1 ≤ (s.car x).plan.annRun →
        beAt (s.car x).plan.ann 0 2 = recEpoch (if v.onNew then v.next else v.prev).body →
        ∃ t, exec (.planRecoverySwap x) s = .next t ∧ (t.car x).plan.recov = none ∧
        (t.car x).plan.lastRx = some (if v.onNew then v.next else v.prev) ∧ ((s.car x).plan.lost = true → t.stands 0x070A x.ev 0 = false) ∧
        s.onlyIn t (.plan x :: .cli :: .seam :: .ciph :: .tr x :: defParts))) ∧
    (∀ e n, (s.car x).plan.query = some (e, n) → (s.car x).plan.lost = false →
      ∃ t, exec (.queryRetry x) s = .next t ∧
      (n < 3 → (t.car x).plan.query = some (e, n + 1) ∧ s.sent t x (msgQuery (n + 1) e) ∧ s.onlyIn t (sendParts x)) ∧
      (3 ≤ n → t.stands 0x070A x.ev 0 = true ∧ s.onlyIn t (.plan x :: defParts))) ∧
    (∀ e n, (s.car x).plan.lost = true → (s.car x).plan.query = some (e, n) →
      ∃ t, exec (.planLostQuery x) s = .next t ∧ (t.car x).plan.query = some (e, 3) ∧ s.sent t x (msgQuery 1 e) ∧
      s.onlyIn t (sendParts x)) ∧
    (∃ t, exec (.epochMismatch x) s = .next t ∧
      (64 ≤ (s.car x).plan.mismRun → t.stands 0x070C x.ev 0 = true) ∧
      ((s.car x).plan.mismRun < 64 → 64 ≤ (s.car x).plan.eqRun → t.stands 0x070C x.ev 0 = false) ∧
      ((s.car x).plan.mismRun < 64 → (s.car x).plan.eqRun < 64 → t = s) ∧ s.onlyIn t defParts) ∧
    (∀ msg : Bytes, ∃ t, exec (.planCommitReceived x msg) s = .next t ∧
      ((s.car x).plan.side = none → (s.car x).plan.sideUndo = [] → t.regs.active = s.regs.active) ∧
      s.onlyIn t (.plan x :: .fec x :: .seam :: .cli :: .regs :: defParts) ∧
      ((s.car x).plan.inbox.head? ≠ some msg ∨ byteAt msg 0 ≠ 0x32 → t = s)) ∧
    (∃ t, exec (.planAnnounceSeen x) s = .next t ∧
      ((s.car x).plan.side = none → (s.car x).plan.sideUndo = [] → t.regs.active = s.regs.active) ∧
      ((s.car x).plan.annRun < 4 → t = s))

/-! ### Frame ticks, symbol frames, the transport frame (chapters 01 and 08) -/

/-- R22, R24, R28, R75, R87, R92, R103, R134, R137, R180, R187, R228, R230 to R233: with nothing pending, a device frame tick
steps TX_FN and, at FN 0, TX_MFC; the frame that ran goes out, and each running chain begins one with the alignment word, FN
and its byte of the MFC group. A commit that waits for the tick becomes active whole, and no other register changes. The end
of a received symbol frame is counted, moves the dispersion trim by at most SLEW, takes a waiting Press set into use, and
follows the erasures, the misses and the DC loops; at a transmit boundary a running chain takes PILOT and the entropies. -/
def Obligations.FrameBoundaries : Prop :=
  ∀ (s : State), s.sys.held = false →
    (∀ (feed : List (Nat × Bytes)) (off : Int × Int), ∃ t, exec (.deviceFrameTick feed off) s = .next t ∧
      t.sys.txFn = (s.sys.txFn + 1) % 256 ∧
      t.sys.txMfc = (if t.sys.txFn = 0 then s.sys.txMfc + 1 else s.sys.txMfc) ∧
      (∃ l, t.io.out = l ++ s.io.out ∧ ∀ x, (s.car x).tr.cur.isSome → ∃ f, Out.frame x f ∈ l) ∧
      (∀ x, (t.car x).tx.chain = true → ∃ c b, (t.car x).tr.cur = some (c, b) ∧ b.take 4 = beBytes 4 faw ∧
        byteAt b 4 = t.sys.txFn ∧ b.getD 5 0 = (mfcGroup t.sys.txMfc).getD (t.sys.txFn % 8) 0) ∧
      ((∀ p ∈ s.regs.pend, p.kind = .sf) →
        s.onlyIn t (.sys :: .tx .A :: .tx .B :: .tr .A :: .tr .B :: .cli :: .ciph :: defParts))) ∧
    (∀ (feed : List (Nat × Bytes)) (off : Int × Int) (w m : Word), s.regs.pend = [⟨[7], .tf, none, [(⟨.MON_CTL, 0⟩, (w, m))], none⟩] → s.carA.tk.waitVals = [] →
      s.carB.tk.waitVals = [] → ∃ t, exec (.deviceFrameTick feed off) s = .next t ∧ t.regs.pend = [] ∧
      t.rd = fun k => if k = ⟨.MON_CTL, 0⟩ then merge (s.rd k) w (m &&& scopeMask k [7]) else s.rd k) ∧
    (∀ (x : Carrier) (m : Option SfMeas), ∃ t, exec (.symbolFrameBoundary x .rx m) s = .next t ∧
      (t.car x).rxc.sfc = (s.car x).rxc.sfc + s.cfx F.CAR_RXC_CTL_RX_EN x ∧
      (t.car x).rxc.pilot = t.cfx F.CAR_RXC_CTL_PILOT x ∧ t.sys.txFn = s.sys.txFn ∧ t.io.rings = s.io.rings) ∧
    (∀ (x : Carrier) (m : SfMeas), s.regs.pend = [] → s.receives x → (s.car x).plan.recov = none →
      (s.car x).plan.cold = none → (s.car x).plan.alignLost = false → (s.car x).plan.rxPend = none →
      (s.car x.other).plan.side = none → (s.car x).tk.waitVals = [] → ∃ t, exec (.symbolFrameBoundary x .rx (some m)) s = .next t ∧
      ((s.car x).fe.cde ≠ 0 → (s.car x).fe.cde ≠ 1 →
        (t.car x).fe.trim = clampI ((s.car x).fe.trim - s.cfx F.CAR_CDE_TRIM_SLEW x)
          ((s.car x).fe.trim + s.cfx F.CAR_CDE_TRIM_SLEW x) (s.cfxI F.CAR_CDE_TRIM_TARGET x)) ∧
      (t.car x).rxc.missed = (if (s.car x).rxc.st = .locked ∧ m.found = false then (s.car x).rxc.missed + 1 else 0) ∧
      ((s.car x).rxc.st = .train ∨ (s.car x).rxc.st = .locked → (t.car x).rxc.freq = m.freq ∧ (t.car x).rxc.clk = m.clk) ∧
      t.stands 0x0407 x.ev 0 = decide (s.cfx F.CAR_RXC_LLR_ADAPT_ERASE x < m.erased) ∧
      (∀ p, (s.car x).fe.waitSet = some p → (s.car x).fe.restore = false → (s.car x).fe.cmp = none →
        s.stepsShed = false → (t.car x).fe.set = p ∧ (t.car x).fe.prevSet = (s.car x).fe.set) ∧
      (s.cfx F.CAR_FE_CTL_DC_MODE x = 0 → ∀ (c : Fin 4) (v : Int), m.dc[c.val]? = some v →
        t.cfx F.CAR_FE_DC_VALUE x c = usg 12 (clampI (-2047) 2047 v)) ∧
      (s.cfx F.CAR_FE_CTL_IQ_MODE x = 0 → ∀ (c : Fin 2) (g f : Int), m.iq[c.val]? = some (g, f) →
        t.cfx F.CAR_FE_IQ_GAIN x c = usg 16 (clampI 0x2000 0x6000 g) ∧
        t.cfx F.CAR_FE_IQ_PHASE x c = usg 16 (clampI (-16384) 16384 f)) ∧
      (∀ k, k.reg ≠ .CAR_FE_DC → k.reg ≠ .CAR_FE_IQ → t.rd k = s.rd k) ∧ s.onlyIn t (.fe x :: behind x)) ∧
    (∀ (x : Carrier) (m : Option SfMeas), ∃ t, exec (.symbolFrameBoundary x .tx m) s = .next t ∧
      ((t.car x).tx.chain = true → (t.car x).tx.pilot = t.cfx F.CAR_TX_CTL_PILOT x ∧
        (t.car x).tx.ents = (List.range (2 ^ t.cfx F.CAR_TX_CTL_SC_LOG2 x)).map fun i => t.cfx F.CAR_TX_SC_E x i) ∧
      ((∀ p ∈ s.regs.pend, p.kind ≠ .sf) → s.onlyIn t (behind x)))

/-- R239 to R242, R256, R258: a word and a good header in HUNT start a candidate and carry one on to its next match; the
earliest with three makes FRAME. In FRAME a window is checked at the predicted bit and one to each side. Five failures lose
frame alignment, an MFC in order gains ALIGNED, three wrong FNs or two wrong groups lose it; loss of frame and too short
frames are raised and cleared by their runs. -/
def Obligations.FramerStates : Prop :=
  ∀ (s : State) (x : Carrier), s.sys.held = false →
    (∀ (pos : Nat) (b : Bytes) (unc : List (Nat × Nat)), (s.car x).fec.st = .locked → (s.car x).tr.st = .hunt →
      beAt (shiftBits 1 b) 0 4 = faw → hdrGood (shiftBits 1 b) = true →
      ∃ t, exec (.rxFrameReceived x pos (some (b, unc))) s = .next t ∧ s.onlyIn t [.tr x, .fec x] ∧ (t.car x).fec.st = .locked ∧
      ((s.car x).tr.cands = [] → (t.car x).tr.cands =
        [⟨pos, 1, beAt (shiftBits 1 b) 6 3, byteAt (shiftBits 1 b) 4, none, ⟨b, unc⟩⟩]) ∧
      (∀ c, (s.car x).tr.cands = [c] → c.matched < 3 → c.pos + c.next = pos →
        byteAt (shiftBits 1 b) 4 = (c.fn + 1) % 256 → (t.car x).tr.cands =
        [⟨pos, c.matched + 1, beAt (shiftBits 1 b) 6 3, byteAt (shiftBits 1 b) 4, some c.last, ⟨b, unc⟩⟩])) ∧
    (∀ (pos : Nat) (b : Bytes) (unc : List (Nat × Nat)), (s.car x).fec.st = .locked → (s.car x).tr.st = .frame →
      s.regs.pend = [] → ∃ t, exec (.rxFrameReceived x pos (some (b, unc))) s = .next t ∧
      s.onlyIn t [.tr x, .fec x, .plan x, .counters] ∧ (t.car x).fec.st = .locked ∧ (t.car x).tr.st = .frame ∧
      ((∀ d ∈ [1, 0, 2], 2 < popcount 32 (beAt (shiftBits d b) 0 4 ^^^ faw)) →
        (t.car x).tr.fails = (s.car x).tr.fails + 1 ∧ (t.car x).tr.fn = ((s.car x).tr.fn + 1) % 256) ∧
      (popcount 32 (beAt (shiftBits 1 b) 0 4 ^^^ faw) ≤ 2 → (t.car x).tr.fails = 0 ∧
        (hdrGood (shiftBits 1 (b.take 16)) = true → (t.car x).tr.fn = byteAt (shiftBits 1 (b.take 16)) 4))) ∧
    (s.receives x →
      (∀ c, (s.car x).fec.st = .locked → (s.car x).tr.st = .hunt →
        ((s.car x).tr.cands.filter fun c => decide (3 ≤ c.matched)) = [c] →
        ∃ t, exec (.frameFound x) s = .next t ∧ (t.car x).tr.st = .frame ∧ (t.car x).tr.fn = c.fn ∧
        t.stands 0x0801 x.ev 0 = false ∧ s.onlyIn t (behind x)) ∧
      (∀ m, (s.car x).tr.st = .frame → (s.car x).tr.ready = some m →
        ∃ t, exec (.multiframeAligned x) s = .next t ∧ (t.car x).tr.st = .aligned ∧ (t.car x).tr.mfc = m ∧ t.stands 0x0803 x.ev 0 = false ∧ s.onlyIn t (behind x)) ∧
      (5 ≤ (s.car x).tr.fails → (s.car x).tr.st ≠ .hunt → (s.car x).fec.st = .locked →
        ∃ t, exec (.oof x) s = .next t ∧ (t.car x).tr.st = .hunt ∧ t.stands 0x0801 x.ev 0 = true ∧
        s.onlyIn t (behind x)) ∧
      ((s.car x).tr.st = .aligned → 3 ≤ (s.car x).tr.fnBad ∨ 2 ≤ (s.car x).tr.grpBad →
        ∃ t, exec (.lossOfMultiframe x) s = .next t ∧ (t.car x).tr.st = .frame ∧ (t.car x).tr.fn = (s.car x).tr.hfn ∧
        t.stands 0x0803 x.ev 0 = true ∧ s.onlyIn t (behind x)) ∧
      (∃ t, exec (.frameTooShort x) s = .next t ∧ s.onlyIn t (behind x) ∧
        (3 ≤ (s.car x).tr.shortRun → t.stands 0x0807 x.ev 0 = true) ∧
        ((s.car x).tr.shortRun < 3 → 3 ≤ (s.car x).tr.longRun → t.stands 0x0807 x.ev 0 = false))) ∧
    (∃ t, exec (.lof x) s = .next t ∧ s.onlyIn t defParts ∧
      (s.stands 0x0801 x.ev 0 = true → t.stands 0x0802 x.ev 0 = true) ∧
      (s.stands 0x0801 x.ev 0 = false → (s.car x).tr.st ≠ .hunt → t.stands 0x0802 x.ev 0 = false)) ∧
    (∀ (pos : Nat) (got : Option (Bytes × List (Nat × Nat))), ∃ t, exec (.rxFrameReceived x pos got) s = .next t ∧
      t.sys.txFn = s.sys.txFn ∧ ((s.car x).fec.st ≠ .locked → t = s)) ∧
    (∀ (pos : Nat) (b : Bytes) (unc : List (Nat × Nat)), (s.car x).fec.st = .locked → (s.car x).tr.st = .aligned →
      s.regs.pend = [] → (s.car x).plan.recov = none → (s.car x).plan.rxPend = none → (s.car x.other).plan.side = none →
      ∃ t, exec (.rxFrameReceived x pos (some (b, unc))) s = .next t ∧ (t.car x).tr.st = .aligned ∧
      t.regs.active = s.regs.active ∧
      ((∀ d ∈ [1, 0, 2], 2 < popcount 32 (beAt (shiftBits d b) 0 4 ^^^ faw)) →
        (t.car x).tr.fails = (s.car x).tr.fails + 1 ∧ (t.car x).tr.fn = ((s.car x).tr.fn + 1) % 256) ∧
      (popcount 32 (beAt (shiftBits 1 b) 0 4 ^^^ faw) ≤ 2 → (t.car x).tr.fails = 0))

/-- R246, R248 to R253: remote defect indication follows its runs of five; a trace repeated three times is accepted and
compared; an interval judges the bit errors of the section against its threshold. A message of yours waits behind at most
15 others; a received one is taken off, and counted as good or discarded; a good one of Plaile's joins those that wait for the
rows that act on them. -/
def Obligations.FrameOverhead : Prop :=
  ∀ (s : State) (x : Carrier), s.sys.held = false →
    (∃ t, exec (.rdiReceived x none) s = .next t ∧ s.onlyIn t (.ciph :: sendParts x ++ defParts) ∧
      (5 ≤ (s.car x).tr.rdiRun → t.stands 0x0804 x.ev 0 = true) ∧
      ((s.car x).tr.rdiRun < 5 → 5 ≤ (s.car x).tr.noRdi → t.stands 0x0804 x.ev 0 = false)) ∧
    (∀ c : Fin 1024, ∃ t, exec (.rdiReceived x (some c)) s = .next t ∧ s.onlyIn t defParts ∧
      (5 ≤ (s.path x c).rdiRun → t.stands 0x0808 x.ev c = true) ∧
      ((s.path x c).rdiRun < 5 → 5 ≤ (s.path x c).noRdi → t.stands 0x0808 x.ev c = false)) ∧
    (3 ≤ (s.car x).tr.trace.same → s.receives x → ∃ t, exec (.traceAccepted x none) s = .next t ∧
      (t.car x).tr.trace.acc = (s.car x).tr.trace.last ∧ s.onlyIn t (behind x) ∧
      t.stands 0x0805 x.ev 0 = (s.cfx F.CAR_TR_RX_CTL_STIM_EN x == 1 &&
        s.regBytes .CAR_TR_STRACE_EXP x 0 16 != (s.car x).tr.trace.last)) ∧
    (∃ t, exec (.degInterval x) s = .next t ∧ (t.car x).tr.bip10 = 0 ∧
      ((t.car x).tr.badRun, (t.car x).tr.goodRun) = degRuns (s.car x).tr.whole (s.cfx F.CAR_TR_RX_DEG_SDEG_THR x)
        (s.car x).tr.bip10 ((s.car x).tr.badRun, (s.car x).tr.goodRun) ∧
      (max 1 (s.cfx F.CAR_TR_RX_CTL_DEG_N x) ≤ (t.car x).tr.badRun → t.stands 0x0806 x.ev 0 = true) ∧
      (max 1 (s.cfx F.CAR_TR_RX_CTL_DEG_N x) ≤ (t.car x).tr.goodRun → t.stands 0x0806 x.ev 0 = false) ∧
      s.onlyIn t (.tr x :: .regs :: .ciph :: .seam :: .cli :: defParts)) ∧
    (∀ (fn : Fn) (r : Nat) (c : ExecCmd), s.running fn r 0x0108 = some c → carOf (byteAt c.desc 16) = x →
      0x80 ≤ byteAt (padTo (leAt c.desc 18 2) c.data) 0 →
      ((s.car x).tr.yours.length < 15 → ∃ t, exec (.msgSend fn r) s = .next t ∧
        (t.car x).tr.yours = (s.car x).tr.yours ++ [wire (padTo (leAt c.desc 18 2) c.data)] ∧
        t.ring fn r = (s.finish fn r 0 0).ring fn r ∧ s.onlyIn t (.tr x :: cmdParts)) ∧
      (16 ≤ (s.car x).tr.yours.length → exec (.msgSend fn r) s = .next (s.finish fn r 2 0))) ∧
    (∀ (m : Bytes) (l : List Bytes), (s.car x).tr.whole1 = m :: l → ∃ t, exec (.messageReceived x) s = .next t ∧
      (t.car x).tr.whole1 = l ∧ s.onlyIn t (.tr x :: .plan x :: .ciph :: .host :: evParts) ∧
      ((msgCheck m).1 = 0 → (msgCheck m).2.1 < 0x40 →
        (t.car x).plan.inbox = (s.car x).plan.inbox ++ [sub m 2 (msgCheck m).2.2]) ∧
      ((msgCheck m).1 = 0 → 0x40 ≤ (msgCheck m).2.1 → (msgCheck m).2.1 < 0x80 →
        (t.ka x).inbox = (s.ka x).inbox ++ [sub m 2 (msgCheck m).2.2]) ∧
      ((msgCheck m).1 = 0 → t.cnt .CAR_TR_MSG_RX_LO (carIdx .CAR_TR_MSG_RX_LO x 0) =
        (s.cnt .CAR_TR_MSG_RX_LO (carIdx .CAR_TR_MSG_RX_LO x 0) + 1) % 2 ^ 64) ∧
      ((msgCheck m).1 ≠ 0 → t.cnt .CAR_TR_MSG_BAD (carIdx .CAR_TR_MSG_BAD x 0) =
        min 0xFFFFFFFF (s.cnt .CAR_TR_MSG_BAD (carIdx .CAR_TR_MSG_BAD x 0) + 1)))

/-! ### The line cipher (chapter 09) -/

/-- R267, R270, R272, R273, R277: a key is installed in a free place and refused without one; the soft limit is noted once
and the hard one stands; a peer key is stored; turning EN off erases the places that no direction uses and leaves the
others to their boundaries. A command, the rolling period and the minute of a retry start an exchange of their channels. -/
def Obligations.CipherKeys : Prop :=
  ∀ (s : State), s.sys.held = false →
    (∀ c : Fin 1024, (s.ciphCh c).tx.isSome = true → (s.ciphCh c).soft = false → 0xC0000000 ≤ s.cnt .SEC_CIPH_USE c →
      ∃ t, exec (.keySoftLimit c) s = .next t ∧ (t.ciphCh c).soft = true ∧ s.onlyIn t (.sys :: .ciph :: evParts)) ∧
    (∀ c : Fin 1024, ∃ t, exec (.keyExhausted c) s = .next t ∧ s.onlyIn t defParts ∧
      ((s.ciphCh c).tx.isSome = true → 0xFFFFFFFF ≤ s.cnt .SEC_CIPH_USE c → t.stands 0x0905 0 c = true)) ∧
    (∀ (fn : Fn) (r : Nat) (c : ExecCmd), s.running fn r 0x0401 = some c →
      ((s.ciphCh (leAt c.desc 16 2)).free (s.keyCars (leAt c.desc 16 2)) = none → exec (.keyInstall fn r) s = .next (s.finish fn r 2 0)) ∧
      (∀ p, (s.ciphCh (leAt c.desc 16 2)).free (s.keyCars (leAt c.desc 16 2)) = some p → ∃ t, exec (.keyInstall fn r) s = .next t ∧
        (t.ciphCh (leAt c.desc 16 2)).ent p = some ⟨leAt c.desc 18 3, sub c.data 0 32, sub c.data 32 32,
          some (leAt c.desc 32 7), some (leAt c.desc 39 7), true, true, true, false, false⟩ ∧
        (t.ciphCh (leAt c.desc 16 2)).ent (1 - p) = (s.ciphCh (leAt c.desc 16 2)).ent (1 - p) ∧
        (∀ d, d ≠ leAt c.desc 16 2 → t.ciphCh d = s.ciphCh d) ∧
        t.ring fn r = (s.finish fn r 0 p).ring fn r ∧ s.onlyIn t (.ciph :: cmdParts))) ∧
    (∀ (fn : Fn) (r : Nat) (c : ExecCmd), s.running fn r 0x0402 = some c → ∃ t, exec (.peerLoad fn r) s = .next t ∧
      (t.ka (carOf (byteAt c.desc 16))).peer = c.data.take 2592 ∧ s.onlyIn t (.sys :: .ciph :: cmdParts)) ∧
    (∀ (fn : Fn) (r : Nat) (c : ExecCmd) (x : Carrier), s.running fn r 0x0109 = some c → carOf (byteAt c.desc 16) = x →
      (s.kaReady x = false → exec (.keyAgree fn r) s = .next (s.finish fn r 11 4)) ∧
      (s.canAgree x (mapChans (c.data.take 128)) → ∃ t, exec (.keyAgree fn r) s = .next t ∧
        s.agrees t x (mapChans (c.data.take 128)) ((mapChans (c.data.take 128)).filter (s.ka x).dueS.contains) ∧
        t.ring fn r = (s.finish fn r 0 (t.ka x).session).ring fn r ∧ s.onlyIn t (.sys :: .ciph :: cmdParts))) ∧
    (∀ c : Fin 1024, ∃ t, exec (.ciphEnWrite c false) s = .next t ∧ t.cf F.SEC_CIPH_CH_CTL_EN c = 0 ∧
      (s.cf F.SEC_CIPH_CH_CTL_EN c = 1 → (t.ciphCh c).clear = true ∧
        ((s.ciphCh c).used (s.keyCars c) 0 = false → (t.ciphCh c).p0 = none) ∧
        ((s.ciphCh c).used (s.keyCars c) 1 = false → (t.ciphCh c).p1 = none) ∧
        ((s.ciphCh c).tx = some 0 → (t.ciphCh c).p0 = (s.ciphCh c).p0) ∧
        ((s.ciphCh c).tx = some 1 → (t.ciphCh c).p1 = (s.ciphCh c).p1)) ∧
      (∀ d : Nat, d ≠ c → t.ciphCh d = s.ciphCh d) ∧ s.onlyIn t [.regs, .ciph]) ∧
    (∀ c : Fin 1024, ∃ t, exec (.ciphEnWrite c true) s = .next t ∧ t.cf F.SEC_CIPH_CH_CTL_EN c = 1 ∧ s.onlyIn t [.regs]) ∧
    (∀ (c : Fin 1024) (x : Carrier), s.cf F.SEC_CIPH_CH_CTL_EN c = 1 → s.cf F.SEC_CIPH_CH_CTL_AGREE c = 1 →
      s.cf F.SEC_CIPH_CH_CTL_INIT c = 1 → s.cf F.SEC_CIPH_CH_CTL_ROLL_MIN c ≠ 0 → s.kaCar c = some x →
      s.canAgree x [c.val] → (s.ka x.other).due = [] → ∃ t, exec (.keyRollDue [c.val]) s = .next t ∧
      s.agrees t x [c.val] [c.val] ∧ s.onlyIn t [.sys, .ciph]) ∧
    (∀ x : Carrier, ((s.ka x).retry = [] → exec (.kaRetryMinute x) s = .next s) ∧
      (s.canAgree x (s.ka x).retry → ∃ t, exec (.kaRetryMinute x) s = .next t ∧ s.agrees t x (s.ka x).retry (s.ka x).retry ∧
        (t.ka x).retry = [] ∧ s.onlyIn t [.sys, .ciph]))

/-- R274 to R278, R340: when its operations are complete an exchange sends INIT, RESP or CONFIRM in its form and goes
on; a message is checked and answered, refused with its reason, or ends the exchange; a repeated INIT is answered with the
same RESP; a message without an answer is sent again twice and then fails the exchange, which counts; while its frames are
still in Tack its timer does not run. A message's row acts on the oldest key message that waits, and does nothing where that is
another one. Where no channel is due and a failure takes no key away, no other exchange follows. -/
def Obligations.KeyExchange : Prop :=
  ∀ (s : State) (x : Carrier), s.sys.held = false → (s.ka x).due = [] →
    ((s.ka x).step = 1 → ∃ t, exec (.kaCryptoDone x) s = .next t ∧ (t.ka x).step = 0 ∧ (t.ka x).sends = 1 ∧
      (t.ka x).initB.length = 6363 ∧ (t.ka x).initB.take 4 = kaHdr 0x41 (s.ka x).session ∧
      sub (t.ka x).initB 164 3 = beBytes 3 (s.ka x).epoch ∧ s.sentKey t x (t.ka x).initB ∧
      s.onlyIn t [.sys, .ciph, .tr x, .tk x]) ∧
    ((s.ka x).step = 2 → ∃ t, exec (.kaCryptoDone x) s = .next t ∧ (t.ka x).step = 0 ∧ (t.ka x).state = 2 ∧
      (t.ka x).respB.length = 6367 ∧ (t.ka x).respB.take 4 = kaHdr 0x42 (s.ka x).session ∧
      sub (t.ka x).respB 1732 7 = beBytes 7 s.kaLead ∧ s.sentKey t x (t.ka x).respB ∧
      s.onlyIn t [.sys, .ciph, .tr x, .tk x]) ∧
    ((s.ka x).step = 3 → ∃ t, exec (.kaCryptoDone x) s = .next t ∧ (t.ka x).step = 0 ∧ (t.ka x).state = 3 ∧
      (t.ka x).confB.length = 44 ∧ (t.ka x).confB.take 11 = kaHdr 0x43 (s.ka x).session ++ beBytes 7 s.kaLead ∧
      (t.ka x).key = [] ∧ s.sentKey t x (t.ka x).confB ∧ s.onlyIn t (.ciph :: .tr x :: .tk x :: evParts)) ∧
    (∀ (body : Bytes) (r : List Bytes), (s.ka x).inbox = body :: r → byteAt body 0 = 0x41 → s.boot.idState = 1 →
      (s.ka x).session = beAt body 2 2 → (s.ka x).respB ≠ [] →
      ((s.ka x).state = 2 ∨ (s.ka x).state = 0 ∧ (s.ka x).init = false ∧ (s.ka x).initB = body) →
      ∃ t, exec (.initReceived x body) s = .next t ∧ s.sentKey t x (s.ka x).respB ∧ (t.ka x).state = (s.ka x).state ∧
      (t.ka x).inbox = r ∧ s.onlyIn t [.ciph, .tr x, .tk x]) ∧
    (∀ body : Bytes, (s.ka x).inbox.head? = some body → byteAt body 0 = 0x41 → s.boot.idState = 1 → (s.ka x).state = 0 →
      (s.ka x).initB ≠ body →
      ∃ t, exec (.initReceived x body) s = .next t ∧ (t.ka x).session = beAt body 2 2 ∧ (t.ka x).init = false ∧
      s.onlyIn t (.ciph :: .tr x :: .tk x :: evParts) ∧
      (if (s.kaCheckInit x body).1 = 0 then (t.ka x).state = 2 ∧ (t.ka x).step = 2 ∧ (t.ka x).initB = body ∧
        (t.ka x).chans = (s.kaCheckInit x body).2 ∧ (t.ka x).epoch = beAt body 164 3
      else (t.ka x).state = 0 ∧ (t.ka x).lastErr = (s.kaCheckInit x body).1 ∧
        t.cnt .SEC_CIPH_KA_FAIL 0 = min 0xFFFFFFFF (s.cnt .SEC_CIPH_KA_FAIL 0 + 1) ∧
        s.sentKey t x (kaHdr 0x44 (beAt body 2 2) ++ [BitVec.ofNat 8 (s.kaCheckInit x body).1, 0, 0, 0]))) ∧
    (∀ body : Bytes, (s.ka x).inbox.head? = some body → byteAt body 0 = 0x42 → (s.ka x).session = beAt body 2 2 →
      s.eraseQuiet x → (s.ka x).init = true → (s.ka x).state = 1 → (s.ka x).initB ≠ [] → (s.ka x).respB = [] →
      ∃ t, exec (.respReceived x body) s = .next t ∧ s.onlyIn t (.ciph :: .tr x :: .tk x :: evParts) ∧
      (if Config.mldsaVerify (s.ka x).peer (beBytes 64 (Config.sha3x512 (s.ka x).initB).toNat ++ body.take 1740)
          (body.drop 1740) = true then
        (if (mapChans (sub body 36 128)).filter (s.ka x).chans.contains = [] then (t.ka x).lastErr = 5 ∧ (t.ka x).state = 0
         else (t.ka x).step = 3 ∧ (t.ka x).respB = body ∧ (t.ka x).key = beBytes 32
            (Config.mlkemDecK (s.ka x).dk (sub body 164 1568)).toNat)
       else (t.ka x).lastErr = 3 ∧ (t.ka x).state = 0)) ∧
    (∀ body : Bytes, (s.ka x).inbox.head? = some body → byteAt body 0 = 0x43 → (s.ka x).session = beAt body 2 2 →
      (s.ka x).state = 2 → s.eraseQuiet x →
      (s.ka x).respB ≠ [] → ∃ t, exec (.confirmReceived x body) s = .next t ∧ (t.ka x).state = 0 ∧ (t.ka x).key = [] ∧
      s.onlyIn t (.ciph :: .tr x :: .tk x :: evParts) ∧
      (beNat (body.drop 12) ≠ (Config.sha3x256 ((s.ka x).key ++ kaT (s.ka x).initB (s.ka x).respB ++ sub body 4 7)).toNat →
        (t.ka x).lastErr = 6)) ∧
    (∀ body : Bytes, (s.ka x).inbox.head? = some body → byteAt body 0 = 0x44 → (s.ka x).session = beAt body 2 2 →
      (s.ka x).state ≠ 0 → s.eraseQuiet x →
      ∃ t, exec (.kaErrorReceived x body) s = .next t ∧ (t.ka x).state = 0 ∧
      (byteAt body 4 ≠ 0 → (t.ka x).lastErr = byteAt body 4) ∧
      t.cnt .SEC_CIPH_KA_FAIL 0 = min 0xFFFFFFFF (s.cnt .SEC_CIPH_KA_FAIL 0 + 1) ∧ s.onlyIn t (.ciph :: evParts)) ∧
    (s.tkSending x 5 0x41 = true → exec (.initRetry x) s = .next s) ∧
    (s.tkSending x 5 0x42 = true → exec (.respRetry x) s = .next s) ∧
    ((s.ka x).state = 1 → (s.ka x).initB ≠ [] → (s.ka x).respB = [] → s.tkSending x 5 0x41 = false → s.eraseQuiet x →
      ∃ t, exec (.initRetry x) s = .next t ∧
      ((s.ka x).sends < 3 → (t.ka x).sends = (s.ka x).sends + 1 ∧ s.sentKey t x (s.ka x).initB ∧
        s.onlyIn t [.ciph, .tr x, .tk x]) ∧
      (3 ≤ (s.ka x).sends → (t.ka x).state = 0 ∧ s.onlyIn t (.ciph :: evParts) ∧
        t.cnt .SEC_CIPH_KA_FAIL 0 = min 0xFFFFFFFF (s.cnt .SEC_CIPH_KA_FAIL 0 + 1))) ∧
    ((s.ka x).state = 2 → (s.ka x).respB ≠ [] → s.tkSending x 5 0x42 = false → s.eraseQuiet x →
      ∃ t, exec (.respRetry x) s = .next t ∧
      ((s.ka x).sends < 3 → (t.ka x).sends = (s.ka x).sends + 1 ∧ s.sentKey t x (s.ka x).respB ∧
        s.onlyIn t [.ciph, .tr x, .tk x]) ∧
      (3 ≤ (s.ka x).sends → (t.ka x).state = 0 ∧ s.onlyIn t (.ciph :: evParts) ∧
        t.cnt .SEC_CIPH_KA_FAIL 0 = min 0xFFFFFFFF (s.cnt .SEC_CIPH_KA_FAIL 0 + 1))) ∧
    (∀ body : Bytes,
      (∃ t, exec (.initReceived x body) s = .next t ∧ s.onlyIn t (.sys :: .ciph :: .tr x :: .tk x :: evParts) ∧
        ((s.ka x).state ≠ 1 → s.onlyIn t (.ciph :: .tr x :: .tk x :: evParts)) ∧
        ((s.ka x).inbox.head? ≠ some body ∨ byteAt body 0 ≠ 0x41 → t = s)) ∧
      (∃ t, exec (.respReceived x body) s = .next t ∧ s.onlyIn t (.sys :: .ciph :: .seam :: .cli :: .tr x :: .tk x :: defParts) ∧
        ((s.ka x).inbox.head? ≠ some body ∨ byteAt body 0 ≠ 0x42 → t = s)) ∧
      (∃ t, exec (.confirmReceived x body) s = .next t ∧ s.onlyIn t (.sys :: .ciph :: .seam :: .cli :: .tr x :: .tk x :: defParts) ∧
        ((s.ka x).inbox.head? ≠ some body ∨ byteAt body 0 ≠ 0x43 → t = s)) ∧
      (∃ t, exec (.kaErrorReceived x body) s = .next t ∧ s.onlyIn t (.sys :: .ciph :: .seam :: .cli :: .tr x :: .tk x :: defParts) ∧
        ((s.ka x).inbox.head? ≠ some body ∨ byteAt body 0 ≠ 0x44 → t = s) ∧
        (∀ r, (s.ka x).inbox = body :: r → byteAt body 0 = 0x44 →
          (s.ka x).session ≠ beAt body 2 2 ∨ (s.ka x).state = 0 → t = s.modKa x fun k => { k with inbox := r })))

/-- R265, R266, R269: a tag that was not to be checked is counted so; one that fits makes the run of good ones longer; one
that fits no key is counted, and the run that reaches AUTH_N raises authentication fail. -/
def Obligations.TagChecks : Prop :=
  ∀ (s : State) (x : Carrier) (c : Fin 1024) (r : Inv) (v : Option Bytes), s.sys.held = false →
    ((s.ciphCh c).inp x).done = some r → ((s.ciphCh c).inp x).tag = some v → (s.ciphCh c).rxLost x = false →
    ∃ t, exec (.tagCheck x c) s = .next t ∧ ((t.ciphCh c).inp x).done = none ∧ ((t.ciphCh c).inp x).tag = none ∧
    s.onlyIn t (.sys :: .ciph :: .seam :: .cli :: defParts) ∧
    (v = none ∨ r.bad = true ∨ r.key = [] →
      t.cnt .SEC_CIPH_UNCHK x.num = min 0xFFFFFFFF (s.cnt .SEC_CIPH_UNCHK x.num + 1) ∧ s.onlyIn t [.ciph, .counters]) ∧
    (∀ w, v = some w → r.bad = false → r.key ≠ [] → (s.ciphCh c).otherOf x r = none →
      if w = r.tagOf x c r.key r.epoch then
        ((t.ciphCh c).inp x).fails = 0 ∧ ((t.ciphCh c).inp x).passes = ((s.ciphCh c).inp x).passes + 1 ∧
        (8 ≤ ((t.ciphCh c).inp x).passes → t.stands 0x0901 x.ev c = false)
      else ((t.ciphCh c).inp x).fails = ((s.ciphCh c).inp x).fails + 1 ∧ ((t.ciphCh c).inp x).passes = 0 ∧
        t.cnt .SEC_CIPH_CH_AUTH c = min 0xFFFFFFFF (s.cnt .SEC_CIPH_CH_AUTH c + 1) ∧
        (max 1 (s.cf F.SEC_CIPH_CTL_AUTH_N 0) ≤ ((t.ciphCh c).inp x).fails → t.stands 0x0901 x.ev c = true))

/-! ### Seam (chapter 10) -/

/-- R284, R285, R287, R293 to R297, R300, R304, R305: a multiframe received on both carriers is paired, and the sixteenth
that exceeds the window raises the defect; the sixteenth that drifts calls for a realignment, as the host's request does, and
the lag carrier's next multiframe boundary makes it. A copy's cause ceases only after its delay and if it no longer stands;
hold-off and wait-to-restore end in the switch that waits; a command acts on its channels. At P the selected copy's part, when
good, is handed on. -/
def Obligations.SeamOperation : Prop :=
  ∀ (s : State), s.sys.held = false →
    (∀ m tA tB : Nat, s.seam.rxA.has m = true → s.seam.rxB.has m = true → (s.seam.rxA.last m || s.seam.rxB.last m) = true →
      ∃ t, exec (.seamPairMeasure m tA tB) s = .next t ∧ s.onlyIn t (.seam :: .cli :: defParts) ∧
      t.seam.arr = some ((tA : Int) - 40960 * m, (tB : Int) - 40960 * m) ∧ t.seam.unpaired = 0 ∧ t.seam.leadKnown = true ∧
      (s.stands 0x0A05 0 0 = false → s.cf F.SEAM_CTL_WINDOW_MS 0 * 1000000 < ((tB : Int) - tA).natAbs →
        15 ≤ s.seam.overRun → t.stands 0x0A05 0 0 = true) ∧
      (s.stands 0x0A05 0 0 = false → ((tB : Int) - tA).natAbs ≤ s.cf F.SEAM_CTL_WINDOW_MS 0 * 1000000 →
        s.guardNs < ((tB : Int) - tA - s.seam.deltaUse).natAbs * 2 → 15 ≤ s.seam.driftRun →
        (s.cf F.SEAM_CTL_REALIGN_AUTO 0 = 1 → t.seam.due = some s.sys.dtime) ∧
        (s.cf F.SEAM_CTL_REALIGN_AUTO 0 ≠ 1 → t.stands 0x0A08 0 0 = true))) ∧
    (∀ m tA tB : Nat, s.seam.rxA.has m = false ∨ s.seam.rxB.has m = false → exec (.seamPairMeasure m tA tB) s = .next s) ∧
    (∀ (x : Carrier) (a : Int × Int), x = s.lead.other → s.seam.due ≠ none → s.seam.arr = some a →
      (s.seamMf x).seam.deltaUse = a.2 - a.1 ∧ (s.seamMf x).seam.due = none ∧
      (s.seamMf x).cnt .SEAM_REALIGN_CNT 0 = min 0xFFFFFFFF (s.cnt .SEAM_REALIGN_CNT 0 + 1) ∧
      (s.seamMf x).stands 0x0A08 0 0 = false) ∧
    (∀ (c : Fin 1024) (x : Carrier), placeOf s.rd c = .prot ∨ placeOf s.rd c = .bonded →
      (∃ t, exec (.copyClearDelay c x 0) s = .next t ∧ s.onlyIn t (.seam :: .cli :: defParts) ∧
        ((t.sch c).copy x).psfD = (((s.sch c).copy x).psf || s.psf x c)) ∧
      (∃ t, exec (.copyClearDelay c x 1) s = .next t ∧ s.onlyIn t (.seam :: .cli :: defParts) ∧
        ((t.sch c).copy x).authD = (((s.sch c).copy x).auth || s.authAct x c)) ∧
      (∃ t, exec (.copyClearDelay c x 2) s = .next t ∧ s.onlyIn t (.seam :: .cli :: defParts) ∧
        ((t.sch c).copy x).sdD = (((s.sch c).copy x).sd || s.stands 0x080C x.ev c)) ∧
      (∃ t, exec (.copyClearDelay c x 3) s = .next t ∧ s.onlyIn t (.seam :: .cli :: defParts) ∧
        ((t.sch c).copy x).absentD =
          (((s.sch c).copy x).absent || (s.chan c).shed || !(s.ownsSlot .CAR_TR_SLOT_RX x c))) ∧
      (∃ t, exec (.copyClearDelay c x 4) s = .next t ∧ s.onlyIn t (.seam :: .cli :: defParts) ∧
        ((t.sch c).copy x).winD = (((s.sch c).copy x).win || s.stands 0x0A05 0 0))) ∧
    (∀ c : Fin 1024, placeOf s.rd c = .prot → (s.sch c).hold = true → ∃ t, exec (.holdOffExpire c) s = .next t ∧
      s.onlyIn t (.seam :: .cli :: defParts) ∧ (t.sch c).hold = false ∧
      (∀ d, seamRequest (s.sch c).cmd (t.copyCond c .A) (t.copyCond c .B) = some d →
        (t.sch c).req = d.1 ∧ (t.sch c).sel = d.2)) ∧
    (∀ c : Fin 1024, placeOf s.rd c = .prot → (s.sch c).wtr = true → (s.sch c).prefOk = true →
      ∃ t, exec (.wtrExpire c) s = .next t ∧ s.onlyIn t (.seam :: .cli :: defParts) ∧ (t.sch c).wtr = false ∧
      (s.cf F.SEAM_GRP_CTL_REVERT (s.grpOf c) = 1 → t.copyCond c (carOf (s.cf F.SEAM_GRP_CTL_PREF (s.grpOf c))) = 0 →
        seamRequest (s.sch c).cmd (t.copyCond c .A) (t.copyCond c .B) = none →
        (t.sch c).sel = carOf (s.cf F.SEAM_GRP_CTL_PREF (s.grpOf c)))) ∧
    (∀ (fn : Fn) (r : Nat) (c : ExecCmd), s.running fn r 0x0003 = some c →
      (byteAt c.desc 18 = 0 → leAt c.desc 16 2 ∈ s.seamChans → placeOf s.rd (leAt c.desc 16 2) = .prot → ∃ t, exec (.seamSwitch fn r) s = .next t ∧
        s.onlyIn t (.seam :: .cli :: cmdParts) ∧ (t.sch (leAt c.desc 16 2)).cmd = byteAt c.desc 19 ∧
        (byteAt c.desc 19 = 1 → (t.sch (leAt c.desc 16 2)).sel = .A) ∧
        (byteAt c.desc 19 = 2 → (t.sch (leAt c.desc 16 2)).sel = .B) ∧
        (∀ d, d ≠ leAt c.desc 16 2 → t.sch d = s.sch d) ∧ t.ring fn r = (s.finish fn r 0 0).ring fn r) ∧
      (byteAt c.desc 18 ≠ 0 → ∀ d ∈ s.seamChans, placeOf s.rd d = .prot → s.grpOf d = leAt c.desc 16 2 →
        ∃ t, exec (.seamSwitch fn r) s = .next t ∧ (t.sch d).cmd = byteAt c.desc 19) ∧
      (byteAt c.desc 18 = 0 → leAt c.desc 16 2 ∉ s.seamChans → exec (.seamSwitch fn r) s = .next (s.finish fn r 11 4))) ∧
    (s.seam.failAt ≠ some s.sys.dtime → ∃ t, exec .seamRealign s = .next t ∧
      s.onlyIn t (.seam :: .cli :: defParts) ∧ t.seam.due = some s.sys.dtime) ∧
    (s.seam.failAt = some s.sys.dtime → exec .seamRealign s = .next s) ∧
    (∀ (n : Nat) (h : Bool) (l : List (Carrier × Nat)), ∃ t, exec (.seamFrameOut n h l) s = .next t ∧
      s.onlyIn t (.sys :: .seam :: .cli :: defParts) ∧ t.seam.lastOut = some n ∧
      t.seam.store = (s.seam.store.filter fun q => decide (n < q.frame))) ∧
    (∀ n : Nat, s.seamDead = false → ∃ t, exec (.seamFrameOut n false []) s = .next t ∧
      (∀ c ∈ s.ringChans, placeOf s.rd c = .prot → ∀ q, s.seam.store.find? (fun q => q.frame == n &&
          q.car == (t.sch c).sel && q.ch == c) = some q → q.bad = false →
        (t.chan c).rxq = (s.chan c).rxq ++ [⟨n, q.body, false, q.map, false, q.frm⟩]))

/-! ### Client ports and channels (chapter 11) -/

/-- R312, R313, R319 to R324, R327, R328: a port's signal, lock and FEC intervals and a group's overhead set their states and
defects; a port whose mode is off takes no notice. A calendar switch compares the channels of its group. The demapper takes
one part: in OUT it looks for entry, in IN it delivers the blocks that the bytes the part's count places complete. Lost mapping
and client signal fail follow their runs; a rate adaptation fault marks the bytes under way errored. -/
def Obligations.ClientPortsAndChannels : Prop :=
  ∀ (s : State), s.sys.held = false →
    (∀ (p : Fin 16) (v : Bool), s.portMode p ≠ 0 →
      (∃ t, exec (.portLos p v) s = .next t ∧ (t.port p).los = v ∧ t.stands 0x0B01 0 p = v ∧ s.onlyIn t (.cli :: defParts)) ∧
      (∃ t, exec (.portLol p v) s = .next t ∧ (t.port p).lol = v ∧ t.stands 0x0B02 0 p = v ∧ s.onlyIn t (.cli :: defParts))) ∧
    (∀ (p : Fin 16) (a u : Nat), s.portMode p ≠ 0 → ∃ t, exec (.portUncInterval p a u) s = .next t ∧
      s.onlyIn t (.cli :: defParts) ∧
      t.cnt .CLI_PORT_FEC_UNC p = min 0xFFFFFFFF (s.cnt .CLI_PORT_FEC_UNC p + u) ∧
      (s.cf F.CLI_PORT_CTL_UNC_THR p ≠ 0 → s.cf F.CLI_PORT_CTL_UNC_THR p ≤ u →
        (t.port p).uncRun = (s.port p).uncRun + 1 ∧ (2 ≤ (s.port p).uncRun → t.stands 0x0B03 0 p = true)) ∧
      (u < s.cf F.CLI_PORT_CTL_UNC_THR p ∨ s.cf F.CLI_PORT_CTL_UNC_THR p = 0 →
        (t.port p).uncRun = 0 ∧ (9 ≤ (s.port p).okRun → t.stands 0x0B03 0 p = false))) ∧
    (∀ p : Fin 16, s.portMode p = 0 → ∀ (v : Bool) (a u : Nat), exec (.portLos p v) s = .next s ∧
      exec (.portLol p v) s = .next s ∧ exec (.portUncInterval p a u) s = .next s) ∧
    (∀ (g : Fin 8) (a : Bool) (b : Nat × Nat), ∃ t, exec (.flexeGroupDefect g a b) s = .next t ∧ (t.flxGrp g).lock = a ∧
      (t.flxGrp g).defect = !(a && s.flxMatch g b) ∧ t.stands 0x0B04 0 g = !(a && s.flxMatch g b) ∧
      s.onlyIn t (.cli :: defParts)) ∧
    (∀ (g : Fin 8) (b : Nat × Nat), b.1 ≠ s.cf F.CLI_FLX_CTL_GROUP_NUM g ∨ b.2 ≠ (s.flxPhys g).length →
      s.flxMatch g b = false) ∧
    (∀ (g : Fin 8) (v : Fin 2), (s.cf F.CLI_FLX_CTL_CAL_TX g = v → ∃ t, exec (.flexeCalendarSwitch g true v) s = .next t ∧
        (t.flxGrp g).calTx = v ∧ s.onlyIn t [.cli]) ∧
      (s.cf F.CLI_FLX_CTL_CAL_TX g ≠ v → exec (.flexeCalendarSwitch g true v) s = .next s) ∧
      (∃ t, exec (.flexeCalendarSwitch g false v) s = .next t ∧ (t.flxGrp g).cal = v ∧ s.onlyIn t (.cli :: defParts) ∧
        ∀ c ∈ s.onChans, s.cf F.CLI_CH_CFG_PORT c % 8 = g → s.cf F.CLI_CH_CFG_TYPE c = 6 →
          t.stands 0x0B05 0 c = (s.calCount g v (s.cf F.CLI_CH_FLX_CLIENT c) != s.cf F.CLI_CH_CFG_N c))) ∧
    (∀ (c : Fin 1024) (q : RxPart) (l : List RxPart), (s.chan c).rxq = q :: l → s.cf F.CLI_CH_CFG_EN c = 1 →
      placeOf s.rd c ≠ .none → (s.chan c).shed = false → ∃ t, exec (.demapFrame c) s = .next t ∧ (t.chan c).rxq = l ∧
      s.onlyIn t (.cli :: defParts) ∧
      ((s.chan c).mapIn = false → q.noMap = false → q.frame % 256 = 255 → (t.chan c).entry = 1 ∧
        (t.chan c).refM = some q.map) ∧
      ((s.chan c).mapIn = true → (∃ f, (s.chan c).last = some f ∧ f + 1 = q.frame) → 1 < q.frame % 256 → q.noMap = false →
        (∀ g, g = (s.chan c).egress ++ (takeBytes q.body.length
            (mapDiff (mapB s.rd c) q.map ((s.chan c).refM.getD 0)) 0 q.body).map
              (fun b => some (b, q.bad || (s.chan c).guessed)) →
          (t.chan c).egress = g.drop (257 * (g.length / 257)) ∧
          (257 ≤ g.length → (s.chan c).repl = false →
            t.io.out = .client c (streamBlocks g (g.length / 257)) :: s.io.out) ∧
          (g.length < 257 ∨ (s.chan c).repl = true → t.io.out = s.io.out)) ∧
        (t.chan c).last = some q.frame ∧ (t.chan c).refM = some q.map ∧ (t.chan c).mapIn = true)) ∧
    (∀ c : Fin 1024, (s.chan c).mapIn = true → 3 ≤ (s.chan c).noZero → ∃ t, exec (.lossOfMapping c) s = .next t ∧
      (t.chan c).mapIn = false ∧ t.stands 0x0B09 0 c = true ∧ s.onlyIn t (.cli :: defParts)) ∧
    (∀ c : Fin 1024, s.cf F.CLI_CH_CFG_EN c = 1 → ∃ t, exec (.csfReceived c) s = .next t ∧ s.onlyIn t (.cli :: defParts) ∧
      (3 ≤ (s.chan c).csfRun → (t.chan c).csfRx = true ∧ t.stands 0x0B06 0 c = true) ∧
      ((s.chan c).csfRun < 3 → 3 ≤ (s.chan c).noCsf → (t.chan c).csfRx = false ∧ t.stands 0x0B06 0 c = false)) ∧
    (∀ c : Fin 1024, s.cf F.CLI_CH_CFG_EN c = 1 → ∃ t, exec (.rateAdaptFault c) s = .next t ∧ s.onlyIn t (.cli :: evParts) ∧
      (t.chan c).egress = (s.chan c).egress.map (fun e => e.map fun b => (b.1, true)) ∧
      t.io.out = .recentre c :: (s.occ 0x0B0A 0 c).io.out ∧ t.cnt = (s.occ 0x0B0A 0 c).cnt)

/-! ### The Tack channel (chapter 12) -/

/-- R332 to R334, R339, R351, R354, R355: the first queued frame that may start goes out as a burst, and at its end it is
counted. A HELLO and an RDI frame join a queue that has room. A dying gasp goes out at SF 12, or waits for the burst that it
cuts. PFAIL_N locks both carriers and its release frees them; in a warm reset the gasp waits. -/
def Obligations.TackSending : Prop :=
  ∀ (s : State) (x : Carrier), s.sys.held = false →
    ((s.car x).tk.burst = none → (s.car x).tk.gasp = none → (s.car x).tk.lock = false →
      (s.tkNext x = none → exec (.tackBurstStart x) s = .next s) ∧
      (∀ f, s.tkNext x = some f → ∃ t, exec (.tackBurstStart x) s = .next t ∧ s.onlyIn t (.tk x :: evParts) ∧
        (t.car x).tk.seq = ((s.car x).tk.seq + 1) % 256 ∧ ∃ b, (t.car x).tk.burst = some b ∧ b.frame = f ∧
        b.alone = (!s.tkLive x) ∧ b.start = s.sys.dtime) ∧
      (∀ f, s.tkNext x = some f → f.typ ≠ 1 → f.typ ≠ 3 → (s.car x).tk.wait = [] →
        ∃ t, exec (.tackBurstStart x) s = .next t ∧ s.onlyIn t (.tk x :: evParts) ∧
        (t.car x).tk.queue = (s.car x).tk.queue.erase f ∧ (t.car x).tk.seq = ((s.car x).tk.seq + 1) % 256 ∧
        (∃ b, (t.car x).tk.burst = some b ∧ b.frame = f ∧ b.alone = (!s.tkLive x) ∧ b.cut = false ∧
          b.start = s.sys.dtime ∧ b.stop = s.sys.dtime + tkAir b.sf (2 ^ b.rep) f.body.length b.ramp * 65536 ∧
          t.io.out = .burst x b.alone b.sf b.rep
            (tkBytes f.typ (s.car x).tk.seq (b2n b.alone + 2 * x.num) f.body) :: s.io.out))) ∧
    (∀ b, (s.car x).tk.burst = some b → ∃ t, exec (.tackBurstEnd x) s = .next t ∧ s.onlyIn t (behind x) ∧
      ((s.car x).tk.gasp = none → (t.car x).tk.burst = none) ∧
      (∀ n, (s.car x).tk.gasp = some n → (t.car x).tk.gasp = none) ∧
      (b.cut = true → t.cnt .CAR_TK_TX_FRM_LO (carIdx .CAR_TK_TX_FRM_LO x 0) =
        s.cnt .CAR_TK_TX_FRM_LO (carIdx .CAR_TK_TX_FRM_LO x 0))) ∧
    (∀ b, (s.car x).tk.burst = some b → b.cut = false → (s.car x).tk.gasp = none →
      ∃ t, exec (.tackBurstEnd x) s = .next t ∧ (t.car x).tk.burst = none ∧ (t.car x).tk.waitVals = [] ∧
      t.cnt .CAR_TK_TX_FRM_LO (carIdx .CAR_TK_TX_FRM_LO x 0) =
        (s.cnt .CAR_TK_TX_FRM_LO (carIdx .CAR_TK_TX_FRM_LO x 0) + 1) % 2 ^ 64 ∧ s.onlyIn t (behind x)) ∧
    ((s.car x).tk.queue.length < 15 →
      (∃ t, exec (.tackHelloCmd x) s = .next t ∧ (t.car x).tk.queue = (s.car x).tk.queue ++ [⟨1, [], false⟩] ∧
        s.onlyIn t [.tk x]) ∧
      (s.cfx F.CAR_TK_TX_CTL_HELLO_EN x = 1 → (s.car x).tr.st ≠ .aligned → ∃ t, exec (.helloTimer x) s = .next t ∧
        (t.car x).tk.queue = (s.car x).tk.queue ++ [⟨1, [], false⟩] ∧ s.onlyIn t [.tk x]) ∧
      (s.cfx F.CAR_TK_TX_CTL_RDI_EN x = 1 → (s.car x).tr.rdiTx = true → ∃ t, exec (.rdiFrameTimer x) s = .next t ∧
        (t.car x).tk.queue = (s.car x).tk.queue ++ [⟨2, s.rdiBody x, false⟩] ∧ s.onlyIn t [.tk x])) ∧
    (s.tkCan x 3 = true → (s.car x).tk.lock = false → ∃ t, exec (.dyingGaspCmd x) s = .next t ∧
      s.onlyIn t (.tk x :: evParts) ∧
      ((s.car x).tk.burst = none → ∃ b, (t.car x).tk.burst = some b ∧ b.frame.typ = 3 ∧ b.sf = 12 ∧ b.rep = 0 ∧
        b.ramp = 1) ∧
      (∀ b, (s.car x).tk.burst = some b → (t.car x).tk.gasp = some 2 ∧
        ∃ c, (t.car x).tk.burst = some c ∧ c.cut = true)) ∧
    (∃ t, exec .pfail s = .next t ∧ t.sys = { s.sys with pfail := true } ∧
      s.onlyIn t (.sys :: .tk .A :: .tk .B :: evParts) ∧ (s.sys.warm = true → (t.car x).tk.gaspWait = true) ∧
      (s.sys.warm = false → (t.car x).tk.lock = true)) ∧
    (∃ t, exec .pfailRelease s = .next t ∧ t.sys = { s.sys with pfail := false } ∧ (t.car x).tk.lock = false ∧
      (t.car x).tk.gaspWait = false ∧ s.onlyIn t [.sys, .tk .A, .tk .B])

/-- R330, R335, R336, R338, R341, R342, R344, R350, R353, R354, R356: a symbol moves its search's detector, by the power of its
spectra, or is decided for the frame; a finished detection of a primary with no frame becomes the frame; a header is taken or
counted bad, the held detection following; a payload whose CRC fits is kept for its user, any other counted. Each user takes
its frame: HELLO is compared, RDI raises its defect, a dying gasp is reported, a segment joins its message, which waits for
its own user once whole. The noise floor is of quiet intervals only. -/
def Obligations.TackReceiving : Prop :=
  ∀ (s : State) (x : Carrier), s.sys.held = false →
    (∀ (q : TkSearch) (up down : List TkSpec) (own : Option Nat) (l : Bool),
      (s.tkRuns x q = false → exec (.tackSymbolReceived x q false up down own l) s = .next s) ∧
      (s.tkRuns x q = true → (∀ d, (s.car x).tk.frame = some d → d.which ≠ q) →
        ∃ t, exec (.tackSymbolReceived x q false up down own l) s = .next t ∧ s.onlyIn t [.tk x, .counters] ∧
        ∀ u v, u = tkPower (2 ^ s.tkSf x q) up → v = tkPower (2 ^ s.tkSf x q) down →
          (t.car x).tk.pre q false = (((s.car x).tk.pre q false).step (2 ^ s.tkSf x q) (s.cfx F.CAR_TK_RX_CTL_SYNC x)
            (isMeas (s.cfx F.CAR_TK_RX_THR_DET_THR x) && (tkExcess (2 ^ s.tkSf x q) u (tkPeak (2 ^ s.tkSf x q) none u).2).any
              fun e => decide (sgn 16 (s.cfx F.CAR_TK_RX_THR_DET_THR x) ≤ e)) (tkPeak (2 ^ s.tkSf x q) none u).1
            (isMeas (s.cfx F.CAR_TK_RX_THR_DET_THR x) && (tkExcess (2 ^ s.tkSf x q) v (tkPeak (2 ^ s.tkSf x q) none v).2).any
              fun e => decide (sgn 16 (s.cfx F.CAR_TK_RX_THR_DET_THR x) ≤ e))).1) ∧
      (∀ d, s.tkRuns x q = true → (s.car x).tk.frame = some d → d.which = q →
        ∃ t, exec (.tackSymbolReceived x q false up down own l) s = .next t ∧ s.onlyIn t [.tk x] ∧
        (t.car x).tk.frame = some d ∧ (t.car x).tk.got = (s.car x).tk.got ++
          [ungray (((tkPeak (2 ^ s.tkSf x q) none (tkPower (2 ^ s.tkSf x q) up)).1 + 2 ^ s.tkSf x q -
            d.bin % 2 ^ s.tkSf x q) % 2 ^ s.tkSf x q) (s.tkSf x q)])) ∧
    (∀ (q : TkSearch) (a b : Int), s.tkRuns x q = true → ((s.car x).tk.pre q false).done = true →
      (s.car x).tk.frame = none → ∃ t, exec (.tackDetection x [(q, false, a, b)]) s = .next t ∧
      (t.car x).tk.frame = some ⟨q, ((s.car x).tk.pre q false).bin, pinchCode a, pinchCode (a - b)⟩ ∧
      (t.car x).tk.inPay = false ∧ (t.car x).tk.rssi = pinchCode a ∧
      (t.car x).tk.pre q false = preReset ∧ s.onlyIn t [.tk x]) ∧
    (∀ (f : TkDet) (o : Option Bytes) (h : Bytes) (k : Nat), (s.car x).tk.frame = some f → (s.car x).tk.inPay = false →
      s.tkTaken x f 6 o = some (h, k) → ∃ t, exec (.tackHeader x o) s = .next t ∧ s.onlyIn t (.tk x :: evParts) ∧
      (tkHeaderOk f.which h = true → (s.car x).tk.held = none → (t.car x).tk.inPay = true ∧ (t.car x).tk.hdr = h ∧
        (t.car x).tk.got = (s.car x).tk.got.drop k) ∧
      (tkHeaderOk f.which h = false → (t.car x).tk.frame = (s.car x).tk.held ∧
        t.cnt .CAR_TK_HDR_BAD (carIdx .CAR_TK_HDR_BAD x 0) =
          min 0xFFFFFFFF (s.cnt .CAR_TK_HDR_BAD (carIdx .CAR_TK_HDR_BAD x 0) + 1))) ∧
    (∀ (f : TkDet) (o : Option Bytes) (b : Bytes) (k : Nat), (s.car x).tk.frame = some f → (s.car x).tk.inPay = true →
      s.tkTaken x f (byteAt (s.car x).tk.hdr 1 + 4) o = some (b, k) →
      ∃ t, exec (.tackFrameEnd x o) s = .next t ∧ (t.car x).tk.frame = none ∧ s.onlyIn t [.tk x, .counters] ∧
      (if (s.car x).tk.psn = false ∧ b.length = byteAt (s.car x).tk.hdr 1 + 4 ∧
          crc32c ((s.car x).tk.hdr ++ b.take (byteAt (s.car x).tk.hdr 1)) = beAt b (byteAt (s.car x).tk.hdr 1) 4 then
        (t.car x).tk.users = (s.car x).tk.users ++ [(byteAt (s.car x).tk.hdr 0, b.take (byteAt (s.car x).tk.hdr 1))] ∧
        t.cnt .CAR_TK_RX_GOOD_LO (carIdx .CAR_TK_RX_GOOD_LO x 0) =
          (s.cnt .CAR_TK_RX_GOOD_LO (carIdx .CAR_TK_RX_GOOD_LO x 0) + 1) % 2 ^ 64
       else (t.car x).tk.users = (s.car x).tk.users ∧ t.cnt .CAR_TK_CRC_BAD (carIdx .CAR_TK_CRC_BAD x 0) =
          min 0xFFFFFFFF (s.cnt .CAR_TK_CRC_BAD (carIdx .CAR_TK_CRC_BAD x 0) + 1))) ∧
    (∀ (b : Bytes) (l : List (Nat × Bytes)), (s.car x).tk.users = (1, b) :: l → ∃ t, exec (.helloReceived x) s = .next t ∧
      (t.car x).tk.users = l ∧ (t.car x).tk.hello = b ∧ (t.car x).tk.helloAt = some s.ns ∧
      t.stands 0x0C04 x.ev 0 = s.helloDiffers x b ∧ s.onlyIn t (.tk x :: defParts)) ∧
    (∀ (b : Bytes) (l : List (Nat × Bytes)), (s.car x).tk.users = (2, b) :: l →
      ∃ t, exec (.tackRdiReceived x) s = .next t ∧ (t.car x).tk.users = l ∧ t.stands 0x0C01 x.ev 0 = true ∧
      s.onlyIn t (.tk x :: defParts)) ∧
    (∃ t, exec (.tackRdiClear x) s = .next t ∧ t.stands 0x0C01 x.ev 0 = false ∧ s.onlyIn t defParts) ∧
    (∀ (b : Bytes) (l : List (Nat × Bytes)), (s.car x).tk.users = (3, b) :: l →
      ∃ t, exec (.dyingGaspReceived x) s = .next t ∧ (t.car x).tk.users = l ∧ s.onlyIn t (.tk x :: evParts)) ∧
    (∀ (n : Nat) (b : Bytes) (l : List (Nat × Bytes)), (s.car x).tk.users = (n, b) :: l → 4 ≤ n → n ≤ 6 →
      1 < byteAt b 2 → byteAt b 2 ≤ 33 → byteAt b 1 < byteAt b 2 → aget (s.car x).tk.reasm n = none →
      ∃ t, exec (.tackSegmentReceived x) s = .next t ∧ (t.car x).tk.users = l ∧
      aget (t.car x).tk.reasm n = some ⟨byteAt b 0, byteAt b 2, [(byteAt b 1, b.drop 4)]⟩ ∧ s.onlyIn t [.tk x]) ∧
    (∀ (n : Nat) (q : Reasm), aget (s.car x).tk.reasm n = some q → ∃ t, exec (.reassemblyTimeout x n) s = .next t ∧
      aget (t.car x).tk.reasm n = none ∧ t.cnt .CAR_TK_REASM_BAD (carIdx .CAR_TK_REASM_BAD x 0) =
        min 0xFFFFFFFF (s.cnt .CAR_TK_REASM_BAD (carIdx .CAR_TK_REASM_BAD x 0) + 1) ∧ s.onlyIn t (.tk x :: evParts)) ∧
    (∀ p : Int, ∃ t, exec (.tackFloorInterval x p) s = .next t ∧ s.onlyIn t [.tk x] ∧ (t.car x).tk.floor =
      if (s.car x).tk.calm = true ∧ s.cfx F.CAR_TK_RX_CTL_EN x = 1 then pinchCode p else noMeas) ∧
    (∀ (q : TkSearch) (sec : Bool) (up down : List TkSpec) (own : Option Nat) (l : Bool),
      ∃ t, exec (.tackSymbolReceived x q sec up down own l) s = .next t ∧ s.onlyIn t [.tk x, .counters] ∧
      (t.car x).tk.burst = (s.car x).tk.burst ∧ (t.car x).tk.queue = (s.car x).tk.queue) ∧
    (∀ l : List (TkSearch × Bool × Int × Int), ∃ t, exec (.tackDetection x l) s = .next t ∧
      s.onlyIn t (.tk x :: evParts) ∧ (l = [] → t = s)) ∧
    (∀ (b : Bytes) (l : List (Nat × Bytes)), (s.car x).tk.users = (4, b) :: l → byteAt b 2 = 1 → byteAt b 1 = 0 →
      aget (s.car x).tk.reasm 4 = none → (msgCheck (b.drop 4)).1 = 0 → tkBelongs 4 (msgCheck (b.drop 4)).2.1 = true →
      ∃ t, exec (.tackSegmentReceived x) s = .next t ∧ s.onlyIn t [.tk x, .plan x] ∧ (t.car x).tk.users = l ∧
      aget (t.car x).tk.reasm 4 = none ∧ (t.car x).plan.inbox =
        (s.car x).plan.inbox ++ [sub (b.drop 4) 2 (msgCheck (b.drop 4)).2.2]) ∧
    (∀ (n : Nat) (b : Bytes) (l : List (Nat × Bytes)), (s.car x).tk.users = (n, b) :: l → 4 ≤ n → n ≤ 6 →
      ∃ t, exec (.tackSegmentReceived x) s = .next t ∧ (t.car x).tk.users = l ∧
      s.onlyIn t (.tk x :: .plan x :: .ciph :: .host :: evParts))

/-! ### The crease map (chapter 13) -/

/-- R364 to R373: an integration with too little cover is discarded and counted; a complete one makes the next map and its
history record, which is written to its region entries first and header last, or reported where the region cannot take it.
The next integration starts at once. -/
def Obligations.CreaseIntegrations : Prop :=
  ∀ (s : State) (x : Carrier), s.sys.held = false →
    (∀ m : CmMeas, (s.car x).cm.run = false → exec (.integrationEnd x m) s = .next s) ∧
    (∀ m : CmMeas, (s.car x).cm.run = true → ∃ t, exec (.integrationEnd x m) s = .next t ∧
      (t.car x).cm.start = s.ns ∧ (t.car x).cm.run = true ∧
      (m.cover < 5000 → (t.car x).cm = { (s.car x).cm with start := s.ns } ∧
        t.cnt .CAR_CM_DISCARD (carIdx .CAR_CM_DISCARD x 0) =
          min 0xFFFFFFFF (s.cnt .CAR_CM_DISCARD (carIdx .CAR_CM_DISCARD x 0) + 1) ∧ s.onlyIn t (.cm x :: evParts)) ∧
      (5000 ≤ m.cover → (t.car x).cm.seq = ((s.car x).cm.seq + 1) % 2 ^ 32 ∧ (t.car x).cm.map.length = 131072 ∧
        (s.cfx F.CAR_CM_CTL_HIST_EN x = 1 → s.cmHistOk x = true →
          (t.car x).cm.hist = some ((s.car x).cm.start, s.ns, min 100 (m.lock / 100))) ∧
        (s.cfx F.CAR_CM_CTL_HIST_EN x = 1 → s.cmHistOk x = false → t.stands 0x0D08 x.ev 0 = true) ∧
        s.onlyIn t (.cm x :: .fe x :: .mem :: .regs :: defParts))) ∧
    ((s.car x).cm.hist = none → exec (.historyWriteDone x) s = .next s) ∧
    (∀ h, (s.car x).cm.hist = some h → ∃ t, exec (.historyWriteDone x) s = .next t ∧ (t.car x).cm.hist = none ∧
      s.onlyIn t (.cm x :: defParts) ∧ (s.cmHistOk x = false → t.stands 0x0D08 x.ev 0 = true) ∧
      (s.cmHistOk x = true → t.stands 0x0D08 x.ev 0 = false ∧
        (t.car x).cm.next = ((s.car x).cm.next % s.cmDepth x + 1) % s.cmDepth x ∧
        ∃ l head ents fits o, o = (s.car x).cm.next % s.cmDepth x * 528384 ∧ head.length = 64 ∧ fits.length = 2048 ∧
          ents.length = 524288 ∧ t.io.out = l ++ [.cxlWrite (s.cfx F.CAR_CM_HIST_REGION x) o head,
            .cxlWrite (s.cfx F.CAR_CM_HIST_REGION x) (o + 0x1000) ents,
            .cxlWrite (s.cfx F.CAR_CM_HIST_REGION x) (o + 0x40) fits,
            .cxlWrite (s.cfx F.CAR_CM_HIST_REGION x) (o + 60) [0, 0, 0, 0]] ++ s.io.out))

/-! ### Timing (chapter 14) -/

/-- R381 to R384, R388 to R391, R394, R396, R397, R194, R195: a slot that loses its signal fails and is counted once; a
measurement of a signal that is there is kept, ends the failure, sets the state and the soft-limit defect; a qualifying slot
within its limit becomes valid, a valid one beyond it is disqualified; an empty one takes no notice. An edge of a pulse slot is stamped. Lock and its
loss move a DPLL between its states; each second writes a history entry and bleeds an output by at most its slope. A
realignment waits for its first pulse, which resets the output's offset. Without the root's lock both outputs are forced. -/
def Obligations.TimingUnit : Prop :=
  ∀ (s : State), s.sys.held = false →
    (∀ (n : Fin 8) (a b : Int),
      ((s.slot n).st = .empty → exec (.refFailed n a b) s = .next s ∧ ∀ f, exec (.slotMeasurement n f a b) s = .next s) ∧
      ((s.slot n).st ≠ .empty → ∃ t, exec (.refFailed n a b) s = .next t ∧ (t.slot n).st = .failed ∧
        (t.slot n).freq = none ∧ t.stands 0x0E01 0 n = true ∧ t.cnt .TIM_SLOT_FAIL n = (if s.stands 0x0E01 0 n = true
          then s.cnt .TIM_SLOT_FAIL n else min 0xFFFFFFFF (s.cnt .TIM_SLOT_FAIL n + 1)) ∧
        s.onlyIn t (.tim :: outParts .A ++ outParts .B ++ defParts)) ∧
      (∀ f : Int, (s.slot n).st ≠ .empty → s.slotSignal n = true → ∃ t, exec (.slotMeasurement n f a b) s = .next t ∧
        (t.slot n).freq = some (s.slotMeas n f) ∧ t.stands 0x0E01 0 n = false ∧
        t.stands 0x0E02 0 n = (!inLimit (s.slotMeas n f) (s.cf F.TIM_SLOT_LIM_SOFT_LIM n)) ∧
        ((s.slot n).st = .valid → (t.slot n).st = .valid) ∧
        ((s.slot n).st ≠ .valid → inLimit (s.slotMeas n f) (s.cf F.TIM_SLOT_LIM_HARD_LIM n) = true →
          (t.slot n).st = .qualifying) ∧
        s.onlyIn t (.tim :: outParts .A ++ outParts .B ++ defParts)) ∧
      (s.slotSignal n = false → ∀ f, exec (.slotMeasurement n f a b) s = .next s) ∧
      ((s.slot n).st = .qualifying → s.slotIn n = true → s.slotSignal n = true → ∃ t, exec (.slotQualified n a b) s = .next t ∧
        (t.slot n).st = .valid ∧ s.onlyIn t (.tim :: outParts .A ++ outParts .B ++ defParts)) ∧
      ((s.slot n).st = .valid → s.slotIn n = false → ∃ t, exec (.slotDisqualified n a b) s = .next t ∧
        (t.slot n).st = .disqualified ∧ t.stands 0x0E03 0 n = true ∧
        s.onlyIn t (.tim :: outParts .A ++ outParts .B ++ defParts)) ∧
      (∃ t, exec (.refEdgeStamp n) s = .next t ∧ s.onlyIn t [.tim] ∧
        (s.pulseSlot n = true → t.slot n = { s.slot n with ts := s.ns }) ∧ (s.pulseSlot n = false → t = s))) ∧
    (∀ d : Fin 2, (s.dpll d).st = .acquire → ∃ t, exec (.dpllLock d) s = .next t ∧
      (t.dpll d).st = (if s.hoReady d then .locked else .lockedNew) ∧ s.onlyIn t (.tim :: evParts)) ∧
    (∀ d : Fin 2, (s.dpll d).st = .locked ∨ (s.dpll d).st = .lockedNew → ∃ t, exec (.dpllUnlock d) s = .next t ∧
      (t.dpll d).st = .acquire ∧ s.onlyIn t [.tim]) ∧
    (∀ (f0 f1 : Int), ∃ t, exec (.historySecond f0 f1) s = .next t ∧ s.onlyIn t (.tim :: evParts) ∧
      (∀ d : Fin 2, (t.dpll d).next = ((s.dpll d).next + 1) % 4096 ∧
        aget (t.dpll d).hist (s.dpll d).next = 
          some ⟨if (s.dpll d).held then (s.dpll d).freq else if d = 0 then f0 else f1, (s.dpll d).swSec, (s.dpll d).lockSec⟩ ∧
        (t.dpll d).run = (if (s.dpll d).lockSec then min 4095 ((s.dpll d).run + 1) else 0)) ∧
      (∀ o : Fin 4, s.cf F.TIM_OUT_CTL_BLEED o = 1 → (max 1 (s.cf F.TIM_OUT_CTL_SLOPE_PS o) : Nat) < (s.outSt o).phase →
        (t.outSt o).phase = (s.outSt o).phase - (max 1 (s.cf F.TIM_OUT_CTL_SLOPE_PS o) : Nat))) ∧
    (∀ (p f : Bool) (v : Fin 2), ∃ t, exec (.outRealign p f v) s = .next t ∧ s.onlyIn t (.tim :: evParts) ∧
      (∀ n, v = 0 → (s.dpll 1).sel = some n → s.pulseSlot n = true → p = true → (t.outSt 2).realign = some 0) ∧
      ((s.dpll 1).sel = none → v = 0 → t.tim = s.tim)) ∧
    (∀ p f : Bool, ∃ t, exec (.outRealign p f 1) s = .next t ∧ s.onlyIn t (.tim :: evParts) ∧
      (p = true → (t.outSt 2).realign = some 1) ∧ (f = true → (t.outSt 3).realign = some 1)) ∧
    (∀ (o : Fin 4) (v : Nat), (s.outSt o).realign = some v → ∃ t, exec (.realignedFirstPulse o) s = .next t ∧
      t.outSt o = ⟨0, none⟩ ∧ s.onlyIn t (.tim :: evParts)) ∧
    (∀ o : Fin 4, (s.outSt o).phase ≠ 0 → s.cf F.TIM_OUT_CTL_BLEED o = 1 → ∃ t, exec (.bleedComplete o) s = .next t ∧
      (t.outSt o).phase = 0 ∧ (t.outSt o).realign = (s.outSt o).realign ∧ s.onlyIn t (.tim :: evParts)) ∧
    (s.tim.root = true → ∃ t, exec .rootUnlock s = .next t ∧ t.tim = { s.tim with root := false } ∧
      t.stands 0x0E0C 0 0 = true ∧ t.carA.tx.st = .forced ∧ t.carB.tx.st = .forced ∧
      s.onlyIn t (.tim :: outParts .A ++ outParts .B ++ defParts)) ∧
    (∃ t, exec .rootLock s = .next t ∧ t.tim = { s.tim with root := true } ∧ t.stands 0x0E0C 0 0 = false ∧
      s.onlyIn t (.tim :: outParts .A ++ outParts .B ++ defParts))

/-! ### Monitor converter and bias loops (chapter 15) -/

/-- R404, R405, R407, R409 to R413, R415: a word is counted and, once the filters have filled and the reference is settled,
kept by the running conversion; with none running the first enabled input starts. A whole conversion leaves its mean, flags
and time. An urgent request is served, queued, or dropped at the fourth. A DC estimate and a DAC code are written, the code
within its limits; a reference's flag restarts the conversions on it. -/
def Obligations.MonitorAndBias : Prop :=
  ∀ (s : State), s.sys.held = false →
    (∀ (c : Conv) (w : MonWord), s.mon.conv = some c → s.mon.abort = false →
      ∃ t, exec (.monitorWordBoundary w) s = .next t ∧ t.mon.words = s.mon.words + 1 ∧ s.onlyIn t [.mon] ∧
      ∃ d, t.mon.conv = some d ∧ d.input = c.input ∧ d.words = (if w.overload then 0 else c.words + 1) ∧
        (36 ≤ c.words → s.refSet c.input = true → c.unset = false → c.vals.length < s.convRepeat c →
          d.vals.length = c.vals.length + 1) ∧ (c.words < 36 → d.vals = c.vals)) ∧
    (∀ (i : Nat) (w : MonWord), s.mon.conv = none → s.mon.after = none → s.mon.urg = [] → s.calConv = none →
      s.cf F.MON_CTL_EN 0 = 1 → s.scanFrom 0 = some i → ∃ t, exec (.monitorWordBoundary w) s = .next t ∧
      t.mon.conv = some ⟨i, true, false, false, false, false, 0, [], false, false, !s.refSet i⟩ ∧ s.onlyIn t [.mon]) ∧
    (∀ w : MonWord, ∃ t, exec (.monitorWordBoundary w) s = .next t ∧ t.mon.words = s.mon.words + 1 ∧ s.onlyIn t [.mon]) ∧
    (∀ c : Conv, s.mon.conv = some c → c.check = true → c.vals ≠ [] → ∃ t, exec .conversionEnd s = .next t ∧
      s.onlyIn t (.mon :: defParts)) ∧
    (s.mon.conv = none → exec .conversionEnd s = .next s) ∧
    (∀ c : Conv, s.mon.conv = some c → c.check = false → s.convRepeat c ≤ c.vals.length →
      ∃ t, exec .conversionEnd s = .next t ∧ s.onlyIn t (.mon :: defParts) ∧
      t.stands 0x0F01 0 c.input = (c.ovrHi || c.ovrLo) ∧
      bits (agetD t.mon.res c.input 0) 31 31 = b2n (c.vals != []) ∧
      bits (agetD t.mon.res c.input 0) 30 30 = b2n c.ovrHi ∧ bits (agetD t.mon.res c.input 0) 29 29 = b2n c.ovrLo ∧
      (c.vals ≠ [] → bits (agetD t.mon.res c.input 0) 23 0 =
        usg 24 (roundUp ((c.vals.map (·.1)).foldr (· + ·) 0) c.vals.length)) ∧
      agetD t.mon.resT c.input 0 = (s.ns + 2 ^ 32 - s.groupDelay % 2 ^ 32) % 2 ^ 32) ∧
    (∀ n : Fin 32, ∃ t, exec (.urgentRequest n) s = .next t ∧ s.onlyIn t (.mon :: evParts) ∧
      (∀ c, s.mon.conv = some c → c.input = n → c.check = false → s.calShort c = false →
        t.mon.conv = some { c with urgent := true } ∧
        t.mon.urg = s.mon.urg) ∧
      (s.mon.conv = none → (s.mon.urg.any fun u => u.1 == n.val) = false → s.mon.urg.length < 4 →
        t.mon.urg = s.mon.urg ++ [(n.val, false)]) ∧
      (s.mon.conv = none → 4 ≤ s.mon.urg.length → t.mon = s.mon)) ∧
    (∀ (n : Fin 32) (v : BitVec 24), ∃ t, exec (.dcbEstWrite n v) s = .next t ∧ t.dcb n = v.toInt ∧
      (∀ k : Nat, k ≠ n → t.dcb k = s.dcb k) ∧ s.onlyIn t [.mon]) ∧
    (∀ (b : Fin 16) (v : BitVec 20), (s.cf F.MON_BIAS_CTL_LOOP_EN b = 1 → exec (.biasValWrite b v) s = .next s) ∧
      (s.cf F.MON_BIAS_CTL_LOOP_EN b ≠ 1 → ∃ t, exec (.biasValWrite b v) s = .next t ∧
        t.bias b = { s.bias b with val := (clampI (s.biasLim b).1 (s.biasLim b).2 v.toNat).toNat } ∧
        (t.cali (8 + b)).st ≠ .ramp ∧ s.onlyIn t (.mon :: .cal :: evParts))) ∧
    (∀ ref : Fin 3, (∃ t, exec (.refSettled ref) s = .next t ∧ s.onlyIn t (.mon :: defParts) ∧
        (ref = 0 → t.mon.intSet = true) ∧ (ref = 2 → t.mon.supSet = true) ∧
        (ref = 1 → t.mon.extSet = true ∧ (s.mon.extSet = false → t.stands 0x0F03 0 0 = false))) ∧
      (∃ t, exec (.refUnsettled ref) s = .next t ∧ s.onlyIn t (.mon :: defParts) ∧
        (ref = 0 → t.mon.intSet = false) ∧ (ref = 2 → t.mon.supSet = false) ∧
        (ref = 1 → t.mon.extSet = false ∧ (s.mon.extSet = true → t.stands 0x0F03 0 0 = true ∧
          ∀ c, s.mon.conv = some c → s.cf F.MON_IN_CFG_REF c.input = 1 → ∃ d, t.mon.conv = some d ∧ d.vals = [] ∧
            d.unset = true))))

/-! ### Calibration (chapter 16) -/

/-- R421 to R429: a start is taken when nothing stands against it, and otherwise reported or refused with the reason; the
second pass follows the first, and its end accepts the run, which then ramps, or discards it; a condition
that fails aborts it. A ramp's last step sets the accepted value. -/
def Obligations.CalibrationRuns : Prop :=
  ∀ (s : State), s.sys.held = false →
    (∀ (i : Fin 32) (v : Bool), (s.calRefusal i v ≠ 0 → exec (.calStart i v) s = .next (s.occ 0x1006 0 i)) ∧
      (s.calRefusal i v = 0 → ∃ t, exec (.calStart i v) s = .next t ∧ (t.cali i).st = .pass1 ∧ (t.cali i).pass1 = [] ∧
        (∀ j : Nat, j ≠ i → t.cali j = s.cali j) ∧ s.onlyIn t [.cal])) ∧
    (∀ (fn : Fn) (r : Nat) (v : Bool) (c : ExecCmd), s.running fn r 0x010A = some c →
      (s.calRefusal (byteAt c.desc 16) v = 0 → ∃ t, exec (.calibrate fn r v) s = .next t ∧
        (t.cali (byteAt c.desc 16)).st = .pass1 ∧ t.ring fn r = (s.finish fn r 0 0).ring fn r ∧
        s.onlyIn t (.cal :: cmdParts)) ∧
      (s.calRefusal (byteAt c.desc 16) v ≠ 0 → ∃ t, exec (.calibrate fn r v) s = .next t ∧ t.cal = s.cal ∧
        t.ring fn r = (s.finish fn r 0x0B (s.calRefusal (byteAt c.desc 16) v)).ring fn r ∧ s.onlyIn t cmdParts)) ∧
    (∀ (i : Fin 24) (l : List Int), (s.cali i).st = .pass1 → ∃ t, exec (.calPass1End i l) s = .next t ∧
      (t.cali i).st = .pass2 ∧ (t.cali i).pass1 = s.calVals i l ∧ s.onlyIn t [.cal]) ∧
    (∀ (i : Fin 24) (l : List Int), i.val ≠ 6 ∨ (s.cali i).got.length < 2 → s.calVals i l = l) ∧
    (∀ (i : Fin 24) (l : List Int), (s.cali i).st = .pass2 → ∃ t, exec (.calPass2End i l) s = .next t ∧
      s.onlyIn t (.cal :: evParts) ∧ (t.cali i).time = s.ns ∧
      t.cnt .GLB_CAL_CNT i = min 0xFFFFFFFF (s.cnt .GLB_CAL_CNT i + 1) ∧
      (if (∀ e ∈ (calFields i).zipIdx, ((s.cali i).pass1.getD e.2 0 - (s.calVals i l).getD e.2 0).natAbs ≤ e.1.2.1) then
        (t.cali i).st = .ramp ∧ (t.cali i).result = 1 ∧ (t.cali i).t = 0 ∧
        (t.cali i).v1 = (calFields i).zipIdx.map fun e => roundDiv ((s.cali i).pass1.getD e.2 0 + (s.calVals i l).getD e.2 0) 2
       else (t.cali i).st = .idle ∧ (t.cali i).result = 2)) ∧
    (∀ i : Fin 24, (s.calPass i = false ∨ s.calOk i false = true → exec (.calAbort i) s = .next s) ∧
      (s.calPass i = true → s.calOk i false = false → ∃ t, exec (.calAbort i) s = .next t ∧ (t.cali i).st = .idle ∧ (t.cali i).result = 3 ∧
        s.onlyIn t (.cal :: evParts))) ∧
    (∀ i : Fin 24, (s.cali i).st = .ramp → ∃ t, exec (.calRampStep i) s = .next t ∧ (t.cali i).t = (s.cali i).t + 1 ∧
      s.onlyIn t (.cal :: .regs :: .mon :: evParts) ∧
      ((s.cali i).t + 1 < (s.cali i).rampMs * 100 → (t.cali i).st = .ramp) ∧
      ((s.cali i).rampMs * 100 ≤ (s.cali i).t + 1 → (t.cali i).st = .idle ∧
        (8 ≤ i.val → (t.bias (i - 8)).val = (clampI (s.biasLim (i - 8)).1 (s.biasLim (i - 8)).2
          ((s.cali i).v1.getD 0 0).toNat).toNat)))

/-! ### Memory integrity and CXL (chapter 17) -/

/-- R434, R436, R438 to R444, R448, R459, R460: the end of starch releases the management processor. A read of a word shows a
correctable error, which is counted and corrected, an uncorrectable one, which is read again, or poison; an error that stays
poisons the word and patches its row. A patch and a golden reload end; an injection takes effect in the word written; a
memory that reaches its rate of errors is reported. -/
def Obligations.MemoryIntegrity : Prop :=
  ∀ (s : State), s.sys.held = false →
    (∀ (rows : List (Fin 117 × Nat)) (src : Fin 4), (s.mem.starch = true → exec (.starchDone rows src) s = .next s) ∧
      (s.mem.starch = false → ∃ t, exec (.starchDone rows src) s = .next t ∧ t.mem.starch = true ∧
        t.boot.st = (if src = 1 then 1 else 2) ∧ t.boot.srcPins = src ∧ s.onlyIn t (.mem :: .boot :: defParts))) ∧
    (∀ (m : Fin 117) (w : Nat) (key : Option MemUse), s.poisoned m w = false →
      agetD (s.memo m).errs w 0 = 0 → exec (.rinseRead m w 0 key false) s = .next s ∧
      (∃ t, exec (.rinseRead m w 1 key false) s = .next t ∧ s.onlyIn t [.mem, .counters] ∧
        t.cnt .MEM_MEM_CE m = min 0xFFFFFFFF (s.cnt .MEM_MEM_CE m + 1)) ∧
      (∃ t, exec (.rinseRead m w 2 key false) s = .next t ∧ s.onlyIn t [.mem] ∧ (t.memo m).reread.contains w = true ∧
        (t.memo m).poison = (s.memo m).poison) ∧
      (∃ t, exec (.rinseRead m w 3 key false) s = .next t ∧ s.onlyIn t (.mem :: useParts key ++ defParts) ∧ t.poisoned m w = true ∧
        t.cnt .MEM_MEM_PSN m = min 0xFFFFFFFF (s.cnt .MEM_MEM_PSN m + 1))) ∧
    (∀ (m : Fin 117) (w : Nat) (key : Option MemUse) (use : Option (Carrier × Nat)),
      (s.memo m).reread.contains w = true →
      (agetD (s.memo m).errs w 0 ≠ 2 → ∃ t, exec (.ueReread m w false key use) s = .next t ∧ s.onlyIn t (.mem :: evParts) ∧
        (t.memo m).reread.contains w = false ∧ (t.memo m).poison = (s.memo m).poison ∧
        t.cnt .MEM_MEM_UE_TR m = min 0xFFFFFFFF (s.cnt .MEM_MEM_UE_TR m + 1)) ∧
      ((s.memo m).worn = false → (s.memo m).copying.contains (w / 16) = false →
        ∃ t, exec (.ueReread m w true key use) s = .next t ∧ s.onlyIn t (.mem :: useParts key ++ defParts) ∧ t.poisoned m w = true ∧
        (t.memo m).used = (s.memo m).used + 1 ∧ (t.memo m).copying = w / 16 :: (s.memo m).copying ∧
        t.cnt .MEM_MEM_UE_LAST m = min 0xFFFFFFFF (s.cnt .MEM_MEM_UE_LAST m + 1))) ∧
    (∀ (m : Fin 117) (row : Nat), (s.memo m).copying.contains row = true → ∃ t, exec (.rowPatchDone m row) s = .next t ∧
      (t.memo m).copying.contains row = false ∧ (t.memo m).lastRow = row ∧ s.onlyIn t (.mem :: evParts)) ∧
    (∀ (m : Fin 117) (w : Nat), s.memGolden m = true → s.poisoned m w = true → s.cf F.MEM_INJ_ARM 0 = 0 →
      ∃ t, exec (.goldenReloadDone m w) s = .next t ∧ t.poisoned m w = false ∧ s.onlyIn t (.mem :: defParts)) ∧
    (∀ (m : Fin 128) (k : Fin 4) (b : Bool), (∃ t, exec (.memInject m k b none) s = .next t ∧
        t.rd ⟨.MEM_INJ, 0⟩ = BitVec.ofNat 32 (m * 256 + k * 4 + b2n b) ∧ s.onlyIn t [.regs]) ∧
      (∀ w : Nat, ∃ t, exec (.memInject m 3 true (some w)) s = .next t ∧ t.poisoned m w = true ∧
        t.cf F.MEM_INJ_ARM 0 = 0 ∧ s.onlyIn t (.regs :: .mem :: defParts))) ∧
    (∃ t, exec .ceRateSecond s = .next t ∧ s.onlyIn t (.mem :: defParts) ∧ ∀ m : Fin 117, s.cf F.MEM_CTL_CE_THR 0 ≠ 0 →
      s.cf F.MEM_CTL_CE_THR 0 ≤ s.cnt .MEM_MEM_CE m - (s.memo m).ce0 → t.stands 0x1101 0 m = true ∧
        (t.memo m).ce0 = s.cnt .MEM_MEM_CE m) ∧
    (∀ (m : Fin 117) (w : Nat) (seen : Fin 4) (key : Option MemUse) (last : Bool),
      ∃ t, exec (.rinseRead m w seen key last) s = .next t ∧ s.onlyIn t (.mem :: useParts key ++ defParts) ∧
      (s.poisoned m w = true → t.poisoned m w = true ∧
        t.cnt .MEM_MEM_PSN m = min 0xFFFFFFFF (s.cnt .MEM_MEM_PSN m + 1))) ∧
    (∀ (m : Fin 117) (w : Nat) (again : Bool) (key : Option MemUse) (use : Option (Carrier × Nat)),
      ((s.memo m).reread.contains w = false → exec (.ueReread m w again key use) s = .next s) ∧
      ((s.memo m).reread.contains w = true → again = true ∨ agetD (s.memo m).errs w 0 = 2 →
        ∃ t, exec (.ueReread m w again key use) s = .next t ∧ t.poisoned m w = true ∧
        (t.memo m).reread.contains w = false)) ∧
    (∀ (m : Fin 117) (w : Nat), (s.memGolden m = false ∨ s.poisoned m w = false →
        exec (.goldenReloadDone m w) s = .next s) ∧
      (s.memGolden m = true → s.poisoned m w = true → ∃ t, exec (.goldenReloadDone m w) s = .next t ∧
        (t.memo m).reread.contains w = false ∧ s.onlyIn t (.mem :: .regs :: defParts)))

/-- R437, R449, R450, R452 to R457: a port that trains with a large enough device comes up, degraded or not; one that fails
takes its regions with it and is counted. The log's counts and media ranges, poisoned lines and their number in a second
act on ports and regions; a region written with zeros becomes ready. -/
def Obligations.CxlPortsAndRegions : Prop :=
  ∀ (s : State), s.sys.held = false →
    (∀ (p : Fin 2) (w : Fin 17) (r : Fin 5) (g : Nat), (g < 16 → exec (.cxlPortUp p w r g) s = .next s ∧
        exec (.cxlRetrainTimer p none) s = .next s) ∧
      (s.cf F.CXL_PORT_CTL_EN p ≠ 0 → (s.cxlPort p).up = false → 16 ≤ g → w ≠ 0 → r ≠ 0 →
        ∃ t, exec (.cxlPortUp p w r g) s = .next t ∧ exec (.cxlRetrainTimer p (some (w, r, g))) s = .next t ∧
        t.cxlPort p = ⟨true, w, r, min g 1024⟩ ∧ t.stands 0x1109 0 p = false ∧
        t.stands 0x110A 0 p = (!(t.cxlPort p).full) ∧ s.onlyIn t (.cxl :: defParts))) ∧
    (∀ p : Fin 2, (s.cxlPort p).up = true → ∃ t, exec (.cxlPortDown p) s = .next t ∧
      exec (.cxlRequestTimeout p) s = .next t ∧ (t.cxlPort p).up = false ∧ t.stands 0x1109 0 p = true ∧
      t.cnt .CXL_PORT_DOWN p = min 0xFFFFFFFF (s.cnt .CXL_PORT_DOWN p + 1) ∧
      (∀ g : Fin 32, (s.rgn g).st = .ready → s.rgnOn g p = true → (t.rgn g).st = .failed ∧ (t.rgn g).cause = 1 ∧
        t.stands 0x110C 0 g = true) ∧ s.onlyIn t (.cxl :: .seam :: .cli :: defParts)) ∧
    (∀ (p : Fin 2) (a b : Nat) (l : List (Nat × Nat)), (s.cxlPort p).up = true →
      ∃ t, exec (.cxlLogPoll p a b false l) s = .next t ∧ (t.cxlPort p).up = true ∧
      t.cnt .CXL_PORT_CE p = min 0xFFFFFFFF (s.cnt .CXL_PORT_CE p + a) ∧
      t.cnt .CXL_PORT_UE p = min 0xFFFFFFFF (s.cnt .CXL_PORT_UE p + b) ∧
      (∀ g : Fin 32, (s.rgn g).st = .ready →
        (if l.any (fun q => decide (q.1 < (s.rgnDpa g p).2) && decide ((s.rgnDpa g p).1 < q.2)) then
          (t.rgn g).st = .failed ∧ (t.rgn g).cause = 3 else t.rgn g = s.rgn g)) ∧
      s.onlyIn t (.cxl :: .seam :: .cli :: defParts)) ∧
    (∀ (p : Fin 2) (a b : Nat) (f : Bool) (l : List (Nat × Nat)), (s.cxlPort p).up = true →
      ∃ t, exec (.cxlLogPoll p a b f l) s = .next t ∧ (t.cxlPort p).up = !f ∧
      t.cnt .CXL_PORT_UE p = min 0xFFFFFFFF (s.cnt .CXL_PORT_UE p + b) ∧
      (f = true → t.stands 0x1109 0 p = true) ∧ s.onlyIn t (.cxl :: .seam :: .cli :: defParts)) ∧
    (∀ g : Fin 32, (s.rgn g).st = .ready → (∃ t, exec (.cxlPoisonLine g none) s = .next t ∧
        (t.rgn g).lines = (s.rgn g).lines + 1 ∧ t.cnt .CXL_RGN_PSN g = min 0xFFFFFFFF (s.cnt .CXL_RGN_PSN g + 1) ∧
        s.onlyIn t (.cxl :: evParts)) ∧
      (∀ (m : Fin 117) (w : Nat), ∃ t, exec (.cxlPoisonLine g (some (m, w))) s = .next t ∧
        (∀ i < 8, t.poisoned m (w + i) = true) ∧ s.onlyIn t (.cxl :: .mem :: defParts))) ∧
    (∀ g : Fin 32, (s.rgn g).st = .starching → (∀ p : Fin 2, s.rgnOn g p = true → (s.cxlPort p).up = true) →
      ∃ t, exec (.regionReady g) s = .next t ∧ (t.rgn g).st = .ready ∧ t.stands 0x110C 0 g = false ∧
      s.onlyIn t (.cxl :: defParts)) ∧
    (∀ g : Fin 32, ∃ t, exec (.regionPoisonSecond g) s = .next t ∧ (t.rgn g).lines = 0 ∧
      ((s.rgn g).st = .ready → s.cf F.CXL_CTL_POISON_MAX 0 < (s.rgn g).lines → (t.rgn g).st = .failed ∧
        (t.rgn g).cause = 2) ∧
      ((s.rgn g).lines ≤ s.cf F.CXL_CTL_POISON_MAX 0 → s.onlyIn t [.cxl]) ∧
      s.onlyIn t (.cxl :: .seam :: .cli :: defParts))

/-! ### Command rings, event rings and the host port (chapter 18) -/

/-- R465, R466, R469, R472: a valid enable starts a disabled ring from zero with its class, size and vector; a disable stops
it, at once where no command is in execution; RESUME runs a halted ring and ends its defect; a doorbell within the ring's
size sets the producer index, and another is counted and changes no ring. Other rings stay as they are. -/
def Obligations.RingControl : Prop :=
  ∀ (s : State) (fn : Fn) (r : Nat), s.sys.held = false → r < ringCount fn →
    (∀ (cls : Fin 4) (n : Fin 32) (v : Fin 64), s.cf F.HST_RING_CTL_EN (ringIdx fn r) = 0 →
      (s.ring fn r).st = .disabled → 6 ≤ n.val → n.val ≤ 16 →
      s.cf F.HST_RING_BASE_LO_ADDR (ringIdx fn r) % 4096 = 0 →
      s.cf F.HST_CPL_BASE_LO_ADDR (ringIdx fn r) % 4096 = 0 →
      ∃ t, exec (.ringEnable fn r cls n v) s = .next t ∧ (t.ring fn r).st = .running ∧ (t.ring fn r).prod = 0 ∧
      (t.ring fn r).cons = 0 ∧ (t.ring fn r).exec = none ∧ (t.ring fn r).alive = (s.ring fn r).alive ∧
      t.cf F.HST_RING_CTL_EN (ringIdx fn r) = 1 ∧ t.cf F.HST_RING_CTL_CLASS (ringIdx fn r) = cls ∧
      t.cf F.HST_RING_CTL_LOG2SIZE (ringIdx fn r) = n ∧ t.cf F.HST_RING_CTL_VECTOR (ringIdx fn r) = v ∧
      (∀ g q, (g, q) ≠ (fn, r) → t.ring g q = s.ring g q) ∧
      (∀ k, k ≠ ⟨.HST_RING_CTL, ringIdx fn r⟩ → t.rd k = s.rd k) ∧ s.onlyIn t [.rings, .regs]) ∧
    (s.cf F.HST_RING_CTL_EN (ringIdx fn r) = 1 →
      ∃ t, exec (.ringDisable fn r) s = .next t ∧ t.cf F.HST_RING_CTL_EN (ringIdx fn r) = 0 ∧
      (t.ring fn r).st = (if (s.ring fn r).exec.isSome then .stopping else .disabled) ∧
      (t.ring fn r).exec = (s.ring fn r).exec ∧ (t.ring fn r).fetched = [] ∧
      ((s.ring fn r).st = .halted → t.stands 0x0104 0 r fn.num = false) ∧
      (∀ g q, (g, q) ≠ (fn, r) → t.ring g q = s.ring g q) ∧
      (∀ k, k ≠ ⟨.HST_RING_CTL, ringIdx fn r⟩ → t.rd k = s.rd k) ∧ s.onlyIn t (.regs :: cmdParts)) ∧
    (s.cf F.HST_RING_CTL_EN (ringIdx fn r) = 1 → (s.ring fn r).st = .halted →
      ∃ t, exec (.ringResume fn r) s = .next t ∧ (t.ring fn r).st = .running ∧ (t.ring fn r).fetched = [] ∧
      (t.ring fn r).cons = (s.ring fn r).cons ∧ t.stands 0x0104 0 r fn.num = false ∧
      (∀ g q, (g, q) ≠ (fn, r) → t.ring g q = s.ring g q) ∧ s.onlyIn t cmdParts) ∧
    (∀ v : Word,
      ((s.ring fn r).st = .running → (v.toNat + 2 ^ 32 - (s.ring fn r).cons) % 2 ^ 32 ≤ s.ringSize fn r →
        ∃ t, exec (.doorbell fn r v) s = .next t ∧ t.ring fn r = { s.ring fn r with prod := v.toNat } ∧
        (∀ g q, (g, q) ≠ (fn, r) → t.ring g q = s.ring g q) ∧ s.onlyIn t [.rings]) ∧
      (((s.ring fn r).st ≠ .running ∨ (v.toNat ≠ (s.ring fn r).prod ∧
          s.ringSize fn r < (v.toNat + 2 ^ 32 - (s.ring fn r).cons) % 2 ^ 32)) →
        ∃ t, exec (.doorbell fn r v) s = .next t ∧
        t.cnt .HST_DB_BAD 0 = min 0xFFFFFFFF (s.cnt .HST_DB_BAD 0 + 1) ∧ s.onlyIn t evParts))

/-- R467, R471, R474: a descriptor of 64 bytes with a good CRC and the ring's ALIVE, which passes its checks, is put in
execution and advances ALIVE; one that fails a check completes. A bad one is read once more, and bad again it halts the
ring with the defect and the cause; a good second read goes on. Only a completion moves the consumer index. -/
def Obligations.DescriptorFetch : Prop :=
  ∀ (s : State) (fn : Fn) (r : Nat) (d : Bytes), s.sys.held = false → s.io.up = true → d.length = 64 →
    (s.ring fn r).st = .running →
    ((s.ring fn r).reread = false → (s.ring fn r).heldCpl = [] → (s.ring fn r).exec = none →
      (s.ring fn r).fetched = [] → 0 < ((s.ring fn r).prod + 2 ^ 32 - (s.ring fn r).cons) % 2 ^ 32 →
      ∃ t, exec (.descriptorArrive fn r [.data d]) s = .next t ∧
      (leAt d 60 4 = crc32c (d.take 60) → leAt d 2 2 = (s.ring fn r).alive → s.descStatus fn r d = none →
        (t.ring fn r).exec = some ⟨d, if (bufLen d).isSome then .wait else .none, false⟩ ∧
        (t.ring fn r).alive = ((s.ring fn r).alive + 1) % 65536 ∧ (t.ring fn r).fetched = [] ∧
        (t.ring fn r).cons = (s.ring fn r).cons) ∧
      (∀ e, leAt d 60 4 = crc32c (d.take 60) → leAt d 2 2 = (s.ring fn r).alive → s.descStatus fn r d = some e →
        (t.ring fn r).exec = none ∧ (t.ring fn r).cons = ((s.ring fn r).cons + 1) % 2 ^ 32 ∧
        (t.ring fn r).alive = ((s.ring fn r).alive + 1) % 65536) ∧
      ((leAt d 60 4 ≠ crc32c (d.take 60) ∨ leAt d 2 2 ≠ (s.ring fn r).alive) →
        (t.ring fn r).reread = true ∧ (t.ring fn r).exec = none ∧ (t.ring fn r).alive = (s.ring fn r).alive ∧
        (t.ring fn r).cons = (s.ring fn r).cons ∧ t.io.defects = s.io.defects) ∧
      ((leAt d 60 4 ≠ crc32c (d.take 60) ∨ leAt d 2 2 ≠ (s.ring fn r).alive ∨ s.descStatus fn r d = none) →
        s.onlyIn t (.rings :: evParts))) ∧
    ((s.ring fn r).reread = true →
      ∃ t, exec (.descriptorReread fn r (.data d)) s = .next t ∧
      (leAt d 60 4 = crc32c (d.take 60) → leAt d 2 2 = (s.ring fn r).alive → s.descStatus fn r d = none →
        (t.ring fn r).exec = some ⟨d, if (bufLen d).isSome then .wait else .none, false⟩ ∧
        (t.ring fn r).reread = false) ∧
      ((leAt d 60 4 ≠ crc32c (d.take 60) ∨ leAt d 2 2 ≠ (s.ring fn r).alive) →
        (t.ring fn r).st = .halted ∧ (t.ring fn r).cons = (s.ring fn r).cons ∧
        (t.ring fn r).cause = (if leAt d 60 4 ≠ crc32c (d.take 60) then 2 else 1) ∧
        t.stands 0x0104 0 r fn.num = true ∧ t.cnt .HST_RING_HALT_CNT (ringIdx fn r) =
          min 0xFFFFFFFF (s.cnt .HST_RING_HALT_CNT (ringIdx fn r) + 1)) ∧
      s.onlyIn t cmdParts) ∧
    (∀ l : List ReadOut, ∃ t, exec (.descriptorArrive fn r l) s = .next t ∧ (t.ring fn r).prod = (s.ring fn r).prod ∧
      ((s.ring fn r).reread = true → t = s))

/-- R468, R473, R479, R480, R481, R490, R493: NOP completes with OK; a command whose timeout expires unaccepted completes
with TIMEOUT; a staged read's result is the staged word; SNAPSHOT latches the blocks that its mask names. A completion
advances the consumer index, frees the ring for the next command and is written to the slot of the consumer index, or
held while the link is down. -/
def Obligations.CommandCompletions : Prop :=
  ∀ (s : State) (fn : Fn) (r : Nat) (c : ExecCmd), s.sys.held = false → (s.ring fn r).exec = some c →
    (∀ st res, (s.ring fn r).fetched = [] →
      ((s.finish fn r st res).ring fn r).cons = ((s.ring fn r).cons + 1) % 2 ^ 32 ∧
      ((s.finish fn r st res).ring fn r).exec = none ∧
      ((s.ring fn r).heldCpl = [] → s.io.up = true →
        .hostWrite (s.cf F.HST_CPL_BASE_LO_ADDR (ringIdx fn r) + 2 ^ 32 * s.cf F.HST_CPL_BASE_HI_ADDR (ringIdx fn r) +
            (s.ring fn r).cons % s.ringSize fn r * 16)
          (cplBytes (leAt c.desc 4 4) ((s.ring fn r).cons % s.ringSize fn r) st
            (1 - (s.ring fn r).cons / s.ringSize fn r % 2) (res % 2 ^ 32) (leAt c.desc 2 2)) ∈
          (s.finish fn r st res).io.out) ∧
      (s.io.up = false → ((s.finish fn r st res).ring fn r).heldCpl.length = (s.ring fn r).heldCpl.length + 1 ∧
        (s.finish fn r st res).io.out = s.io.out)) ∧
    (s.running fn r 0x0001 = some c → ∃ t, exec (.nop fn r) s = .next t ∧ t = s.finish fn r 0 0 ∧ s.onlyIn t cmdParts) ∧
    (c.accepted = false → leAt c.desc 10 2 ≠ 0xFFFF → leAt c.desc 10 2 ≠ 0 →
      ∃ t, exec (.commandTimeout fn r) s = .next t ∧ t = s.finish fn r 7 0 ∧ s.onlyIn t cmdParts) ∧
    (s.running fn r 0x0102 = some c → ∃ t, exec (.stagedRead fn r) s = .next t ∧
      t = s.finish fn r 0 (s.stagedAt fn (leAt c.desc 16 4)).toNat ∧ s.onlyIn t cmdParts) ∧
    (s.running fn r 0x0004 = some c → ∃ t, exec (.snapshot fn r) s = .next t ∧
      (∀ b : Fin 15, (t.snap b).frozen = ((s.snap b).frozen || bit (leAt c.desc 16 4) b)) ∧
      (∀ b : Fin 15, bit (leAt c.desc 16 4) b = true → (t.snap b).count = ((s.snap b).count + 1) % 2 ^ 31) ∧
      (t.ring fn r) = ((s.finish fn r 0 0).ring fn r) ∧ s.onlyIn t (.latches :: cmdParts)) ∧
    (∀ got : ReadOut, c.buf = .wait → s.io.up = true →
      ∃ t, exec (.bufferReadDone fn r got) s = .next t ∧
      (got.check ((bufLen c.desc).getD 0) = 0 →
        (t.ring fn r).exec = some { c with buf := .ready got.bytes } ∧ s.onlyIn t [.rings]) ∧
      (got.check ((bufLen c.desc).getD 0) ≠ 0 → descOp c.desc ≠ 0x0403 →
        t = s.finish fn r 0x0C (got.check ((bufLen c.desc).getD 0)) ∧ s.onlyIn t cmdParts))

/-- R484, R485, R487 to R489: an event or message ring is enabled only with a size and a base in range; a PF1 ring is never
class 0. A head write sets HEAD, and a held record that now has room is posted. The coalescing timer sends the ring's
vector for what is not signalled. -/
def Obligations.EventRings : Prop :=
  ∀ (s : State) (fn : Fn) (e i : Nat), s.sys.held = false → evrIdx fn e = some i →
    (∀ w : Word, ∃ t, exec (.evrEnable fn e w) s = .next t ∧
      t.cf F.EVT_EVR_CTL_EN i = (if bits w 31 31 = 1 ∧ 6 ≤ bits w 28 24 ∧ bits w 28 24 ≤ 16 ∧
        s.cf F.EVT_EVR_BASE_LO_ADDR i % 4096 = 0 then 1 else 0) ∧
      t.cf F.EVT_EVR_CTL_LOG2SIZE i = bits w 28 24 ∧ evrUrgent t.rd i = (decide (i < 4) && bits w 30 30 == 1) ∧
      (∀ k, k ≠ ⟨.EVT_EVR_CTL, i⟩ → t.rd k = s.rd k) ∧ s.onlyIn t (.regs :: evParts)) ∧
    (∀ w : Word, ∃ t, exec (.evrHeadWrite fn e w) s = .next t ∧ t.rd ⟨.EVT_EVR_HEAD, i⟩ = w ∧
      (∀ k, k ≠ ⟨.EVT_EVR_HEAD, i⟩ → t.rd k = s.rd k) ∧
      (s.io.heldEv = [] → (∀ j : Nat, j < 6 → (s.io.evring j).lost = 0) → t.io = s.io) ∧
      (∀ h : HeldEv, s.io.heldEv = [h] → (∀ j : Nat, j < 6 → (s.io.evring j).lost = 0) → h.ring t.rd = i →
        s.io.canPost t.rd i = true →
        t.io.heldEv = [] ∧ (t.io.evring i).tail = ((s.io.evring i).tail + 1) % 2 ^ 32) ∧
      s.onlyIn t (.regs :: evParts)) ∧
    (0 < (s.io.evring i).unsig → ∃ t, exec (.coalesceTimer fn e) s = .next t ∧ (t.io.evring i).unsig = 0 ∧
      ((∃ v, t.io.out = .msix fn v :: s.io.out) ∨ (t.io.out = s.io.out ∧
        (fn, s.cf F.EVT_EVR_CTL_VECTOR i) ∈ t.io.pba)) ∧ s.onlyIn t evParts) ∧
    (∀ w : Word, ∃ t, exec (.msgRingEnable w) s = .next t ∧
      t.cf F.EVT_MSG_CTL_EN 0 = (if bits w 31 31 = 1 ∧ 4 ≤ bits w 3 0 ∧ bits w 3 0 ≤ 10 ∧
        s.cf F.EVT_MSG_BASE_LO_ADDR 0 % 4096 = 0 then 1 else 0) ∧ t.cf F.EVT_MSG_CTL_LOG2SLOTS 0 = bits w 3 0 ∧
      (∀ k, k ≠ ⟨.EVT_MSG_CTL, 0⟩ → t.rd k = s.rd k) ∧ s.onlyIn t [.regs]) ∧
    (∀ w : Word, ∃ t, exec (.msgHeadWrite w) s = .next t ∧ t.cf F.EVT_MSG_HEAD_INDEX 0 = w.toNat ∧
      (∀ k, k ≠ ⟨.EVT_MSG_HEAD, 0⟩ → t.rd k = s.rd k) ∧ s.onlyIn t [.regs])

/-- R17, R464, R468, R491, R543, R546: a lost link changes nothing but the link; when it returns, every held completion is
written. A reset of a function returns its rings to reset, RING_ALIVE apart, and leaves the other function's rings and the
configuration; PF0's discards the staging copies and leaves pending commits. PERST_N low does both and drops the link. -/
def Obligations.LinkAndFunctionResets : Prop :=
  ∀ (s : State), s.sys.held = false →
    exec .pcieLinkDown s = .next { s with io := { s.io with link := false } } ∧
    (∃ t, exec .pcieLinkUp s = .next t ∧ t.io.link = true ∧ t.io.perst = s.io.perst ∧
      (s.io.perst = false → ∀ fn r, (t.ring fn r).heldCpl = []) ∧ s.onlyIn t (.host :: .rings :: evParts)) ∧
    (∃ t, exec .flrPf0 s = .next t ∧ (∀ r, t.ring .PF0 r = { ringReset with alive := (s.ring .PF0 r).alive }) ∧
      (∀ r, t.ring .PF1 r = s.ring .PF1 r) ∧ t.regs.staged = [] ∧ t.regs.pend = s.regs.pend ∧
      (∀ k, fnReg .PF0 k = false → t.rd k = s.rd k) ∧ (∀ k, fnReg .PF0 k = true → t.rd k = resetWord k) ∧
      t.io.link = s.io.link ∧ s.onlyIn t (.host :: .regs :: cmdParts)) ∧
    (∃ t, exec .flrPf1 s = .next t ∧ (∀ r, t.ring .PF1 r = { ringReset with alive := (s.ring .PF1 r).alive }) ∧
      (∀ r, t.ring .PF0 r = s.ring .PF0 r) ∧ t.regs.staged = s.regs.staged ∧ t.regs.pend = s.regs.pend ∧
      (∀ k, fnReg .PF1 k = false → t.rd k = s.rd k) ∧ (∀ k, fnReg .PF1 k = true → t.rd k = resetWord k) ∧
      t.io.msgTail = s.io.msgTail ∧ s.onlyIn t (.regs :: cmdParts)) ∧
    (∃ t, exec (.perst true) s = .next t ∧ t.io.perst = true ∧ t.io.link = false ∧
      (∀ fn r, t.ring fn r = { ringReset with alive := (s.ring fn r).alive }) ∧ t.regs.staged = [] ∧
      t.regs.pend = s.regs.pend ∧ s.onlyIn t (.host :: .regs :: cmdParts)) ∧
    exec (.perst false) s = .next { s with io := { s.io with perst := false } }

/-! ### Boot and trust (chapter 20) -/

/-- R16, R521 to R529, R545, R546: the ROM runs the image of the last slot or of the host whose checks pass, and otherwise
shows that the boot failed; ready firmware reports and serves. A restart makes commands wait and aborts the passes of
calibrations. A downloaded image is staged only when its checks pass; an activation runs it, or, when it fails or is late,
the one before it; a refused one changes nothing. An OTP advance takes effect when it is done. -/
def Obligations.BootAndFirmware : Prop :=
  ∀ (s : State), s.sys.held = false →
    (s.boot.st = 2 → s.boot.hostBoot = false →
      (s.boot.tried = [] → ∃ t, exec (.bootImageChecked none none none) s = .next t ∧ t.boot.st = 4 ∧ t.boot.fail = 5 ∧
        t.boot.running = s.boot.running ∧ s.onlyIn t [.boot]) ∧
      (∀ h b : Bytes, s.boot.tried = [1] → ∃ t, exec (.bootImageChecked (some h) none (some b)) s = .next t ∧
        s.onlyIn t [.boot] ∧
        (if s.hdrCheck h = 0 ∧ s.imgCheck (if b.length = imgLen (h.take 7296) then some (h.take 7296 ++ b) else none) = 0
         then t.boot.st = 3 ∧ t.boot.running = some (fwOf (h.take 7296 ++ b) 0) else t.boot.st = 4))) ∧
    (∀ h0 h1 b : Option Bytes, ∃ t, exec (.bootImageChecked h0 h1 b) s = .next t ∧ s.onlyIn t [.boot] ∧
      (s.boot.st ≠ 2 ∨ s.boot.hostBoot = true → t = s) ∧
      (s.boot.st = 2 → s.boot.hostBoot = false → t.boot.st = 4 ∨ t.boot.st = 3 ∧ t.boot.running.isSome = true ∨
        t.boot.st = 2 ∧ t.boot.tried.length = s.boot.tried.length + 1)) ∧
    (s.boot.st = 1 ∨ s.boot.st = 4 → exec (.bootMbxGo .PF0) s = .next s ∧ ∃ t, exec (.bootMbxGo .PF1) s = .next t ∧
      t.boot = { s.boot with st := 2, hostBoot := true } ∧ s.onlyIn t [.boot]) ∧
    (∀ b : Bytes, s.boot.st = 2 → s.boot.hostBoot = true → ∃ t, exec (.hostImageChecked (some b)) s = .next t ∧
      t.boot.hostBoot = false ∧ s.onlyIn t [.boot] ∧
      (if b.length = (s.rd ⟨.SEC_BOOT_MBX_LEN, 0⟩).toNat ∧ s.imgCheck (some b) = 0 then t.boot.st = 3 ∧
        t.boot.running = some (fwOf b 2) else t.boot.st = 4 ∧ t.boot.running = s.boot.running)) ∧
    (s.boot.mpUp = false → exec .mpRestart s = .next s ∧ exec .watchdogExpire s = .next s) ∧
    (s.boot.mpUp = true →
      (∃ t, exec .mpRestart s = .next t ∧ t.boot = { s.boot with mpUp := false, st := 5 } ∧
        s.onlyIn t (.boot :: .cal :: evParts) ∧ ∀ i : Fin 24, s.calPass i = true → (t.cali i).st = .idle) ∧
      (∃ t, exec .watchdogExpire s = .next t ∧ t.boot = { s.boot with mpUp := false, st := 5, watchdog := true } ∧
        s.onlyIn t (.boot :: .cal :: evParts))) ∧
    (s.boot.mpUp = false → s.boot.st = 5 → s.boot.activating = false → ∃ t, exec .mpReturn s = .next t ∧
      t.boot = { s.boot with mpUp := true, st := 3, watchdog := false } ∧ s.onlyIn t (.boot :: evParts)) ∧
    (∀ f, s.boot.running = some f → s.boot.mpUp = false → s.boot.st = 3 → ∃ t, exec .firmwareReady s = .next t ∧
      t.boot = { s.boot with mpUp := true, resetEvent := false, fails := [], watchdog := false, reverted := none,
                             activating := false, prev := if s.boot.activating then none else s.boot.prev } ∧
      t.cnt .SEC_FW_ACT_CNT 0 = (if s.boot.activating then min 0xFFFFFFFF (s.cnt .SEC_FW_ACT_CNT 0 + 1)
        else s.cnt .SEC_FW_ACT_CNT 0) ∧ (s.boot.idState = 2 → t.stands 0x1207 0 0 = true) ∧
      s.onlyIn t (.boot :: .sys :: .mem :: defParts)) ∧
    (∀ (fn : Fn) (r : Nat) (c : ExecCmd), s.running fn r 0x0403 = some c →
      (byteAt c.desc 16 = 0 → ∃ t, exec (.fwDownload fn r) s = .next t ∧ s.onlyIn t (.boot :: cmdParts) ∧
        (if s.imgCheck (some c.data) = 0 then
          t.boot = { s.boot with staged := some (fwOf c.data 3), stagedBody := c.data, dlFail := 0 } ∧
          t.ring fn r = (s.finish fn r 0 0).ring fn r
         else t.boot = { s.boot with dlFail := s.imgCheck (some c.data) } ∧
          t.ring fn r = (s.finish fn r 11 (if s.imgCheck (some c.data) = 3 then 1 else 4)).ring fn r)) ∧
      (byteAt c.desc 16 ≠ 0 → (∀ f, s.boot.running = some f → byteAt c.desc 16 ≠ f.src + 1) →
        ∃ t, exec (.fwDownload fn r) s = .next t ∧ s.onlyIn t (.boot :: cmdParts) ∧
        (if s.imgCheck (some c.data) = 0 then
          t.boot = { s.boot with staged := some (fwOf c.data 3), stagedBody := c.data, dlFail := 0, flash := 1,
                                 flashSlot := byteAt c.desc 16 - 1, flashImg := some (fwOf c.data 3) } ∧
          t.ring fn r = (s.finish fn r 0 0).ring fn r ∧
          .flash ((byteAt c.desc 16 - 1) * 0x1000000) c.data ∈ t.io.out
         else t.boot = { s.boot with dlFail := s.imgCheck (some c.data) } ∧
          t.ring fn r = (s.finish fn r 11 (if s.imgCheck (some c.data) = 3 then 1 else 4)).ring fn r)) ∧
      (∀ f, s.boot.running = some f → byteAt c.desc 16 = f.src + 1 →
        exec (.fwDownload fn r) s = .next (s.finish fn r 11 2))) ∧
    (∀ ok : Bool, s.boot.flash = 1 → ∃ t, exec (.flashWriteDone ok) s = .next t ∧
      t.boot = { s.boot with flash := if ok then 2 else 3, flashImg := none } ∧ s.onlyIn t (.boot :: evParts)) ∧
    (∀ (fn : Fn) (r : Nat) (c : ExecCmd), s.running fn r 0x0404 = some c →
      (byteAt c.desc 16 = 0 → s.boot.staged = none → exec (.fwActivate fn r) s = .next (s.finish fn r 10 0)) ∧
      (byteAt c.desc 16 = 0 → s.boot.staged.isSome = true → s.actBusy = true → byteAt c.desc 17 = 0 →
        exec (.fwActivate fn r) s = .next (s.finish fn r 2 0)) ∧
      (byteAt c.desc 16 = 0 → s.boot.staged.isSome = true → s.actBusy = false → ∃ t, exec (.fwActivate fn r) s = .next t ∧
        t.boot = { s.boot with mpUp := false, st := 5, activating := true, prev := s.boot.running, running := none } ∧
        t.ring fn r = (s.finish fn r 0 0).ring fn r ∧ s.onlyIn t (.boot :: cmdParts)) ∧
      (∀ f, byteAt c.desc 16 = 1 → s.boot.running = some f → s.boot.otpSvn < f.svn →
        ∃ t, exec (.fwActivate fn r) s = .next t ∧ s.onlyIn t (.boot :: cmdParts) ∧ t.boot = { s.boot with
          otpTarget := some (f.svn, (List.range f.key).filter fun k => !s.boot.otpRevoked.contains k) })) ∧
    (∀ f p : FwImg, s.boot.activating = true → s.boot.st = 5 → s.boot.staged = some f → s.boot.prev = some p →
      ∃ t, exec (.stagedImageChecked true) s = .next t ∧ t.boot.st = 3 ∧ s.onlyIn t [.boot] ∧
      (if s.imgCheck (some s.boot.stagedBody) = 0 then t.boot.running = some f
       else t.boot.running = some p ∧ t.boot.staged = none ∧ t.boot.fail = s.imgCheck (some s.boot.stagedBody))) ∧
    (∀ intact : Bool, ∃ t, exec (.stagedImageChecked intact) s = .next t ∧ s.onlyIn t [.boot] ∧
      (s.boot.activating = false ∨ s.boot.st ≠ 5 → t = s) ∧
      (∀ p : FwImg, intact = false → s.boot.activating = true → s.boot.st = 5 → s.boot.prev = some p →
        t.boot.running = some p ∧ t.boot.staged = none)) ∧
    (∀ p : FwImg, s.boot.activating = true → s.boot.st = 3 → s.boot.mpUp = false → s.boot.reverted = none →
      s.boot.prev = some p → ∃ t, exec .activationTimeout s = .next t ∧ t.boot.running = some p ∧
      t.boot.reverted.isSome = true ∧ t.boot.st = 3 ∧ s.onlyIn t [.boot]) ∧
    (∀ (n : Nat) (l : List Nat), s.boot.otpTarget = some (n, l) → ∃ t, exec .otpAdvanceDone s = .next t ∧
      t.boot = { s.boot with otpSvn := n, otpRevoked := s.boot.otpRevoked ++ l, otpTarget := none } ∧
      s.onlyIn t (.boot :: evParts))

/-- R530 to R533, R535 to R537: the identity is reconstructed, or given up at the third failure; a pending digest becomes that
of the active values; a report is signed for one request at a time. A challenge is 32 bytes; a token that verifies erases
identity, staging and keys and unlocks debug, and any other does nothing. A locked JTAG instruction acts as BYPASS. -/
def Obligations.IdentityAndDebug : Prop :=
  ∀ (s : State), s.sys.held = false →
    (s.boot.idState = 0 → s.mem.starch = true →
      (∃ t, exec (.identityReconstruct true) s = .next t ∧ t.boot.idState = 1 ∧ t.boot.idPub.length = 2592 ∧
        t.boot.ident = (beBytes 32 (Config.sha3x256 t.boot.idPub).toNat).take 8 ∧ s.onlyIn t [.boot]) ∧
      (∃ t, exec (.identityReconstruct false) s = .next t ∧ t.boot.idTries = s.boot.idTries + 1 ∧
        (s.boot.idTries < 2 → t.boot.idState = 0) ∧ (2 ≤ s.boot.idTries → t.boot.idState = 2 ∧
          (s.boot.mpUp = true → t.stands 0x1207 0 0 = true)) ∧ s.onlyIn t (.boot :: defParts))) ∧
    (s.boot.cfgPending = true → ∃ t, exec .digestRecomputed s = .next t ∧ t.boot = { s.boot with
      cfgPending := false, cfgDigest := digestOf s.rd, cfgDtime := s.boot.cfgLast } ∧ s.onlyIn t [.boot]) ∧
    (∀ (fn : Fn) (r : Nat) (c : ExecCmd), s.running fn r 0x0405 = some c →
      (s.boot.attBusy.isSome = true → exec (.attest fn r) s = .next (s.finish fn r 2 0)) ∧
      (s.boot.attBusy = none → s.boot.idState ≠ 1 → exec (.attest fn r) s = .next (s.finish fn r 11 4)) ∧
      (s.boot.attBusy = none → s.boot.idState = 1 → ∃ t, exec (.attest fn r) s = .next t ∧
        t.boot = { s.boot with attBusy := some (fn, r, s.attBody (sub c.desc 16 32)) } ∧
        (t.ring fn r).exec = some { c with accepted := true } ∧ s.onlyIn t [.rings, .boot])) ∧
    (∀ (fn : Fn) (r : Nat) (b : Bytes), s.boot.attBusy = some (fn, r, b) → ∃ t, exec .attestSignDone s = .next t ∧
      t.boot.attBusy = none ∧ t.boot.attCnt = (s.boot.attCnt + 1) % 2 ^ 32 ∧ t.boot.attReport.take b.length = b ∧
      t.boot.attReport.length = b.length + 4640 ∧ s.onlyIn t (.sys :: .boot :: cmdParts) ∧
      (s.attWaits fn r = false → s.onlyIn t [.sys, .boot])) ∧
    (∃ t, exec .dbgChallenge s = .next t ∧ t.boot.dbgChal.length = 32 ∧ s.onlyIn t [.sys, .boot]) ∧
    (s.boot.dbgChal = [] → exec .dbgSubmit s = .next s) ∧
    (s.boot.dbgChal ≠ [] → ∃ t, exec .dbgSubmit s = .next t ∧
      (if Config.dbgVerify (s.boot.dbgChal ++ padTo 8 s.boot.ident) ((List.range 4627).map s.tokenByte) = true then
        t.boot = { s.boot with idState := 3, idSeed := [], staged := none, stagedBody := [], dbgUnlocked := true } ∧
        (∀ c : Nat, (t.ciphCh c).p0 = none ∧ (t.ciphCh c).p1 = none) ∧ t.stands 0x1208 0 0 = true ∧
        s.onlyIn t (.sys :: .boot :: .ciph :: .seam :: .cli :: defParts)
       else t = s)) ∧
    (∀ i : Fin 11, ∃ t, exec (.jtagInstruction i) s = .next t ∧ s.onlyIn t [.boot] ∧ t.boot = { s.boot with
      tap := if 9 ≤ i.val ∧ s.boot.dbgUnlocked = false then 0 else i.val })

/-! ### Power, resets, heat, life (chapter 21) -/

/-- R194, R195, R525, R540 to R546, R549 to R553: a power-on reset clears all but OTP; its release starts the block. A warm reset
by PF1's key forces the outputs and drops what is pending, and when done keeps device time, the frame counts and the timing
unit and leaves every other register at reset. A sample sets the levels, the highest of which forces the outputs; actions
are shed and restored in order. Life adds up, and is saved by running firmware. -/
def Obligations.PowerAndHeat : Prop :=
  ∀ (s : State),
    (∀ n : Nat, ∃ t, exec (.powerOnReset n) s = .next t ∧ t.sys.held = true ∧ t.sys.rstCause = 0 ∧ t.sys.dtime = 0 ∧
      t.regs = ⟨[], [], []⟩ ∧ t.io.cnt = [] ∧ t.io.rings = [] ∧ t.mem.windows = [] ∧ t.ciph.ch = [] ∧
      t.pending = s.pending ∧ t.boot.otpRevoked = s.boot.otpRevoked ∧
      (s.boot.otpTarget = none → t.boot.otpSvn = s.boot.otpSvn)) ∧
    (∃ t, exec .porstRelease s = .next t ∧ t.sys = { s.sys with held := false } ∧ s.onlyIn t [.sys]) ∧
    (s.sys.held = false →
      (∀ (p : Fin 3) (n : Nat), ∃ t, exec (.supplyUndervoltage p n) s = .next t ∧ t.sys.held = true ∧
        t.sys.rstCause = 1 ∧ t.sys.rstRail = 2 ^ p.val ∧ t.regs = ⟨[], [], []⟩ ∧ t.pending = s.pending) ∧
      (∀ w : Word, exec (.warmReset .PF0 w) s = .next s) ∧
      (s.sys.warm = false → ∃ t, exec (.warmReset .PF1 0x57410001) s = .next t ∧ t.sys = { s.sys with warm := true } ∧
        t.regs.pend = [] ∧ t.carA.tx.st = .forced ∧ t.carB.tx.st = .forced ∧
        t.carA.plan.prop = none ∧ t.carB.plan.prop = none ∧ (t.ka .A).key = [] ∧ (t.ka .B).key = [] ∧
        s.onlyIn t (.sys :: .plan .A :: .plan .B :: .fec .A :: .fec .B :: .ciph :: outParts .A ++ outParts .B ++
          defParts)) ∧
      (s.sys.warm = true → ∃ t, exec .warmResetDone s = .next t ∧ t.sys.warm = false ∧ t.sys.rstCause = 2 ∧
        t.sys.dtime = s.sys.dtime ∧ t.sys.txMfc = s.sys.txMfc ∧ t.sys.txFn = s.sys.txFn ∧ t.tim = s.tim ∧
        t.rd = (fun k => if warmKeeps k = true then s.rd k else resetWord k) ∧ t.regs.staged = [] ∧
        t.mem.starch = false ∧ t.boot.otpSvn = s.boot.otpSvn ∧ t.pending = s.pending) ∧
      (s.sys.warm = false → exec .warmResetDone s = .next s) ∧
      (∀ a b c d : Int, ∃ t, exec (.thermalSample a b c d) s = .next t ∧ t.sys.tj = max (max a b) (max c d) ∧
        t.sys.tjMax = max s.sys.tjMax (min 255 t.sys.tj.toNat) ∧
        (s.warnAt ≤ t.sys.tj → t.sys.warn = true ∧ t.stands 0x1301 0 0 = true) ∧
        (125 ≤ t.sys.tj → t.sys.shutdown = true ∧ t.stands 0x1303 0 0 = true ∧ t.carA.tx.st = .forced ∧
          t.carB.tx.st = .forced) ∧
        (s.shedAt ≤ t.sys.tj → t.sys.tj < 125 → s.cf F.GLB_THERM_CTL_SHED_EN 0 = 1 → s.sys.shedding = false →
          t.sys.shedding = true ∧ t.stands 0x1302 0 0 = true) ∧
        s.onlyIn t (.sys :: behind .A ++ behind .B)) ∧
      (s.sys.shedding = true → s.shedAt ≤ s.sys.tj →
        (s.sys.shed.contains .aux = false → ∃ t, exec .shedAction s = .next t ∧ t.sys.shed = .aux :: s.sys.shed ∧
          t.carA.cm.run = false ∧ t.carB.cm.run = false ∧ t.carA.rxc.cap = none ∧ t.carB.rxc.cap = none ∧
          s.onlyIn t (.sys :: .cm .A :: .cm .B :: .rxc .A :: .rxc .B :: evParts)) ∧
        (s.sys.shed.contains .aux = true → ∃ t, exec .shedAction s = .next t ∧
          (∀ x k, s.shedNext = some (x, k) → t.sys.shed = .step x k :: s.sys.shed ∧ t.carA.fe.cmp = none ∧
            t.carB.fe.cmp = none) ∧
          (s.shedNext = none → s.sys.shed.contains .passCap = false → t.sys.shed = .passCap :: s.sys.shed) ∧
          s.onlyIn t [.sys, .fe .A, .fe .B])) ∧
      (s.sys.shedding = true → s.sys.tj < s.shedAt → 10000 ≤ s.sys.coolShed → ∃ t, exec .shedRestore s = .next t ∧
        t.sys.shed = s.sys.shed.tail ∧ (s.sys.shed.tail = [] → t.sys.shedding = false ∧ t.stands 0x1302 0 0 = false) ∧
        (s.sys.shed.tail ≠ [] → t.sys.shedding = true) ∧ s.onlyIn t (.sys :: .fe .A :: .fe .B :: defParts)) ∧
      (∃ t, exec .lifeSecond s = .next t ∧
        t.cnt .GLB_LIFE_LO 0 = (s.cnt .GLB_LIFE_LO 0 + (s.sys.lifeFrac + (1000 * lifeAF s.sys.tj).toNat) / 2 ^ 96) % 2 ^ 64 ∧
        t.sys.lifeFrac = (s.sys.lifeFrac + (1000 * lifeAF s.sys.tj).toNat) % 2 ^ 96 ∧
        t.sys.lifeWarned = decide (s.lifeLimit ≤ t.cnt .GLB_LIFE_LO 0) ∧ s.onlyIn t (.sys :: evParts)) ∧
      (s.boot.mpUp = true → ∃ t, exec .lifeSave s = .next t ∧
        t.sys = { s.sys with lifeSaved := some (s.cnt .GLB_LIFE_LO 0) } ∧ s.onlyIn t [.sys]))

/-! ### The whole block -/

/-- Every command answers a next state and leaves the queue behind it as it was. In power-on reset a command has no effect
(R540, R543), but for the levels of PFAIL_N and PERST_N, a further reset, and the release. With no command waiting a cycle
of the control clock passes (R37; the model's choice, log 1): device time runs on, and no register changes. -/
def Obligations.EveryCommandCompletes : Prop :=
  ∀ (s : State),
    (∀ c : Instr, ∃ t, exec c s = .next t ∧ t.pending = s.pending) ∧
    (s.sys.held = true → ∀ c : Instr, (∀ n, c ≠ .powerOnReset n) → c ≠ .porstRelease → c ≠ .pfail → c ≠ .pfailRelease →
      (∀ b, c ≠ .perst b) → exec c s = .next s) ∧
    (s.pending = [] → s.sys.held = true → step s = .next s) ∧
    (s.pending = [] → s.sys.held = false → ∃ t, step s = .next t ∧ t.sys = { s.sys with dtime := s.sys.dtime + 163840 } ∧
      s.onlyIn t [.sys, .chk, .counters, .cm .A, .cm .B])

/-- The cells of the table windows keep their canonical form, addresses rising and no zero cell, in every step. -/
def Obligations.CellsStayCanonical : Prop :=
  ∀ s t : State, s.cellsOk → step s = .next t → t.cellsOk

/-- R11, R20, R26, R438, R540, R543 after the release of power-on reset: device time and the transmit counts are zero, no value
is staged or pending, every active value is the reset value, no memory holds anything, starch has not ended and no command
waits. -/
def Obligations.ResetState : Prop :=
  State.reset.sys.held = false ∧ State.reset.ns = 0 ∧ State.reset.sys.txMfc = 0 ∧ State.reset.sys.txFn = 0 ∧
  State.reset.regs.staged = [] ∧ State.reset.regs.pend = [] ∧ (∀ k, State.reset.rd k = resetWord k) ∧
  (∀ a, cellsGet State.reset.mem.windows a = 0) ∧ State.reset.cellsOk ∧ State.reset.mem.starch = false ∧
  State.reset.boot.st = 0 ∧ State.reset.pending = []
end

