-- ==== Sys2Proof/Decode.lean ====
section
/-! DEFINITION. Decoding of table words: the table gives no row bits, so no word spells a command (log 2). -/

namespace Sys2Proof

/-- The command that a word of the table's bits spells: none. -/
def decodeTableWord (_nbits _w : Nat) : Option Instr := none

end Sys2Proof
end

