-- ==== Sys2Proof/Laws/State.lean ====
section
/-! SUPPORT. What the shared operations of Machine/Ops.lean leave as it is: one lemma per operation and field. -/

namespace Sys2Proof.Machine

variable (s : State) (x y : Carrier)

/-! ### bump -/
@[simp] theorem State.bump_sys (r : RegId) (i n : Nat) : (s.bump r i n).sys = s.sys := rfl
@[simp] theorem State.bump_regs (r : RegId) (i n : Nat) : (s.bump r i n).regs = s.regs := rfl
@[simp] theorem State.bump_chk (r : RegId) (i n : Nat) : (s.bump r i n).chk = s.chk := rfl
@[simp] theorem State.bump_sti (r : RegId) (i n : Nat) : (s.bump r i n).sti = s.sti := rfl
@[simp] theorem State.bump_carA (r : RegId) (i n : Nat) : (s.bump r i n).carA = s.carA := rfl
@[simp] theorem State.bump_carB (r : RegId) (i n : Nat) : (s.bump r i n).carB = s.carB := rfl
@[simp] theorem State.bump_ciph (r : RegId) (i n : Nat) : (s.bump r i n).ciph = s.ciph := rfl
@[simp] theorem State.bump_seam (r : RegId) (i n : Nat) : (s.bump r i n).seam = s.seam := rfl
@[simp] theorem State.bump_cli (r : RegId) (i n : Nat) : (s.bump r i n).cli = s.cli := rfl
@[simp] theorem State.bump_tim (r : RegId) (i n : Nat) : (s.bump r i n).tim = s.tim := rfl
@[simp] theorem State.bump_mon (r : RegId) (i n : Nat) : (s.bump r i n).mon = s.mon := rfl
@[simp] theorem State.bump_cal (r : RegId) (i n : Nat) : (s.bump r i n).cal = s.cal := rfl
@[simp] theorem State.bump_mem (r : RegId) (i n : Nat) : (s.bump r i n).mem = s.mem := rfl
@[simp] theorem State.bump_cxl (r : RegId) (i n : Nat) : (s.bump r i n).cxl = s.cxl := rfl
@[simp] theorem State.bump_boot (r : RegId) (i n : Nat) : (s.bump r i n).boot = s.boot := rfl
@[simp] theorem State.bump_retired (r : RegId) (i n : Nat) : (s.bump r i n).retired = s.retired := rfl
@[simp] theorem State.bump_pending (r : RegId) (i n : Nat) : (s.bump r i n).pending = s.pending := rfl
@[simp] theorem State.bump_car (r : RegId) (i n : Nat) : (s.bump r i n).car y = s.car y := rfl
@[simp] theorem State.bump_rd (r : RegId) (i n : Nat) : (s.bump r i n).rd = s.rd := rfl
@[simp] theorem State.bump_cf (r : RegId) (i n : Nat) (fr : Fref) (j : Nat) : (s.bump r i n).cf fr j = s.cf fr j := rfl
@[simp] theorem State.bump_cfx (r : RegId) (i n : Nat) (fr : Fref) (j : Nat) : (s.bump r i n).cfx fr y j = s.cfx fr y j := rfl
@[simp] theorem State.bump_ns (r : RegId) (i n : Nat) : (s.bump r i n).ns = s.ns := rfl
@[simp] theorem State.bump_memo (r : RegId) (i n : Nat) (mm : Nat) : (s.bump r i n).memo mm = s.memo mm := rfl

/-! ### bump64 -/
@[simp] theorem State.bump64_sys (r : RegId) (i n : Nat) : (s.bump64 r i n).sys = s.sys := rfl
@[simp] theorem State.bump64_regs (r : RegId) (i n : Nat) : (s.bump64 r i n).regs = s.regs := rfl
@[simp] theorem State.bump64_chk (r : RegId) (i n : Nat) : (s.bump64 r i n).chk = s.chk := rfl
@[simp] theorem State.bump64_sti (r : RegId) (i n : Nat) : (s.bump64 r i n).sti = s.sti := rfl
@[simp] theorem State.bump64_carA (r : RegId) (i n : Nat) : (s.bump64 r i n).carA = s.carA := rfl
@[simp] theorem State.bump64_carB (r : RegId) (i n : Nat) : (s.bump64 r i n).carB = s.carB := rfl
@[simp] theorem State.bump64_ciph (r : RegId) (i n : Nat) : (s.bump64 r i n).ciph = s.ciph := rfl
@[simp] theorem State.bump64_seam (r : RegId) (i n : Nat) : (s.bump64 r i n).seam = s.seam := rfl
@[simp] theorem State.bump64_cli (r : RegId) (i n : Nat) : (s.bump64 r i n).cli = s.cli := rfl
@[simp] theorem State.bump64_tim (r : RegId) (i n : Nat) : (s.bump64 r i n).tim = s.tim := rfl
@[simp] theorem State.bump64_mon (r : RegId) (i n : Nat) : (s.bump64 r i n).mon = s.mon := rfl
@[simp] theorem State.bump64_cal (r : RegId) (i n : Nat) : (s.bump64 r i n).cal = s.cal := rfl
@[simp] theorem State.bump64_mem (r : RegId) (i n : Nat) : (s.bump64 r i n).mem = s.mem := rfl
@[simp] theorem State.bump64_cxl (r : RegId) (i n : Nat) : (s.bump64 r i n).cxl = s.cxl := rfl
@[simp] theorem State.bump64_boot (r : RegId) (i n : Nat) : (s.bump64 r i n).boot = s.boot := rfl
@[simp] theorem State.bump64_retired (r : RegId) (i n : Nat) : (s.bump64 r i n).retired = s.retired := rfl
@[simp] theorem State.bump64_pending (r : RegId) (i n : Nat) : (s.bump64 r i n).pending = s.pending := rfl
@[simp] theorem State.bump64_car (r : RegId) (i n : Nat) : (s.bump64 r i n).car y = s.car y := rfl
@[simp] theorem State.bump64_rd (r : RegId) (i n : Nat) : (s.bump64 r i n).rd = s.rd := rfl
@[simp] theorem State.bump64_cf (r : RegId) (i n : Nat) (fr : Fref) (j : Nat) : (s.bump64 r i n).cf fr j = s.cf fr j := rfl
@[simp] theorem State.bump64_cfx (r : RegId) (i n : Nat) (fr : Fref) (j : Nat) : (s.bump64 r i n).cfx fr y j = s.cfx fr y j := rfl
@[simp] theorem State.bump64_ns (r : RegId) (i n : Nat) : (s.bump64 r i n).ns = s.ns := rfl
@[simp] theorem State.bump64_memo (r : RegId) (i n : Nat) (mm : Nat) : (s.bump64 r i n).memo mm = s.memo mm := rfl

/-! ### bumpx -/
@[simp] theorem State.bumpx_sys (r : RegId) (n i : Nat) : (s.bumpx r x n i).sys = s.sys := rfl
@[simp] theorem State.bumpx_regs (r : RegId) (n i : Nat) : (s.bumpx r x n i).regs = s.regs := rfl
@[simp] theorem State.bumpx_chk (r : RegId) (n i : Nat) : (s.bumpx r x n i).chk = s.chk := rfl
@[simp] theorem State.bumpx_sti (r : RegId) (n i : Nat) : (s.bumpx r x n i).sti = s.sti := rfl
@[simp] theorem State.bumpx_carA (r : RegId) (n i : Nat) : (s.bumpx r x n i).carA = s.carA := rfl
@[simp] theorem State.bumpx_carB (r : RegId) (n i : Nat) : (s.bumpx r x n i).carB = s.carB := rfl
@[simp] theorem State.bumpx_ciph (r : RegId) (n i : Nat) : (s.bumpx r x n i).ciph = s.ciph := rfl
@[simp] theorem State.bumpx_seam (r : RegId) (n i : Nat) : (s.bumpx r x n i).seam = s.seam := rfl
@[simp] theorem State.bumpx_cli (r : RegId) (n i : Nat) : (s.bumpx r x n i).cli = s.cli := rfl
@[simp] theorem State.bumpx_tim (r : RegId) (n i : Nat) : (s.bumpx r x n i).tim = s.tim := rfl
@[simp] theorem State.bumpx_mon (r : RegId) (n i : Nat) : (s.bumpx r x n i).mon = s.mon := rfl
@[simp] theorem State.bumpx_cal (r : RegId) (n i : Nat) : (s.bumpx r x n i).cal = s.cal := rfl
@[simp] theorem State.bumpx_mem (r : RegId) (n i : Nat) : (s.bumpx r x n i).mem = s.mem := rfl
@[simp] theorem State.bumpx_cxl (r : RegId) (n i : Nat) : (s.bumpx r x n i).cxl = s.cxl := rfl
@[simp] theorem State.bumpx_boot (r : RegId) (n i : Nat) : (s.bumpx r x n i).boot = s.boot := rfl
@[simp] theorem State.bumpx_retired (r : RegId) (n i : Nat) : (s.bumpx r x n i).retired = s.retired := rfl
@[simp] theorem State.bumpx_pending (r : RegId) (n i : Nat) : (s.bumpx r x n i).pending = s.pending := rfl
@[simp] theorem State.bumpx_car (r : RegId) (n i : Nat) : (s.bumpx r x n i).car y = s.car y := rfl
@[simp] theorem State.bumpx_rd (r : RegId) (n i : Nat) : (s.bumpx r x n i).rd = s.rd := rfl
@[simp] theorem State.bumpx_cf (r : RegId) (n i : Nat) (fr : Fref) (j : Nat) : (s.bumpx r x n i).cf fr j = s.cf fr j := rfl
@[simp] theorem State.bumpx_cfx (r : RegId) (n i : Nat) (fr : Fref) (j : Nat) : (s.bumpx r x n i).cfx fr y j = s.cfx fr y j := rfl
@[simp] theorem State.bumpx_ns (r : RegId) (n i : Nat) : (s.bumpx r x n i).ns = s.ns := rfl
@[simp] theorem State.bumpx_memo (r : RegId) (n i : Nat) (mm : Nat) : (s.bumpx r x n i).memo mm = s.memo mm := rfl

/-! ### bumpx64 -/
@[simp] theorem State.bumpx64_sys (r : RegId) (n i : Nat) : (s.bumpx64 r x n i).sys = s.sys := rfl
@[simp] theorem State.bumpx64_regs (r : RegId) (n i : Nat) : (s.bumpx64 r x n i).regs = s.regs := rfl
@[simp] theorem State.bumpx64_chk (r : RegId) (n i : Nat) : (s.bumpx64 r x n i).chk = s.chk := rfl
@[simp] theorem State.bumpx64_sti (r : RegId) (n i : Nat) : (s.bumpx64 r x n i).sti = s.sti := rfl
@[simp] theorem State.bumpx64_carA (r : RegId) (n i : Nat) : (s.bumpx64 r x n i).carA = s.carA := rfl
@[simp] theorem State.bumpx64_carB (r : RegId) (n i : Nat) : (s.bumpx64 r x n i).carB = s.carB := rfl
@[simp] theorem State.bumpx64_ciph (r : RegId) (n i : Nat) : (s.bumpx64 r x n i).ciph = s.ciph := rfl
@[simp] theorem State.bumpx64_seam (r : RegId) (n i : Nat) : (s.bumpx64 r x n i).seam = s.seam := rfl
@[simp] theorem State.bumpx64_cli (r : RegId) (n i : Nat) : (s.bumpx64 r x n i).cli = s.cli := rfl
@[simp] theorem State.bumpx64_tim (r : RegId) (n i : Nat) : (s.bumpx64 r x n i).tim = s.tim := rfl
@[simp] theorem State.bumpx64_mon (r : RegId) (n i : Nat) : (s.bumpx64 r x n i).mon = s.mon := rfl
@[simp] theorem State.bumpx64_cal (r : RegId) (n i : Nat) : (s.bumpx64 r x n i).cal = s.cal := rfl
@[simp] theorem State.bumpx64_mem (r : RegId) (n i : Nat) : (s.bumpx64 r x n i).mem = s.mem := rfl
@[simp] theorem State.bumpx64_cxl (r : RegId) (n i : Nat) : (s.bumpx64 r x n i).cxl = s.cxl := rfl
@[simp] theorem State.bumpx64_boot (r : RegId) (n i : Nat) : (s.bumpx64 r x n i).boot = s.boot := rfl
@[simp] theorem State.bumpx64_retired (r : RegId) (n i : Nat) : (s.bumpx64 r x n i).retired = s.retired := rfl
@[simp] theorem State.bumpx64_pending (r : RegId) (n i : Nat) : (s.bumpx64 r x n i).pending = s.pending := rfl
@[simp] theorem State.bumpx64_car (r : RegId) (n i : Nat) : (s.bumpx64 r x n i).car y = s.car y := rfl
@[simp] theorem State.bumpx64_rd (r : RegId) (n i : Nat) : (s.bumpx64 r x n i).rd = s.rd := rfl
@[simp] theorem State.bumpx64_cf (r : RegId) (n i : Nat) (fr : Fref) (j : Nat) : (s.bumpx64 r x n i).cf fr j = s.cf fr j := rfl
@[simp] theorem State.bumpx64_cfx (r : RegId) (n i : Nat) (fr : Fref) (j : Nat) : (s.bumpx64 r x n i).cfx fr y j = s.cfx fr y j := rfl
@[simp] theorem State.bumpx64_ns (r : RegId) (n i : Nat) : (s.bumpx64 r x n i).ns = s.ns := rfl
@[simp] theorem State.bumpx64_memo (r : RegId) (n i : Nat) (mm : Nat) : (s.bumpx64 r x n i).memo mm = s.memo mm := rfl

/-! ### signal -/
@[simp] theorem State.signal_sys (a b c n : Nat) : (s.signal a b c n).sys = s.sys := rfl
@[simp] theorem State.signal_regs (a b c n : Nat) : (s.signal a b c n).regs = s.regs := rfl
@[simp] theorem State.signal_chk (a b c n : Nat) : (s.signal a b c n).chk = s.chk := rfl
@[simp] theorem State.signal_sti (a b c n : Nat) : (s.signal a b c n).sti = s.sti := rfl
@[simp] theorem State.signal_carA (a b c n : Nat) : (s.signal a b c n).carA = s.carA := rfl
@[simp] theorem State.signal_carB (a b c n : Nat) : (s.signal a b c n).carB = s.carB := rfl
@[simp] theorem State.signal_ciph (a b c n : Nat) : (s.signal a b c n).ciph = s.ciph := rfl
@[simp] theorem State.signal_seam (a b c n : Nat) : (s.signal a b c n).seam = s.seam := rfl
@[simp] theorem State.signal_cli (a b c n : Nat) : (s.signal a b c n).cli = s.cli := rfl
@[simp] theorem State.signal_tim (a b c n : Nat) : (s.signal a b c n).tim = s.tim := rfl
@[simp] theorem State.signal_mon (a b c n : Nat) : (s.signal a b c n).mon = s.mon := rfl
@[simp] theorem State.signal_cal (a b c n : Nat) : (s.signal a b c n).cal = s.cal := rfl
@[simp] theorem State.signal_mem (a b c n : Nat) : (s.signal a b c n).mem = s.mem := rfl
@[simp] theorem State.signal_cxl (a b c n : Nat) : (s.signal a b c n).cxl = s.cxl := rfl
@[simp] theorem State.signal_boot (a b c n : Nat) : (s.signal a b c n).boot = s.boot := rfl
@[simp] theorem State.signal_retired (a b c n : Nat) : (s.signal a b c n).retired = s.retired := rfl
@[simp] theorem State.signal_pending (a b c n : Nat) : (s.signal a b c n).pending = s.pending := rfl
@[simp] theorem State.signal_car (a b c n : Nat) : (s.signal a b c n).car y = s.car y := rfl
@[simp] theorem State.signal_rd (a b c n : Nat) : (s.signal a b c n).rd = s.rd := rfl
@[simp] theorem State.signal_cf (a b c n : Nat) (fr : Fref) (j : Nat) : (s.signal a b c n).cf fr j = s.cf fr j := rfl
@[simp] theorem State.signal_cfx (a b c n : Nat) (fr : Fref) (j : Nat) : (s.signal a b c n).cfx fr y j = s.cfx fr y j := rfl
@[simp] theorem State.signal_ns (a b c n : Nat) : (s.signal a b c n).ns = s.ns := rfl
@[simp] theorem State.signal_memo (a b c n : Nat) (mm : Nat) : (s.signal a b c n).memo mm = s.memo mm := rfl

/-! ### post -/
@[simp] theorem State.post_sys (a b c d : Nat) (l : Bytes) : (s.post a b c d l).sys = s.sys := rfl
@[simp] theorem State.post_regs (a b c d : Nat) (l : Bytes) : (s.post a b c d l).regs = s.regs := rfl
@[simp] theorem State.post_chk (a b c d : Nat) (l : Bytes) : (s.post a b c d l).chk = s.chk := rfl
@[simp] theorem State.post_sti (a b c d : Nat) (l : Bytes) : (s.post a b c d l).sti = s.sti := rfl
@[simp] theorem State.post_carA (a b c d : Nat) (l : Bytes) : (s.post a b c d l).carA = s.carA := rfl
@[simp] theorem State.post_carB (a b c d : Nat) (l : Bytes) : (s.post a b c d l).carB = s.carB := rfl
@[simp] theorem State.post_ciph (a b c d : Nat) (l : Bytes) : (s.post a b c d l).ciph = s.ciph := rfl
@[simp] theorem State.post_seam (a b c d : Nat) (l : Bytes) : (s.post a b c d l).seam = s.seam := rfl
@[simp] theorem State.post_cli (a b c d : Nat) (l : Bytes) : (s.post a b c d l).cli = s.cli := rfl
@[simp] theorem State.post_tim (a b c d : Nat) (l : Bytes) : (s.post a b c d l).tim = s.tim := rfl
@[simp] theorem State.post_mon (a b c d : Nat) (l : Bytes) : (s.post a b c d l).mon = s.mon := rfl
@[simp] theorem State.post_cal (a b c d : Nat) (l : Bytes) : (s.post a b c d l).cal = s.cal := rfl
@[simp] theorem State.post_mem (a b c d : Nat) (l : Bytes) : (s.post a b c d l).mem = s.mem := rfl
@[simp] theorem State.post_cxl (a b c d : Nat) (l : Bytes) : (s.post a b c d l).cxl = s.cxl := rfl
@[simp] theorem State.post_boot (a b c d : Nat) (l : Bytes) : (s.post a b c d l).boot = s.boot := rfl
@[simp] theorem State.post_retired (a b c d : Nat) (l : Bytes) : (s.post a b c d l).retired = s.retired := rfl
@[simp] theorem State.post_pending (a b c d : Nat) (l : Bytes) : (s.post a b c d l).pending = s.pending := rfl
@[simp] theorem State.post_car (a b c d : Nat) (l : Bytes) : (s.post a b c d l).car y = s.car y := rfl
@[simp] theorem State.post_rd (a b c d : Nat) (l : Bytes) : (s.post a b c d l).rd = s.rd := rfl
@[simp] theorem State.post_cf (a b c d : Nat) (l : Bytes) (fr : Fref) (j : Nat) : (s.post a b c d l).cf fr j = s.cf fr j := rfl
@[simp] theorem State.post_cfx (a b c d : Nat) (l : Bytes) (fr : Fref) (j : Nat) : (s.post a b c d l).cfx fr y j = s.cfx fr y j := rfl
@[simp] theorem State.post_ns (a b c d : Nat) (l : Bytes) : (s.post a b c d l).ns = s.ns := rfl
@[simp] theorem State.post_memo (a b c d : Nat) (l : Bytes) (mm : Nat) : (s.post a b c d l).memo mm = s.memo mm := rfl

/-! ### occ -/
@[simp] theorem State.occ_sys (a b c : Nat) (l : Bytes) : (s.occ a b c l).sys = s.sys := rfl
@[simp] theorem State.occ_regs (a b c : Nat) (l : Bytes) : (s.occ a b c l).regs = s.regs := rfl
@[simp] theorem State.occ_chk (a b c : Nat) (l : Bytes) : (s.occ a b c l).chk = s.chk := rfl
@[simp] theorem State.occ_sti (a b c : Nat) (l : Bytes) : (s.occ a b c l).sti = s.sti := rfl
@[simp] theorem State.occ_carA (a b c : Nat) (l : Bytes) : (s.occ a b c l).carA = s.carA := rfl
@[simp] theorem State.occ_carB (a b c : Nat) (l : Bytes) : (s.occ a b c l).carB = s.carB := rfl
@[simp] theorem State.occ_ciph (a b c : Nat) (l : Bytes) : (s.occ a b c l).ciph = s.ciph := rfl
@[simp] theorem State.occ_seam (a b c : Nat) (l : Bytes) : (s.occ a b c l).seam = s.seam := rfl
@[simp] theorem State.occ_cli (a b c : Nat) (l : Bytes) : (s.occ a b c l).cli = s.cli := rfl
@[simp] theorem State.occ_tim (a b c : Nat) (l : Bytes) : (s.occ a b c l).tim = s.tim := rfl
@[simp] theorem State.occ_mon (a b c : Nat) (l : Bytes) : (s.occ a b c l).mon = s.mon := rfl
@[simp] theorem State.occ_cal (a b c : Nat) (l : Bytes) : (s.occ a b c l).cal = s.cal := rfl
@[simp] theorem State.occ_mem (a b c : Nat) (l : Bytes) : (s.occ a b c l).mem = s.mem := rfl
@[simp] theorem State.occ_cxl (a b c : Nat) (l : Bytes) : (s.occ a b c l).cxl = s.cxl := rfl
@[simp] theorem State.occ_boot (a b c : Nat) (l : Bytes) : (s.occ a b c l).boot = s.boot := rfl
@[simp] theorem State.occ_retired (a b c : Nat) (l : Bytes) : (s.occ a b c l).retired = s.retired := rfl
@[simp] theorem State.occ_pending (a b c : Nat) (l : Bytes) : (s.occ a b c l).pending = s.pending := rfl
@[simp] theorem State.occ_car (a b c : Nat) (l : Bytes) : (s.occ a b c l).car y = s.car y := rfl
@[simp] theorem State.occ_rd (a b c : Nat) (l : Bytes) : (s.occ a b c l).rd = s.rd := rfl
@[simp] theorem State.occ_cf (a b c : Nat) (l : Bytes) (fr : Fref) (j : Nat) : (s.occ a b c l).cf fr j = s.cf fr j := rfl
@[simp] theorem State.occ_cfx (a b c : Nat) (l : Bytes) (fr : Fref) (j : Nat) : (s.occ a b c l).cfx fr y j = s.cfx fr y j := rfl
@[simp] theorem State.occ_ns (a b c : Nat) (l : Bytes) : (s.occ a b c l).ns = s.ns := rfl
@[simp] theorem State.occ_memo (a b c : Nat) (l : Bytes) (mm : Nat) : (s.occ a b c l).memo mm = s.memo mm := rfl

/-! ### emit -/
@[simp] theorem State.emit_sys (o : Out) : (s.emit o).sys = s.sys := rfl
@[simp] theorem State.emit_regs (o : Out) : (s.emit o).regs = s.regs := rfl
@[simp] theorem State.emit_chk (o : Out) : (s.emit o).chk = s.chk := rfl
@[simp] theorem State.emit_sti (o : Out) : (s.emit o).sti = s.sti := rfl
@[simp] theorem State.emit_carA (o : Out) : (s.emit o).carA = s.carA := rfl
@[simp] theorem State.emit_carB (o : Out) : (s.emit o).carB = s.carB := rfl
@[simp] theorem State.emit_ciph (o : Out) : (s.emit o).ciph = s.ciph := rfl
@[simp] theorem State.emit_seam (o : Out) : (s.emit o).seam = s.seam := rfl
@[simp] theorem State.emit_cli (o : Out) : (s.emit o).cli = s.cli := rfl
@[simp] theorem State.emit_tim (o : Out) : (s.emit o).tim = s.tim := rfl
@[simp] theorem State.emit_mon (o : Out) : (s.emit o).mon = s.mon := rfl
@[simp] theorem State.emit_cal (o : Out) : (s.emit o).cal = s.cal := rfl
@[simp] theorem State.emit_mem (o : Out) : (s.emit o).mem = s.mem := rfl
@[simp] theorem State.emit_cxl (o : Out) : (s.emit o).cxl = s.cxl := rfl
@[simp] theorem State.emit_boot (o : Out) : (s.emit o).boot = s.boot := rfl
@[simp] theorem State.emit_retired (o : Out) : (s.emit o).retired = s.retired := rfl
@[simp] theorem State.emit_pending (o : Out) : (s.emit o).pending = s.pending := rfl
@[simp] theorem State.emit_car (o : Out) : (s.emit o).car y = s.car y := rfl
@[simp] theorem State.emit_rd (o : Out) : (s.emit o).rd = s.rd := rfl
@[simp] theorem State.emit_cf (o : Out) (fr : Fref) (j : Nat) : (s.emit o).cf fr j = s.cf fr j := rfl
@[simp] theorem State.emit_cfx (o : Out) (fr : Fref) (j : Nat) : (s.emit o).cfx fr y j = s.cfx fr y j := rfl
@[simp] theorem State.emit_ns (o : Out) : (s.emit o).ns = s.ns := rfl
@[simp] theorem State.emit_memo (o : Out) (mm : Nat) : (s.emit o).memo mm = s.memo mm := rfl

/-! ### forget -/
@[simp] theorem State.forget_sys (a b c d : Nat) : (s.forget a b c d).sys = s.sys := rfl
@[simp] theorem State.forget_regs (a b c d : Nat) : (s.forget a b c d).regs = s.regs := rfl
@[simp] theorem State.forget_chk (a b c d : Nat) : (s.forget a b c d).chk = s.chk := rfl
@[simp] theorem State.forget_sti (a b c d : Nat) : (s.forget a b c d).sti = s.sti := rfl
@[simp] theorem State.forget_carA (a b c d : Nat) : (s.forget a b c d).carA = s.carA := rfl
@[simp] theorem State.forget_carB (a b c d : Nat) : (s.forget a b c d).carB = s.carB := rfl
@[simp] theorem State.forget_ciph (a b c d : Nat) : (s.forget a b c d).ciph = s.ciph := rfl
@[simp] theorem State.forget_seam (a b c d : Nat) : (s.forget a b c d).seam = s.seam := rfl
@[simp] theorem State.forget_cli (a b c d : Nat) : (s.forget a b c d).cli = s.cli := rfl
@[simp] theorem State.forget_tim (a b c d : Nat) : (s.forget a b c d).tim = s.tim := rfl
@[simp] theorem State.forget_mon (a b c d : Nat) : (s.forget a b c d).mon = s.mon := rfl
@[simp] theorem State.forget_cal (a b c d : Nat) : (s.forget a b c d).cal = s.cal := rfl
@[simp] theorem State.forget_mem (a b c d : Nat) : (s.forget a b c d).mem = s.mem := rfl
@[simp] theorem State.forget_cxl (a b c d : Nat) : (s.forget a b c d).cxl = s.cxl := rfl
@[simp] theorem State.forget_boot (a b c d : Nat) : (s.forget a b c d).boot = s.boot := rfl
@[simp] theorem State.forget_retired (a b c d : Nat) : (s.forget a b c d).retired = s.retired := rfl
@[simp] theorem State.forget_pending (a b c d : Nat) : (s.forget a b c d).pending = s.pending := rfl
@[simp] theorem State.forget_car (a b c d : Nat) : (s.forget a b c d).car y = s.car y := rfl
@[simp] theorem State.forget_rd (a b c d : Nat) : (s.forget a b c d).rd = s.rd := rfl
@[simp] theorem State.forget_cf (a b c d : Nat) (fr : Fref) (j : Nat) : (s.forget a b c d).cf fr j = s.cf fr j := rfl
@[simp] theorem State.forget_cfx (a b c d : Nat) (fr : Fref) (j : Nat) : (s.forget a b c d).cfx fr y j = s.cfx fr y j := rfl
@[simp] theorem State.forget_ns (a b c d : Nat) : (s.forget a b c d).ns = s.ns := rfl
@[simp] theorem State.forget_memo (a b c d : Nat) (mm : Nat) : (s.forget a b c d).memo mm = s.memo mm := rfl

/-! ### raise -/
@[simp] theorem State.raise_sys (a b c d : Nat) (l : Bytes) : (s.raise a b c l d).sys = s.sys := by unfold State.raise; split <;> rfl
@[simp] theorem State.raise_regs (a b c d : Nat) (l : Bytes) : (s.raise a b c l d).regs = s.regs := by unfold State.raise; split <;> rfl
@[simp] theorem State.raise_chk (a b c d : Nat) (l : Bytes) : (s.raise a b c l d).chk = s.chk := by unfold State.raise; split <;> rfl
@[simp] theorem State.raise_sti (a b c d : Nat) (l : Bytes) : (s.raise a b c l d).sti = s.sti := by unfold State.raise; split <;> rfl
@[simp] theorem State.raise_carA (a b c d : Nat) (l : Bytes) : (s.raise a b c l d).carA = s.carA := by unfold State.raise; split <;> rfl
@[simp] theorem State.raise_carB (a b c d : Nat) (l : Bytes) : (s.raise a b c l d).carB = s.carB := by unfold State.raise; split <;> rfl
@[simp] theorem State.raise_ciph (a b c d : Nat) (l : Bytes) : (s.raise a b c l d).ciph = s.ciph := by unfold State.raise; split <;> rfl
@[simp] theorem State.raise_seam (a b c d : Nat) (l : Bytes) : (s.raise a b c l d).seam = s.seam := by unfold State.raise; split <;> rfl
@[simp] theorem State.raise_cli (a b c d : Nat) (l : Bytes) : (s.raise a b c l d).cli = s.cli := by unfold State.raise; split <;> rfl
@[simp] theorem State.raise_tim (a b c d : Nat) (l : Bytes) : (s.raise a b c l d).tim = s.tim := by unfold State.raise; split <;> rfl
@[simp] theorem State.raise_mon (a b c d : Nat) (l : Bytes) : (s.raise a b c l d).mon = s.mon := by unfold State.raise; split <;> rfl
@[simp] theorem State.raise_cal (a b c d : Nat) (l : Bytes) : (s.raise a b c l d).cal = s.cal := by unfold State.raise; split <;> rfl
@[simp] theorem State.raise_mem (a b c d : Nat) (l : Bytes) : (s.raise a b c l d).mem = s.mem := by unfold State.raise; split <;> rfl
@[simp] theorem State.raise_cxl (a b c d : Nat) (l : Bytes) : (s.raise a b c l d).cxl = s.cxl := by unfold State.raise; split <;> rfl
@[simp] theorem State.raise_boot (a b c d : Nat) (l : Bytes) : (s.raise a b c l d).boot = s.boot := by unfold State.raise; split <;> rfl
@[simp] theorem State.raise_retired (a b c d : Nat) (l : Bytes) : (s.raise a b c l d).retired = s.retired := by unfold State.raise; split <;> rfl
@[simp] theorem State.raise_pending (a b c d : Nat) (l : Bytes) : (s.raise a b c l d).pending = s.pending := by unfold State.raise; split <;> rfl
@[simp] theorem State.raise_car (a b c d : Nat) (l : Bytes) : (s.raise a b c l d).car y = s.car y := by cases y <;> simp [State.car]
@[simp] theorem State.raise_rd (a b c d : Nat) (l : Bytes) : (s.raise a b c l d).rd = s.rd := by funext k; simp [State.rd]
@[simp] theorem State.raise_cf (a b c d : Nat) (l : Bytes) (fr : Fref) (j : Nat) : (s.raise a b c l d).cf fr j = s.cf fr j := by unfold State.cf; simp
@[simp] theorem State.raise_cfx (a b c d : Nat) (l : Bytes) (fr : Fref) (j : Nat) : (s.raise a b c l d).cfx fr y j = s.cfx fr y j := by unfold State.cfx; simp
@[simp] theorem State.raise_ns (a b c d : Nat) (l : Bytes) : (s.raise a b c l d).ns = s.ns := by unfold State.ns; simp
@[simp] theorem State.raise_memo (a b c d : Nat) (l : Bytes) (mm : Nat) : (s.raise a b c l d).memo mm = s.memo mm := by unfold State.memo; simp

/-! ### clear -/
@[simp] theorem State.clear_sys (a b c d : Nat) (l : Bytes) : (s.clear a b c l d).sys = s.sys := by unfold State.clear; split <;> rfl
@[simp] theorem State.clear_regs (a b c d : Nat) (l : Bytes) : (s.clear a b c l d).regs = s.regs := by unfold State.clear; split <;> rfl
@[simp] theorem State.clear_chk (a b c d : Nat) (l : Bytes) : (s.clear a b c l d).chk = s.chk := by unfold State.clear; split <;> rfl
@[simp] theorem State.clear_sti (a b c d : Nat) (l : Bytes) : (s.clear a b c l d).sti = s.sti := by unfold State.clear; split <;> rfl
@[simp] theorem State.clear_carA (a b c d : Nat) (l : Bytes) : (s.clear a b c l d).carA = s.carA := by unfold State.clear; split <;> rfl
@[simp] theorem State.clear_carB (a b c d : Nat) (l : Bytes) : (s.clear a b c l d).carB = s.carB := by unfold State.clear; split <;> rfl
@[simp] theorem State.clear_ciph (a b c d : Nat) (l : Bytes) : (s.clear a b c l d).ciph = s.ciph := by unfold State.clear; split <;> rfl
@[simp] theorem State.clear_seam (a b c d : Nat) (l : Bytes) : (s.clear a b c l d).seam = s.seam := by unfold State.clear; split <;> rfl
@[simp] theorem State.clear_cli (a b c d : Nat) (l : Bytes) : (s.clear a b c l d).cli = s.cli := by unfold State.clear; split <;> rfl
@[simp] theorem State.clear_tim (a b c d : Nat) (l : Bytes) : (s.clear a b c l d).tim = s.tim := by unfold State.clear; split <;> rfl
@[simp] theorem State.clear_mon (a b c d : Nat) (l : Bytes) : (s.clear a b c l d).mon = s.mon := by unfold State.clear; split <;> rfl
@[simp] theorem State.clear_cal (a b c d : Nat) (l : Bytes) : (s.clear a b c l d).cal = s.cal := by unfold State.clear; split <;> rfl
@[simp] theorem State.clear_mem (a b c d : Nat) (l : Bytes) : (s.clear a b c l d).mem = s.mem := by unfold State.clear; split <;> rfl
@[simp] theorem State.clear_cxl (a b c d : Nat) (l : Bytes) : (s.clear a b c l d).cxl = s.cxl := by unfold State.clear; split <;> rfl
@[simp] theorem State.clear_boot (a b c d : Nat) (l : Bytes) : (s.clear a b c l d).boot = s.boot := by unfold State.clear; split <;> rfl
@[simp] theorem State.clear_retired (a b c d : Nat) (l : Bytes) : (s.clear a b c l d).retired = s.retired := by unfold State.clear; split <;> rfl
@[simp] theorem State.clear_pending (a b c d : Nat) (l : Bytes) : (s.clear a b c l d).pending = s.pending := by unfold State.clear; split <;> rfl
@[simp] theorem State.clear_car (a b c d : Nat) (l : Bytes) : (s.clear a b c l d).car y = s.car y := by cases y <;> simp [State.car]
@[simp] theorem State.clear_rd (a b c d : Nat) (l : Bytes) : (s.clear a b c l d).rd = s.rd := by funext k; simp [State.rd]
@[simp] theorem State.clear_cf (a b c d : Nat) (l : Bytes) (fr : Fref) (j : Nat) : (s.clear a b c l d).cf fr j = s.cf fr j := by unfold State.cf; simp
@[simp] theorem State.clear_cfx (a b c d : Nat) (l : Bytes) (fr : Fref) (j : Nat) : (s.clear a b c l d).cfx fr y j = s.cfx fr y j := by unfold State.cfx; simp
@[simp] theorem State.clear_ns (a b c d : Nat) (l : Bytes) : (s.clear a b c l d).ns = s.ns := by unfold State.ns; simp
@[simp] theorem State.clear_memo (a b c d : Nat) (l : Bytes) (mm : Nat) : (s.clear a b c l d).memo mm = s.memo mm := by unfold State.memo; simp

/-! ### defect -/
@[simp] theorem State.defect_sys (b0 : Bool) (a b c d : Nat) (l : Bytes) : (s.defect b0 a b c l d).sys = s.sys := by unfold State.defect; split <;> simp
@[simp] theorem State.defect_regs (b0 : Bool) (a b c d : Nat) (l : Bytes) : (s.defect b0 a b c l d).regs = s.regs := by unfold State.defect; split <;> simp
@[simp] theorem State.defect_chk (b0 : Bool) (a b c d : Nat) (l : Bytes) : (s.defect b0 a b c l d).chk = s.chk := by unfold State.defect; split <;> simp
@[simp] theorem State.defect_sti (b0 : Bool) (a b c d : Nat) (l : Bytes) : (s.defect b0 a b c l d).sti = s.sti := by unfold State.defect; split <;> simp
@[simp] theorem State.defect_carA (b0 : Bool) (a b c d : Nat) (l : Bytes) : (s.defect b0 a b c l d).carA = s.carA := by unfold State.defect; split <;> simp
@[simp] theorem State.defect_carB (b0 : Bool) (a b c d : Nat) (l : Bytes) : (s.defect b0 a b c l d).carB = s.carB := by unfold State.defect; split <;> simp
@[simp] theorem State.defect_ciph (b0 : Bool) (a b c d : Nat) (l : Bytes) : (s.defect b0 a b c l d).ciph = s.ciph := by unfold State.defect; split <;> simp
@[simp] theorem State.defect_seam (b0 : Bool) (a b c d : Nat) (l : Bytes) : (s.defect b0 a b c l d).seam = s.seam := by unfold State.defect; split <;> simp
@[simp] theorem State.defect_cli (b0 : Bool) (a b c d : Nat) (l : Bytes) : (s.defect b0 a b c l d).cli = s.cli := by unfold State.defect; split <;> simp
@[simp] theorem State.defect_tim (b0 : Bool) (a b c d : Nat) (l : Bytes) : (s.defect b0 a b c l d).tim = s.tim := by unfold State.defect; split <;> simp
@[simp] theorem State.defect_mon (b0 : Bool) (a b c d : Nat) (l : Bytes) : (s.defect b0 a b c l d).mon = s.mon := by unfold State.defect; split <;> simp
@[simp] theorem State.defect_cal (b0 : Bool) (a b c d : Nat) (l : Bytes) : (s.defect b0 a b c l d).cal = s.cal := by unfold State.defect; split <;> simp
@[simp] theorem State.defect_mem (b0 : Bool) (a b c d : Nat) (l : Bytes) : (s.defect b0 a b c l d).mem = s.mem := by unfold State.defect; split <;> simp
@[simp] theorem State.defect_cxl (b0 : Bool) (a b c d : Nat) (l : Bytes) : (s.defect b0 a b c l d).cxl = s.cxl := by unfold State.defect; split <;> simp
@[simp] theorem State.defect_boot (b0 : Bool) (a b c d : Nat) (l : Bytes) : (s.defect b0 a b c l d).boot = s.boot := by unfold State.defect; split <;> simp
@[simp] theorem State.defect_retired (b0 : Bool) (a b c d : Nat) (l : Bytes) : (s.defect b0 a b c l d).retired = s.retired := by unfold State.defect; split <;> simp
@[simp] theorem State.defect_pending (b0 : Bool) (a b c d : Nat) (l : Bytes) : (s.defect b0 a b c l d).pending = s.pending := by unfold State.defect; split <;> simp
@[simp] theorem State.defect_car (b0 : Bool) (a b c d : Nat) (l : Bytes) : (s.defect b0 a b c l d).car y = s.car y := by cases y <;> simp [State.car]
@[simp] theorem State.defect_rd (b0 : Bool) (a b c d : Nat) (l : Bytes) : (s.defect b0 a b c l d).rd = s.rd := by funext k; simp [State.rd]
@[simp] theorem State.defect_cf (b0 : Bool) (a b c d : Nat) (l : Bytes) (fr : Fref) (j : Nat) : (s.defect b0 a b c l d).cf fr j = s.cf fr j := by unfold State.cf; simp
@[simp] theorem State.defect_cfx (b0 : Bool) (a b c d : Nat) (l : Bytes) (fr : Fref) (j : Nat) : (s.defect b0 a b c l d).cfx fr y j = s.cfx fr y j := by unfold State.cfx; simp
@[simp] theorem State.defect_ns (b0 : Bool) (a b c d : Nat) (l : Bytes) : (s.defect b0 a b c l d).ns = s.ns := by unfold State.ns; simp
@[simp] theorem State.defect_memo (b0 : Bool) (a b c d : Nat) (l : Bytes) (mm : Nat) : (s.defect b0 a b c l d).memo mm = s.memo mm := by unfold State.memo; simp

/-! ### modCar -/
@[simp] theorem State.modCar_sys (f : Car → Car) : (s.modCar x f).sys = s.sys := by cases x <;> rfl
@[simp] theorem State.modCar_io (f : Car → Car) : (s.modCar x f).io = s.io := by cases x <;> rfl
@[simp] theorem State.modCar_regs (f : Car → Car) : (s.modCar x f).regs = s.regs := by cases x <;> rfl
@[simp] theorem State.modCar_chk (f : Car → Car) : (s.modCar x f).chk = s.chk := by cases x <;> rfl
@[simp] theorem State.modCar_sti (f : Car → Car) : (s.modCar x f).sti = s.sti := by cases x <;> rfl
@[simp] theorem State.modCar_ciph (f : Car → Car) : (s.modCar x f).ciph = s.ciph := by cases x <;> rfl
@[simp] theorem State.modCar_seam (f : Car → Car) : (s.modCar x f).seam = s.seam := by cases x <;> rfl
@[simp] theorem State.modCar_cli (f : Car → Car) : (s.modCar x f).cli = s.cli := by cases x <;> rfl
@[simp] theorem State.modCar_tim (f : Car → Car) : (s.modCar x f).tim = s.tim := by cases x <;> rfl
@[simp] theorem State.modCar_mon (f : Car → Car) : (s.modCar x f).mon = s.mon := by cases x <;> rfl
@[simp] theorem State.modCar_cal (f : Car → Car) : (s.modCar x f).cal = s.cal := by cases x <;> rfl
@[simp] theorem State.modCar_mem (f : Car → Car) : (s.modCar x f).mem = s.mem := by cases x <;> rfl
@[simp] theorem State.modCar_cxl (f : Car → Car) : (s.modCar x f).cxl = s.cxl := by cases x <;> rfl
@[simp] theorem State.modCar_boot (f : Car → Car) : (s.modCar x f).boot = s.boot := by cases x <;> rfl
@[simp] theorem State.modCar_retired (f : Car → Car) : (s.modCar x f).retired = s.retired := by cases x <;> rfl
@[simp] theorem State.modCar_pending (f : Car → Car) : (s.modCar x f).pending = s.pending := by cases x <;> rfl
@[simp] theorem State.modCar_rd (f : Car → Car) : (s.modCar x f).rd = s.rd := by cases x <;> rfl
@[simp] theorem State.modCar_cf (f : Car → Car) (fr : Fref) (j : Nat) : (s.modCar x f).cf fr j = s.cf fr j := by cases x <;> rfl
@[simp] theorem State.modCar_cfx (f : Car → Car) (fr : Fref) (j : Nat) : (s.modCar x f).cfx fr y j = s.cfx fr y j := by cases x <;> rfl
@[simp] theorem State.modCar_ns (f : Car → Car) : (s.modCar x f).ns = s.ns := by cases x <;> rfl
@[simp] theorem State.modCar_memo (f : Car → Car) (mm : Nat) : (s.modCar x f).memo mm = s.memo mm := by cases x <;> rfl
@[simp] theorem State.modCar_stands (f : Car → Car) (a b c d : Nat) : (s.modCar x f).stands a b c d = s.stands a b c d := by cases x <;> rfl
@[simp] theorem State.modCar_car (f : Car → Car) : (s.modCar x f).car x = f (s.car x) := by cases x <;> rfl
theorem State.modCar_car_ne (f : Car → Car) (h : y ≠ x) : (s.modCar x f).car y = s.car y := by
  cases x <;> cases y <;> first | rfl | exact absurd rfl h

/-! ### modFe -/
@[simp] theorem State.modFe_sys (f : Fe → Fe) : (s.modFe x f).sys = s.sys := by cases x <;> rfl
@[simp] theorem State.modFe_io (f : Fe → Fe) : (s.modFe x f).io = s.io := by cases x <;> rfl
@[simp] theorem State.modFe_regs (f : Fe → Fe) : (s.modFe x f).regs = s.regs := by cases x <;> rfl
@[simp] theorem State.modFe_chk (f : Fe → Fe) : (s.modFe x f).chk = s.chk := by cases x <;> rfl
@[simp] theorem State.modFe_sti (f : Fe → Fe) : (s.modFe x f).sti = s.sti := by cases x <;> rfl
@[simp] theorem State.modFe_ciph (f : Fe → Fe) : (s.modFe x f).ciph = s.ciph := by cases x <;> rfl
@[simp] theorem State.modFe_seam (f : Fe → Fe) : (s.modFe x f).seam = s.seam := by cases x <;> rfl
@[simp] theorem State.modFe_cli (f : Fe → Fe) : (s.modFe x f).cli = s.cli := by cases x <;> rfl
@[simp] theorem State.modFe_tim (f : Fe → Fe) : (s.modFe x f).tim = s.tim := by cases x <;> rfl
@[simp] theorem State.modFe_mon (f : Fe → Fe) : (s.modFe x f).mon = s.mon := by cases x <;> rfl
@[simp] theorem State.modFe_cal (f : Fe → Fe) : (s.modFe x f).cal = s.cal := by cases x <;> rfl
@[simp] theorem State.modFe_mem (f : Fe → Fe) : (s.modFe x f).mem = s.mem := by cases x <;> rfl
@[simp] theorem State.modFe_cxl (f : Fe → Fe) : (s.modFe x f).cxl = s.cxl := by cases x <;> rfl
@[simp] theorem State.modFe_boot (f : Fe → Fe) : (s.modFe x f).boot = s.boot := by cases x <;> rfl
@[simp] theorem State.modFe_retired (f : Fe → Fe) : (s.modFe x f).retired = s.retired := by cases x <;> rfl
@[simp] theorem State.modFe_pending (f : Fe → Fe) : (s.modFe x f).pending = s.pending := by cases x <;> rfl
@[simp] theorem State.modFe_rd (f : Fe → Fe) : (s.modFe x f).rd = s.rd := by cases x <;> rfl
@[simp] theorem State.modFe_cf (f : Fe → Fe) (fr : Fref) (j : Nat) : (s.modFe x f).cf fr j = s.cf fr j := by cases x <;> rfl
@[simp] theorem State.modFe_cfx (f : Fe → Fe) (fr : Fref) (j : Nat) : (s.modFe x f).cfx fr y j = s.cfx fr y j := by cases x <;> rfl
@[simp] theorem State.modFe_ns (f : Fe → Fe) : (s.modFe x f).ns = s.ns := by cases x <;> rfl
@[simp] theorem State.modFe_memo (f : Fe → Fe) (mm : Nat) : (s.modFe x f).memo mm = s.memo mm := by cases x <;> rfl
@[simp] theorem State.modFe_stands (f : Fe → Fe) (a b c d : Nat) : (s.modFe x f).stands a b c d = s.stands a b c d := by cases x <;> rfl
@[simp] theorem State.modFe_car (f : Fe → Fe) : (s.modFe x f).car x = { s.car x with fe := f (s.car x).fe } := by
  cases x <;> rfl
theorem State.modFe_car_ne (f : Fe → Fe) (h : y ≠ x) : (s.modFe x f).car y = s.car y := by
  cases x <;> cases y <;> first | rfl | exact absurd rfl h
@[simp] theorem State.modFe_car_rxc (f : Fe → Fe) : ((s.modFe x f).car y).rxc = (s.car y).rxc := by
  cases x <;> cases y <;> rfl
@[simp] theorem State.modFe_car_fec (f : Fe → Fe) : ((s.modFe x f).car y).fec = (s.car y).fec := by
  cases x <;> cases y <;> rfl
@[simp] theorem State.modFe_car_tx (f : Fe → Fe) : ((s.modFe x f).car y).tx = (s.car y).tx := by
  cases x <;> cases y <;> rfl
@[simp] theorem State.modFe_car_plan (f : Fe → Fe) : ((s.modFe x f).car y).plan = (s.car y).plan := by
  cases x <;> cases y <;> rfl
@[simp] theorem State.modFe_car_tr (f : Fe → Fe) : ((s.modFe x f).car y).tr = (s.car y).tr := by
  cases x <;> cases y <;> rfl
@[simp] theorem State.modFe_car_tk (f : Fe → Fe) : ((s.modFe x f).car y).tk = (s.car y).tk := by
  cases x <;> cases y <;> rfl
@[simp] theorem State.modFe_car_cm (f : Fe → Fe) : ((s.modFe x f).car y).cm = (s.car y).cm := by
  cases x <;> cases y <;> rfl

/-! ### modRxc -/
@[simp] theorem State.modRxc_sys (f : Rxc → Rxc) : (s.modRxc x f).sys = s.sys := by cases x <;> rfl
@[simp] theorem State.modRxc_io (f : Rxc → Rxc) : (s.modRxc x f).io = s.io := by cases x <;> rfl
@[simp] theorem State.modRxc_regs (f : Rxc → Rxc) : (s.modRxc x f).regs = s.regs := by cases x <;> rfl
@[simp] theorem State.modRxc_chk (f : Rxc → Rxc) : (s.modRxc x f).chk = s.chk := by cases x <;> rfl
@[simp] theorem State.modRxc_sti (f : Rxc → Rxc) : (s.modRxc x f).sti = s.sti := by cases x <;> rfl
@[simp] theorem State.modRxc_ciph (f : Rxc → Rxc) : (s.modRxc x f).ciph = s.ciph := by cases x <;> rfl
@[simp] theorem State.modRxc_seam (f : Rxc → Rxc) : (s.modRxc x f).seam = s.seam := by cases x <;> rfl
@[simp] theorem State.modRxc_cli (f : Rxc → Rxc) : (s.modRxc x f).cli = s.cli := by cases x <;> rfl
@[simp] theorem State.modRxc_tim (f : Rxc → Rxc) : (s.modRxc x f).tim = s.tim := by cases x <;> rfl
@[simp] theorem State.modRxc_mon (f : Rxc → Rxc) : (s.modRxc x f).mon = s.mon := by cases x <;> rfl
@[simp] theorem State.modRxc_cal (f : Rxc → Rxc) : (s.modRxc x f).cal = s.cal := by cases x <;> rfl
@[simp] theorem State.modRxc_mem (f : Rxc → Rxc) : (s.modRxc x f).mem = s.mem := by cases x <;> rfl
@[simp] theorem State.modRxc_cxl (f : Rxc → Rxc) : (s.modRxc x f).cxl = s.cxl := by cases x <;> rfl
@[simp] theorem State.modRxc_boot (f : Rxc → Rxc) : (s.modRxc x f).boot = s.boot := by cases x <;> rfl
@[simp] theorem State.modRxc_retired (f : Rxc → Rxc) : (s.modRxc x f).retired = s.retired := by cases x <;> rfl
@[simp] theorem State.modRxc_pending (f : Rxc → Rxc) : (s.modRxc x f).pending = s.pending := by cases x <;> rfl
@[simp] theorem State.modRxc_rd (f : Rxc → Rxc) : (s.modRxc x f).rd = s.rd := by cases x <;> rfl
@[simp] theorem State.modRxc_cf (f : Rxc → Rxc) (fr : Fref) (j : Nat) : (s.modRxc x f).cf fr j = s.cf fr j := by cases x <;> rfl
@[simp] theorem State.modRxc_cfx (f : Rxc → Rxc) (fr : Fref) (j : Nat) : (s.modRxc x f).cfx fr y j = s.cfx fr y j := by cases x <;> rfl
@[simp] theorem State.modRxc_ns (f : Rxc → Rxc) : (s.modRxc x f).ns = s.ns := by cases x <;> rfl
@[simp] theorem State.modRxc_memo (f : Rxc → Rxc) (mm : Nat) : (s.modRxc x f).memo mm = s.memo mm := by cases x <;> rfl
@[simp] theorem State.modRxc_stands (f : Rxc → Rxc) (a b c d : Nat) : (s.modRxc x f).stands a b c d = s.stands a b c d := by cases x <;> rfl
@[simp] theorem State.modRxc_car (f : Rxc → Rxc) : (s.modRxc x f).car x = { s.car x with rxc := f (s.car x).rxc } := by
  cases x <;> rfl
theorem State.modRxc_car_ne (f : Rxc → Rxc) (h : y ≠ x) : (s.modRxc x f).car y = s.car y := by
  cases x <;> cases y <;> first | rfl | exact absurd rfl h
@[simp] theorem State.modRxc_car_fe (f : Rxc → Rxc) : ((s.modRxc x f).car y).fe = (s.car y).fe := by
  cases x <;> cases y <;> rfl
@[simp] theorem State.modRxc_car_fec (f : Rxc → Rxc) : ((s.modRxc x f).car y).fec = (s.car y).fec := by
  cases x <;> cases y <;> rfl
@[simp] theorem State.modRxc_car_tx (f : Rxc → Rxc) : ((s.modRxc x f).car y).tx = (s.car y).tx := by
  cases x <;> cases y <;> rfl
@[simp] theorem State.modRxc_car_plan (f : Rxc → Rxc) : ((s.modRxc x f).car y).plan = (s.car y).plan := by
  cases x <;> cases y <;> rfl
@[simp] theorem State.modRxc_car_tr (f : Rxc → Rxc) : ((s.modRxc x f).car y).tr = (s.car y).tr := by
  cases x <;> cases y <;> rfl
@[simp] theorem State.modRxc_car_tk (f : Rxc → Rxc) : ((s.modRxc x f).car y).tk = (s.car y).tk := by
  cases x <;> cases y <;> rfl
@[simp] theorem State.modRxc_car_cm (f : Rxc → Rxc) : ((s.modRxc x f).car y).cm = (s.car y).cm := by
  cases x <;> cases y <;> rfl

/-! ### modFec -/
@[simp] theorem State.modFec_sys (f : Fec → Fec) : (s.modFec x f).sys = s.sys := by cases x <;> rfl
@[simp] theorem State.modFec_io (f : Fec → Fec) : (s.modFec x f).io = s.io := by cases x <;> rfl
@[simp] theorem State.modFec_regs (f : Fec → Fec) : (s.modFec x f).regs = s.regs := by cases x <;> rfl
@[simp] theorem State.modFec_chk (f : Fec → Fec) : (s.modFec x f).chk = s.chk := by cases x <;> rfl
@[simp] theorem State.modFec_sti (f : Fec → Fec) : (s.modFec x f).sti = s.sti := by cases x <;> rfl
@[simp] theorem State.modFec_ciph (f : Fec → Fec) : (s.modFec x f).ciph = s.ciph := by cases x <;> rfl
@[simp] theorem State.modFec_seam (f : Fec → Fec) : (s.modFec x f).seam = s.seam := by cases x <;> rfl
@[simp] theorem State.modFec_cli (f : Fec → Fec) : (s.modFec x f).cli = s.cli := by cases x <;> rfl
@[simp] theorem State.modFec_tim (f : Fec → Fec) : (s.modFec x f).tim = s.tim := by cases x <;> rfl
@[simp] theorem State.modFec_mon (f : Fec → Fec) : (s.modFec x f).mon = s.mon := by cases x <;> rfl
@[simp] theorem State.modFec_cal (f : Fec → Fec) : (s.modFec x f).cal = s.cal := by cases x <;> rfl
@[simp] theorem State.modFec_mem (f : Fec → Fec) : (s.modFec x f).mem = s.mem := by cases x <;> rfl
@[simp] theorem State.modFec_cxl (f : Fec → Fec) : (s.modFec x f).cxl = s.cxl := by cases x <;> rfl
@[simp] theorem State.modFec_boot (f : Fec → Fec) : (s.modFec x f).boot = s.boot := by cases x <;> rfl
@[simp] theorem State.modFec_retired (f : Fec → Fec) : (s.modFec x f).retired = s.retired := by cases x <;> rfl
@[simp] theorem State.modFec_pending (f : Fec → Fec) : (s.modFec x f).pending = s.pending := by cases x <;> rfl
@[simp] theorem State.modFec_rd (f : Fec → Fec) : (s.modFec x f).rd = s.rd := by cases x <;> rfl
@[simp] theorem State.modFec_cf (f : Fec → Fec) (fr : Fref) (j : Nat) : (s.modFec x f).cf fr j = s.cf fr j := by cases x <;> rfl
@[simp] theorem State.modFec_cfx (f : Fec → Fec) (fr : Fref) (j : Nat) : (s.modFec x f).cfx fr y j = s.cfx fr y j := by cases x <;> rfl
@[simp] theorem State.modFec_ns (f : Fec → Fec) : (s.modFec x f).ns = s.ns := by cases x <;> rfl
@[simp] theorem State.modFec_memo (f : Fec → Fec) (mm : Nat) : (s.modFec x f).memo mm = s.memo mm := by cases x <;> rfl
@[simp] theorem State.modFec_stands (f : Fec → Fec) (a b c d : Nat) : (s.modFec x f).stands a b c d = s.stands a b c d := by cases x <;> rfl
@[simp] theorem State.modFec_car (f : Fec → Fec) : (s.modFec x f).car x = { s.car x with fec := f (s.car x).fec } := by
  cases x <;> rfl
theorem State.modFec_car_ne (f : Fec → Fec) (h : y ≠ x) : (s.modFec x f).car y = s.car y := by
  cases x <;> cases y <;> first | rfl | exact absurd rfl h
@[simp] theorem State.modFec_car_fe (f : Fec → Fec) : ((s.modFec x f).car y).fe = (s.car y).fe := by
  cases x <;> cases y <;> rfl
@[simp] theorem State.modFec_car_rxc (f : Fec → Fec) : ((s.modFec x f).car y).rxc = (s.car y).rxc := by
  cases x <;> cases y <;> rfl
@[simp] theorem State.modFec_car_tx (f : Fec → Fec) : ((s.modFec x f).car y).tx = (s.car y).tx := by
  cases x <;> cases y <;> rfl
@[simp] theorem State.modFec_car_plan (f : Fec → Fec) : ((s.modFec x f).car y).plan = (s.car y).plan := by
  cases x <;> cases y <;> rfl
@[simp] theorem State.modFec_car_tr (f : Fec → Fec) : ((s.modFec x f).car y).tr = (s.car y).tr := by
  cases x <;> cases y <;> rfl
@[simp] theorem State.modFec_car_tk (f : Fec → Fec) : ((s.modFec x f).car y).tk = (s.car y).tk := by
  cases x <;> cases y <;> rfl
@[simp] theorem State.modFec_car_cm (f : Fec → Fec) : ((s.modFec x f).car y).cm = (s.car y).cm := by
  cases x <;> cases y <;> rfl

/-! ### modTx -/
@[simp] theorem State.modTx_sys (f : TxCh → TxCh) : (s.modTx x f).sys = s.sys := by cases x <;> rfl
@[simp] theorem State.modTx_io (f : TxCh → TxCh) : (s.modTx x f).io = s.io := by cases x <;> rfl
@[simp] theorem State.modTx_regs (f : TxCh → TxCh) : (s.modTx x f).regs = s.regs := by cases x <;> rfl
@[simp] theorem State.modTx_chk (f : TxCh → TxCh) : (s.modTx x f).chk = s.chk := by cases x <;> rfl
@[simp] theorem State.modTx_sti (f : TxCh → TxCh) : (s.modTx x f).sti = s.sti := by cases x <;> rfl
@[simp] theorem State.modTx_ciph (f : TxCh → TxCh) : (s.modTx x f).ciph = s.ciph := by cases x <;> rfl
@[simp] theorem State.modTx_seam (f : TxCh → TxCh) : (s.modTx x f).seam = s.seam := by cases x <;> rfl
@[simp] theorem State.modTx_cli (f : TxCh → TxCh) : (s.modTx x f).cli = s.cli := by cases x <;> rfl
@[simp] theorem State.modTx_tim (f : TxCh → TxCh) : (s.modTx x f).tim = s.tim := by cases x <;> rfl
@[simp] theorem State.modTx_mon (f : TxCh → TxCh) : (s.modTx x f).mon = s.mon := by cases x <;> rfl
@[simp] theorem State.modTx_cal (f : TxCh → TxCh) : (s.modTx x f).cal = s.cal := by cases x <;> rfl
@[simp] theorem State.modTx_mem (f : TxCh → TxCh) : (s.modTx x f).mem = s.mem := by cases x <;> rfl
@[simp] theorem State.modTx_cxl (f : TxCh → TxCh) : (s.modTx x f).cxl = s.cxl := by cases x <;> rfl
@[simp] theorem State.modTx_boot (f : TxCh → TxCh) : (s.modTx x f).boot = s.boot := by cases x <;> rfl
@[simp] theorem State.modTx_retired (f : TxCh → TxCh) : (s.modTx x f).retired = s.retired := by cases x <;> rfl
@[simp] theorem State.modTx_pending (f : TxCh → TxCh) : (s.modTx x f).pending = s.pending := by cases x <;> rfl
@[simp] theorem State.modTx_rd (f : TxCh → TxCh) : (s.modTx x f).rd = s.rd := by cases x <;> rfl
@[simp] theorem State.modTx_cf (f : TxCh → TxCh) (fr : Fref) (j : Nat) : (s.modTx x f).cf fr j = s.cf fr j := by cases x <;> rfl
@[simp] theorem State.modTx_cfx (f : TxCh → TxCh) (fr : Fref) (j : Nat) : (s.modTx x f).cfx fr y j = s.cfx fr y j := by cases x <;> rfl
@[simp] theorem State.modTx_ns (f : TxCh → TxCh) : (s.modTx x f).ns = s.ns := by cases x <;> rfl
@[simp] theorem State.modTx_memo (f : TxCh → TxCh) (mm : Nat) : (s.modTx x f).memo mm = s.memo mm := by cases x <;> rfl
@[simp] theorem State.modTx_stands (f : TxCh → TxCh) (a b c d : Nat) : (s.modTx x f).stands a b c d = s.stands a b c d := by cases x <;> rfl
@[simp] theorem State.modTx_car (f : TxCh → TxCh) : (s.modTx x f).car x = { s.car x with tx := f (s.car x).tx } := by
  cases x <;> rfl
theorem State.modTx_car_ne (f : TxCh → TxCh) (h : y ≠ x) : (s.modTx x f).car y = s.car y := by
  cases x <;> cases y <;> first | rfl | exact absurd rfl h
@[simp] theorem State.modTx_car_fe (f : TxCh → TxCh) : ((s.modTx x f).car y).fe = (s.car y).fe := by
  cases x <;> cases y <;> rfl
@[simp] theorem State.modTx_car_rxc (f : TxCh → TxCh) : ((s.modTx x f).car y).rxc = (s.car y).rxc := by
  cases x <;> cases y <;> rfl
@[simp] theorem State.modTx_car_fec (f : TxCh → TxCh) : ((s.modTx x f).car y).fec = (s.car y).fec := by
  cases x <;> cases y <;> rfl
@[simp] theorem State.modTx_car_plan (f : TxCh → TxCh) : ((s.modTx x f).car y).plan = (s.car y).plan := by
  cases x <;> cases y <;> rfl
@[simp] theorem State.modTx_car_tr (f : TxCh → TxCh) : ((s.modTx x f).car y).tr = (s.car y).tr := by
  cases x <;> cases y <;> rfl
@[simp] theorem State.modTx_car_tk (f : TxCh → TxCh) : ((s.modTx x f).car y).tk = (s.car y).tk := by
  cases x <;> cases y <;> rfl
@[simp] theorem State.modTx_car_cm (f : TxCh → TxCh) : ((s.modTx x f).car y).cm = (s.car y).cm := by
  cases x <;> cases y <;> rfl

/-! ### modPlan -/
@[simp] theorem State.modPlan_sys (f : Plan → Plan) : (s.modPlan x f).sys = s.sys := by cases x <;> rfl
@[simp] theorem State.modPlan_io (f : Plan → Plan) : (s.modPlan x f).io = s.io := by cases x <;> rfl
@[simp] theorem State.modPlan_regs (f : Plan → Plan) : (s.modPlan x f).regs = s.regs := by cases x <;> rfl
@[simp] theorem State.modPlan_chk (f : Plan → Plan) : (s.modPlan x f).chk = s.chk := by cases x <;> rfl
@[simp] theorem State.modPlan_sti (f : Plan → Plan) : (s.modPlan x f).sti = s.sti := by cases x <;> rfl
@[simp] theorem State.modPlan_ciph (f : Plan → Plan) : (s.modPlan x f).ciph = s.ciph := by cases x <;> rfl
@[simp] theorem State.modPlan_seam (f : Plan → Plan) : (s.modPlan x f).seam = s.seam := by cases x <;> rfl
@[simp] theorem State.modPlan_cli (f : Plan → Plan) : (s.modPlan x f).cli = s.cli := by cases x <;> rfl
@[simp] theorem State.modPlan_tim (f : Plan → Plan) : (s.modPlan x f).tim = s.tim := by cases x <;> rfl
@[simp] theorem State.modPlan_mon (f : Plan → Plan) : (s.modPlan x f).mon = s.mon := by cases x <;> rfl
@[simp] theorem State.modPlan_cal (f : Plan → Plan) : (s.modPlan x f).cal = s.cal := by cases x <;> rfl
@[simp] theorem State.modPlan_mem (f : Plan → Plan) : (s.modPlan x f).mem = s.mem := by cases x <;> rfl
@[simp] theorem State.modPlan_cxl (f : Plan → Plan) : (s.modPlan x f).cxl = s.cxl := by cases x <;> rfl
@[simp] theorem State.modPlan_boot (f : Plan → Plan) : (s.modPlan x f).boot = s.boot := by cases x <;> rfl
@[simp] theorem State.modPlan_retired (f : Plan → Plan) : (s.modPlan x f).retired = s.retired := by cases x <;> rfl
@[simp] theorem State.modPlan_pending (f : Plan → Plan) : (s.modPlan x f).pending = s.pending := by cases x <;> rfl
@[simp] theorem State.modPlan_rd (f : Plan → Plan) : (s.modPlan x f).rd = s.rd := by cases x <;> rfl
@[simp] theorem State.modPlan_cf (f : Plan → Plan) (fr : Fref) (j : Nat) : (s.modPlan x f).cf fr j = s.cf fr j := by cases x <;> rfl
@[simp] theorem State.modPlan_cfx (f : Plan → Plan) (fr : Fref) (j : Nat) : (s.modPlan x f).cfx fr y j = s.cfx fr y j := by cases x <;> rfl
@[simp] theorem State.modPlan_ns (f : Plan → Plan) : (s.modPlan x f).ns = s.ns := by cases x <;> rfl
@[simp] theorem State.modPlan_memo (f : Plan → Plan) (mm : Nat) : (s.modPlan x f).memo mm = s.memo mm := by cases x <;> rfl
@[simp] theorem State.modPlan_stands (f : Plan → Plan) (a b c d : Nat) : (s.modPlan x f).stands a b c d = s.stands a b c d := by cases x <;> rfl
@[simp] theorem State.modPlan_car (f : Plan → Plan) : (s.modPlan x f).car x = { s.car x with plan := f (s.car x).plan } := by
  cases x <;> rfl
theorem State.modPlan_car_ne (f : Plan → Plan) (h : y ≠ x) : (s.modPlan x f).car y = s.car y := by
  cases x <;> cases y <;> first | rfl | exact absurd rfl h
@[simp] theorem State.modPlan_car_fe (f : Plan → Plan) : ((s.modPlan x f).car y).fe = (s.car y).fe := by
  cases x <;> cases y <;> rfl
@[simp] theorem State.modPlan_car_rxc (f : Plan → Plan) : ((s.modPlan x f).car y).rxc = (s.car y).rxc := by
  cases x <;> cases y <;> rfl
@[simp] theorem State.modPlan_car_fec (f : Plan → Plan) : ((s.modPlan x f).car y).fec = (s.car y).fec := by
  cases x <;> cases y <;> rfl
@[simp] theorem State.modPlan_car_tx (f : Plan → Plan) : ((s.modPlan x f).car y).tx = (s.car y).tx := by
  cases x <;> cases y <;> rfl
@[simp] theorem State.modPlan_car_tr (f : Plan → Plan) : ((s.modPlan x f).car y).tr = (s.car y).tr := by
  cases x <;> cases y <;> rfl
@[simp] theorem State.modPlan_car_tk (f : Plan → Plan) : ((s.modPlan x f).car y).tk = (s.car y).tk := by
  cases x <;> cases y <;> rfl
@[simp] theorem State.modPlan_car_cm (f : Plan → Plan) : ((s.modPlan x f).car y).cm = (s.car y).cm := by
  cases x <;> cases y <;> rfl

/-! ### modTr -/
@[simp] theorem State.modTr_sys (f : Tr → Tr) : (s.modTr x f).sys = s.sys := by cases x <;> rfl
@[simp] theorem State.modTr_io (f : Tr → Tr) : (s.modTr x f).io = s.io := by cases x <;> rfl
@[simp] theorem State.modTr_regs (f : Tr → Tr) : (s.modTr x f).regs = s.regs := by cases x <;> rfl
@[simp] theorem State.modTr_chk (f : Tr → Tr) : (s.modTr x f).chk = s.chk := by cases x <;> rfl
@[simp] theorem State.modTr_sti (f : Tr → Tr) : (s.modTr x f).sti = s.sti := by cases x <;> rfl
@[simp] theorem State.modTr_ciph (f : Tr → Tr) : (s.modTr x f).ciph = s.ciph := by cases x <;> rfl
@[simp] theorem State.modTr_seam (f : Tr → Tr) : (s.modTr x f).seam = s.seam := by cases x <;> rfl
@[simp] theorem State.modTr_cli (f : Tr → Tr) : (s.modTr x f).cli = s.cli := by cases x <;> rfl
@[simp] theorem State.modTr_tim (f : Tr → Tr) : (s.modTr x f).tim = s.tim := by cases x <;> rfl
@[simp] theorem State.modTr_mon (f : Tr → Tr) : (s.modTr x f).mon = s.mon := by cases x <;> rfl
@[simp] theorem State.modTr_cal (f : Tr → Tr) : (s.modTr x f).cal = s.cal := by cases x <;> rfl
@[simp] theorem State.modTr_mem (f : Tr → Tr) : (s.modTr x f).mem = s.mem := by cases x <;> rfl
@[simp] theorem State.modTr_cxl (f : Tr → Tr) : (s.modTr x f).cxl = s.cxl := by cases x <;> rfl
@[simp] theorem State.modTr_boot (f : Tr → Tr) : (s.modTr x f).boot = s.boot := by cases x <;> rfl
@[simp] theorem State.modTr_retired (f : Tr → Tr) : (s.modTr x f).retired = s.retired := by cases x <;> rfl
@[simp] theorem State.modTr_pending (f : Tr → Tr) : (s.modTr x f).pending = s.pending := by cases x <;> rfl
@[simp] theorem State.modTr_rd (f : Tr → Tr) : (s.modTr x f).rd = s.rd := by cases x <;> rfl
@[simp] theorem State.modTr_cf (f : Tr → Tr) (fr : Fref) (j : Nat) : (s.modTr x f).cf fr j = s.cf fr j := by cases x <;> rfl
@[simp] theorem State.modTr_cfx (f : Tr → Tr) (fr : Fref) (j : Nat) : (s.modTr x f).cfx fr y j = s.cfx fr y j := by cases x <;> rfl
@[simp] theorem State.modTr_ns (f : Tr → Tr) : (s.modTr x f).ns = s.ns := by cases x <;> rfl
@[simp] theorem State.modTr_memo (f : Tr → Tr) (mm : Nat) : (s.modTr x f).memo mm = s.memo mm := by cases x <;> rfl
@[simp] theorem State.modTr_stands (f : Tr → Tr) (a b c d : Nat) : (s.modTr x f).stands a b c d = s.stands a b c d := by cases x <;> rfl
@[simp] theorem State.modTr_car (f : Tr → Tr) : (s.modTr x f).car x = { s.car x with tr := f (s.car x).tr } := by
  cases x <;> rfl
theorem State.modTr_car_ne (f : Tr → Tr) (h : y ≠ x) : (s.modTr x f).car y = s.car y := by
  cases x <;> cases y <;> first | rfl | exact absurd rfl h
@[simp] theorem State.modTr_car_fe (f : Tr → Tr) : ((s.modTr x f).car y).fe = (s.car y).fe := by
  cases x <;> cases y <;> rfl
@[simp] theorem State.modTr_car_rxc (f : Tr → Tr) : ((s.modTr x f).car y).rxc = (s.car y).rxc := by
  cases x <;> cases y <;> rfl
@[simp] theorem State.modTr_car_fec (f : Tr → Tr) : ((s.modTr x f).car y).fec = (s.car y).fec := by
  cases x <;> cases y <;> rfl
@[simp] theorem State.modTr_car_tx (f : Tr → Tr) : ((s.modTr x f).car y).tx = (s.car y).tx := by
  cases x <;> cases y <;> rfl
@[simp] theorem State.modTr_car_plan (f : Tr → Tr) : ((s.modTr x f).car y).plan = (s.car y).plan := by
  cases x <;> cases y <;> rfl
@[simp] theorem State.modTr_car_tk (f : Tr → Tr) : ((s.modTr x f).car y).tk = (s.car y).tk := by
  cases x <;> cases y <;> rfl
@[simp] theorem State.modTr_car_cm (f : Tr → Tr) : ((s.modTr x f).car y).cm = (s.car y).cm := by
  cases x <;> cases y <;> rfl

/-! ### modTk -/
@[simp] theorem State.modTk_sys (f : Tack → Tack) : (s.modTk x f).sys = s.sys := by cases x <;> rfl
@[simp] theorem State.modTk_io (f : Tack → Tack) : (s.modTk x f).io = s.io := by cases x <;> rfl
@[simp] theorem State.modTk_regs (f : Tack → Tack) : (s.modTk x f).regs = s.regs := by cases x <;> rfl
@[simp] theorem State.modTk_chk (f : Tack → Tack) : (s.modTk x f).chk = s.chk := by cases x <;> rfl
@[simp] theorem State.modTk_sti (f : Tack → Tack) : (s.modTk x f).sti = s.sti := by cases x <;> rfl
@[simp] theorem State.modTk_ciph (f : Tack → Tack) : (s.modTk x f).ciph = s.ciph := by cases x <;> rfl
@[simp] theorem State.modTk_seam (f : Tack → Tack) : (s.modTk x f).seam = s.seam := by cases x <;> rfl
@[simp] theorem State.modTk_cli (f : Tack → Tack) : (s.modTk x f).cli = s.cli := by cases x <;> rfl
@[simp] theorem State.modTk_tim (f : Tack → Tack) : (s.modTk x f).tim = s.tim := by cases x <;> rfl
@[simp] theorem State.modTk_mon (f : Tack → Tack) : (s.modTk x f).mon = s.mon := by cases x <;> rfl
@[simp] theorem State.modTk_cal (f : Tack → Tack) : (s.modTk x f).cal = s.cal := by cases x <;> rfl
@[simp] theorem State.modTk_mem (f : Tack → Tack) : (s.modTk x f).mem = s.mem := by cases x <;> rfl
@[simp] theorem State.modTk_cxl (f : Tack → Tack) : (s.modTk x f).cxl = s.cxl := by cases x <;> rfl
@[simp] theorem State.modTk_boot (f : Tack → Tack) : (s.modTk x f).boot = s.boot := by cases x <;> rfl
@[simp] theorem State.modTk_retired (f : Tack → Tack) : (s.modTk x f).retired = s.retired := by cases x <;> rfl
@[simp] theorem State.modTk_pending (f : Tack → Tack) : (s.modTk x f).pending = s.pending := by cases x <;> rfl
@[simp] theorem State.modTk_rd (f : Tack → Tack) : (s.modTk x f).rd = s.rd := by cases x <;> rfl
@[simp] theorem State.modTk_cf (f : Tack → Tack) (fr : Fref) (j : Nat) : (s.modTk x f).cf fr j = s.cf fr j := by cases x <;> rfl
@[simp] theorem State.modTk_cfx (f : Tack → Tack) (fr : Fref) (j : Nat) : (s.modTk x f).cfx fr y j = s.cfx fr y j := by cases x <;> rfl
@[simp] theorem State.modTk_ns (f : Tack → Tack) : (s.modTk x f).ns = s.ns := by cases x <;> rfl
@[simp] theorem State.modTk_memo (f : Tack → Tack) (mm : Nat) : (s.modTk x f).memo mm = s.memo mm := by cases x <;> rfl
@[simp] theorem State.modTk_stands (f : Tack → Tack) (a b c d : Nat) : (s.modTk x f).stands a b c d = s.stands a b c d := by cases x <;> rfl
@[simp] theorem State.modTk_car (f : Tack → Tack) : (s.modTk x f).car x = { s.car x with tk := f (s.car x).tk } := by
  cases x <;> rfl
theorem State.modTk_car_ne (f : Tack → Tack) (h : y ≠ x) : (s.modTk x f).car y = s.car y := by
  cases x <;> cases y <;> first | rfl | exact absurd rfl h
@[simp] theorem State.modTk_car_fe (f : Tack → Tack) : ((s.modTk x f).car y).fe = (s.car y).fe := by
  cases x <;> cases y <;> rfl
@[simp] theorem State.modTk_car_rxc (f : Tack → Tack) : ((s.modTk x f).car y).rxc = (s.car y).rxc := by
  cases x <;> cases y <;> rfl
@[simp] theorem State.modTk_car_fec (f : Tack → Tack) : ((s.modTk x f).car y).fec = (s.car y).fec := by
  cases x <;> cases y <;> rfl
@[simp] theorem State.modTk_car_tx (f : Tack → Tack) : ((s.modTk x f).car y).tx = (s.car y).tx := by
  cases x <;> cases y <;> rfl
@[simp] theorem State.modTk_car_plan (f : Tack → Tack) : ((s.modTk x f).car y).plan = (s.car y).plan := by
  cases x <;> cases y <;> rfl
@[simp] theorem State.modTk_car_tr (f : Tack → Tack) : ((s.modTk x f).car y).tr = (s.car y).tr := by
  cases x <;> cases y <;> rfl
@[simp] theorem State.modTk_car_cm (f : Tack → Tack) : ((s.modTk x f).car y).cm = (s.car y).cm := by
  cases x <;> cases y <;> rfl

/-! ### modCm -/
@[simp] theorem State.modCm_sys (f : Crease → Crease) : (s.modCm x f).sys = s.sys := by cases x <;> rfl
@[simp] theorem State.modCm_io (f : Crease → Crease) : (s.modCm x f).io = s.io := by cases x <;> rfl
@[simp] theorem State.modCm_regs (f : Crease → Crease) : (s.modCm x f).regs = s.regs := by cases x <;> rfl
@[simp] theorem State.modCm_chk (f : Crease → Crease) : (s.modCm x f).chk = s.chk := by cases x <;> rfl
@[simp] theorem State.modCm_sti (f : Crease → Crease) : (s.modCm x f).sti = s.sti := by cases x <;> rfl
@[simp] theorem State.modCm_ciph (f : Crease → Crease) : (s.modCm x f).ciph = s.ciph := by cases x <;> rfl
@[simp] theorem State.modCm_seam (f : Crease → Crease) : (s.modCm x f).seam = s.seam := by cases x <;> rfl
@[simp] theorem State.modCm_cli (f : Crease → Crease) : (s.modCm x f).cli = s.cli := by cases x <;> rfl
@[simp] theorem State.modCm_tim (f : Crease → Crease) : (s.modCm x f).tim = s.tim := by cases x <;> rfl
@[simp] theorem State.modCm_mon (f : Crease → Crease) : (s.modCm x f).mon = s.mon := by cases x <;> rfl
@[simp] theorem State.modCm_cal (f : Crease → Crease) : (s.modCm x f).cal = s.cal := by cases x <;> rfl
@[simp] theorem State.modCm_mem (f : Crease → Crease) : (s.modCm x f).mem = s.mem := by cases x <;> rfl
@[simp] theorem State.modCm_cxl (f : Crease → Crease) : (s.modCm x f).cxl = s.cxl := by cases x <;> rfl
@[simp] theorem State.modCm_boot (f : Crease → Crease) : (s.modCm x f).boot = s.boot := by cases x <;> rfl
@[simp] theorem State.modCm_retired (f : Crease → Crease) : (s.modCm x f).retired = s.retired := by cases x <;> rfl
@[simp] theorem State.modCm_pending (f : Crease → Crease) : (s.modCm x f).pending = s.pending := by cases x <;> rfl
@[simp] theorem State.modCm_rd (f : Crease → Crease) : (s.modCm x f).rd = s.rd := by cases x <;> rfl
@[simp] theorem State.modCm_cf (f : Crease → Crease) (fr : Fref) (j : Nat) : (s.modCm x f).cf fr j = s.cf fr j := by cases x <;> rfl
@[simp] theorem State.modCm_cfx (f : Crease → Crease) (fr : Fref) (j : Nat) : (s.modCm x f).cfx fr y j = s.cfx fr y j := by cases x <;> rfl
@[simp] theorem State.modCm_ns (f : Crease → Crease) : (s.modCm x f).ns = s.ns := by cases x <;> rfl
@[simp] theorem State.modCm_memo (f : Crease → Crease) (mm : Nat) : (s.modCm x f).memo mm = s.memo mm := by cases x <;> rfl
@[simp] theorem State.modCm_stands (f : Crease → Crease) (a b c d : Nat) : (s.modCm x f).stands a b c d = s.stands a b c d := by cases x <;> rfl
@[simp] theorem State.modCm_car (f : Crease → Crease) : (s.modCm x f).car x = { s.car x with cm := f (s.car x).cm } := by
  cases x <;> rfl
theorem State.modCm_car_ne (f : Crease → Crease) (h : y ≠ x) : (s.modCm x f).car y = s.car y := by
  cases x <;> cases y <;> first | rfl | exact absurd rfl h
@[simp] theorem State.modCm_car_fe (f : Crease → Crease) : ((s.modCm x f).car y).fe = (s.car y).fe := by
  cases x <;> cases y <;> rfl
@[simp] theorem State.modCm_car_rxc (f : Crease → Crease) : ((s.modCm x f).car y).rxc = (s.car y).rxc := by
  cases x <;> cases y <;> rfl
@[simp] theorem State.modCm_car_fec (f : Crease → Crease) : ((s.modCm x f).car y).fec = (s.car y).fec := by
  cases x <;> cases y <;> rfl
@[simp] theorem State.modCm_car_tx (f : Crease → Crease) : ((s.modCm x f).car y).tx = (s.car y).tx := by
  cases x <;> cases y <;> rfl
@[simp] theorem State.modCm_car_plan (f : Crease → Crease) : ((s.modCm x f).car y).plan = (s.car y).plan := by
  cases x <;> cases y <;> rfl
@[simp] theorem State.modCm_car_tr (f : Crease → Crease) : ((s.modCm x f).car y).tr = (s.car y).tr := by
  cases x <;> cases y <;> rfl
@[simp] theorem State.modCm_car_tk (f : Crease → Crease) : ((s.modCm x f).car y).tk = (s.car y).tk := by
  cases x <;> cases y <;> rfl

/-! ### modSys -/
@[simp] theorem State.modSys_io (f : Sys → Sys) : (s.modSys f).io = s.io := rfl
@[simp] theorem State.modSys_regs (f : Sys → Sys) : (s.modSys f).regs = s.regs := rfl
@[simp] theorem State.modSys_chk (f : Sys → Sys) : (s.modSys f).chk = s.chk := rfl
@[simp] theorem State.modSys_sti (f : Sys → Sys) : (s.modSys f).sti = s.sti := rfl
@[simp] theorem State.modSys_carA (f : Sys → Sys) : (s.modSys f).carA = s.carA := rfl
@[simp] theorem State.modSys_carB (f : Sys → Sys) : (s.modSys f).carB = s.carB := rfl
@[simp] theorem State.modSys_ciph (f : Sys → Sys) : (s.modSys f).ciph = s.ciph := rfl
@[simp] theorem State.modSys_seam (f : Sys → Sys) : (s.modSys f).seam = s.seam := rfl
@[simp] theorem State.modSys_cli (f : Sys → Sys) : (s.modSys f).cli = s.cli := rfl
@[simp] theorem State.modSys_tim (f : Sys → Sys) : (s.modSys f).tim = s.tim := rfl
@[simp] theorem State.modSys_mon (f : Sys → Sys) : (s.modSys f).mon = s.mon := rfl
@[simp] theorem State.modSys_cal (f : Sys → Sys) : (s.modSys f).cal = s.cal := rfl
@[simp] theorem State.modSys_mem (f : Sys → Sys) : (s.modSys f).mem = s.mem := rfl
@[simp] theorem State.modSys_cxl (f : Sys → Sys) : (s.modSys f).cxl = s.cxl := rfl
@[simp] theorem State.modSys_boot (f : Sys → Sys) : (s.modSys f).boot = s.boot := rfl
@[simp] theorem State.modSys_retired (f : Sys → Sys) : (s.modSys f).retired = s.retired := rfl
@[simp] theorem State.modSys_pending (f : Sys → Sys) : (s.modSys f).pending = s.pending := rfl
@[simp] theorem State.modSys_rd (f : Sys → Sys) : (s.modSys f).rd = s.rd := rfl
@[simp] theorem State.modSys_cf (f : Sys → Sys) (fr : Fref) (j : Nat) : (s.modSys f).cf fr j = s.cf fr j := rfl
@[simp] theorem State.modSys_cfx (f : Sys → Sys) (fr : Fref) (j : Nat) : (s.modSys f).cfx fr y j = s.cfx fr y j := rfl
@[simp] theorem State.modSys_memo (f : Sys → Sys) (mm : Nat) : (s.modSys f).memo mm = s.memo mm := rfl
@[simp] theorem State.modSys_stands (f : Sys → Sys) (a b c d : Nat) : (s.modSys f).stands a b c d = s.stands a b c d := rfl
@[simp] theorem State.modSys_car (f : Sys → Sys) : (s.modSys f).car y = s.car y := by cases y <;> rfl
@[simp] theorem State.modSys_sys (f : Sys → Sys) : (s.modSys f).sys = f s.sys := rfl

/-! ### modBoot -/
@[simp] theorem State.modBoot_sys (f : Boot → Boot) : (s.modBoot f).sys = s.sys := rfl
@[simp] theorem State.modBoot_io (f : Boot → Boot) : (s.modBoot f).io = s.io := rfl
@[simp] theorem State.modBoot_regs (f : Boot → Boot) : (s.modBoot f).regs = s.regs := rfl
@[simp] theorem State.modBoot_chk (f : Boot → Boot) : (s.modBoot f).chk = s.chk := rfl
@[simp] theorem State.modBoot_sti (f : Boot → Boot) : (s.modBoot f).sti = s.sti := rfl
@[simp] theorem State.modBoot_carA (f : Boot → Boot) : (s.modBoot f).carA = s.carA := rfl
@[simp] theorem State.modBoot_carB (f : Boot → Boot) : (s.modBoot f).carB = s.carB := rfl
@[simp] theorem State.modBoot_ciph (f : Boot → Boot) : (s.modBoot f).ciph = s.ciph := rfl
@[simp] theorem State.modBoot_seam (f : Boot → Boot) : (s.modBoot f).seam = s.seam := rfl
@[simp] theorem State.modBoot_cli (f : Boot → Boot) : (s.modBoot f).cli = s.cli := rfl
@[simp] theorem State.modBoot_tim (f : Boot → Boot) : (s.modBoot f).tim = s.tim := rfl
@[simp] theorem State.modBoot_mon (f : Boot → Boot) : (s.modBoot f).mon = s.mon := rfl
@[simp] theorem State.modBoot_cal (f : Boot → Boot) : (s.modBoot f).cal = s.cal := rfl
@[simp] theorem State.modBoot_mem (f : Boot → Boot) : (s.modBoot f).mem = s.mem := rfl
@[simp] theorem State.modBoot_cxl (f : Boot → Boot) : (s.modBoot f).cxl = s.cxl := rfl
@[simp] theorem State.modBoot_retired (f : Boot → Boot) : (s.modBoot f).retired = s.retired := rfl
@[simp] theorem State.modBoot_pending (f : Boot → Boot) : (s.modBoot f).pending = s.pending := rfl
@[simp] theorem State.modBoot_rd (f : Boot → Boot) : (s.modBoot f).rd = s.rd := rfl
@[simp] theorem State.modBoot_cf (f : Boot → Boot) (fr : Fref) (j : Nat) : (s.modBoot f).cf fr j = s.cf fr j := rfl
@[simp] theorem State.modBoot_cfx (f : Boot → Boot) (fr : Fref) (j : Nat) : (s.modBoot f).cfx fr y j = s.cfx fr y j := rfl
@[simp] theorem State.modBoot_ns (f : Boot → Boot) : (s.modBoot f).ns = s.ns := rfl
@[simp] theorem State.modBoot_memo (f : Boot → Boot) (mm : Nat) : (s.modBoot f).memo mm = s.memo mm := rfl
@[simp] theorem State.modBoot_stands (f : Boot → Boot) (a b c d : Nat) : (s.modBoot f).stands a b c d = s.stands a b c d := rfl
@[simp] theorem State.modBoot_car (f : Boot → Boot) : (s.modBoot f).car y = s.car y := by cases y <;> rfl
@[simp] theorem State.modBoot_boot (f : Boot → Boot) : (s.modBoot f).boot = f s.boot := rfl

/-! ### modSeam -/
@[simp] theorem State.modSeam_sys (f : Seam → Seam) : (s.modSeam f).sys = s.sys := rfl
@[simp] theorem State.modSeam_io (f : Seam → Seam) : (s.modSeam f).io = s.io := rfl
@[simp] theorem State.modSeam_regs (f : Seam → Seam) : (s.modSeam f).regs = s.regs := rfl
@[simp] theorem State.modSeam_chk (f : Seam → Seam) : (s.modSeam f).chk = s.chk := rfl
@[simp] theorem State.modSeam_sti (f : Seam → Seam) : (s.modSeam f).sti = s.sti := rfl
@[simp] theorem State.modSeam_carA (f : Seam → Seam) : (s.modSeam f).carA = s.carA := rfl
@[simp] theorem State.modSeam_carB (f : Seam → Seam) : (s.modSeam f).carB = s.carB := rfl
@[simp] theorem State.modSeam_ciph (f : Seam → Seam) : (s.modSeam f).ciph = s.ciph := rfl
@[simp] theorem State.modSeam_cli (f : Seam → Seam) : (s.modSeam f).cli = s.cli := rfl
@[simp] theorem State.modSeam_tim (f : Seam → Seam) : (s.modSeam f).tim = s.tim := rfl
@[simp] theorem State.modSeam_mon (f : Seam → Seam) : (s.modSeam f).mon = s.mon := rfl
@[simp] theorem State.modSeam_cal (f : Seam → Seam) : (s.modSeam f).cal = s.cal := rfl
@[simp] theorem State.modSeam_mem (f : Seam → Seam) : (s.modSeam f).mem = s.mem := rfl
@[simp] theorem State.modSeam_cxl (f : Seam → Seam) : (s.modSeam f).cxl = s.cxl := rfl
@[simp] theorem State.modSeam_boot (f : Seam → Seam) : (s.modSeam f).boot = s.boot := rfl
@[simp] theorem State.modSeam_retired (f : Seam → Seam) : (s.modSeam f).retired = s.retired := rfl
@[simp] theorem State.modSeam_pending (f : Seam → Seam) : (s.modSeam f).pending = s.pending := rfl
@[simp] theorem State.modSeam_rd (f : Seam → Seam) : (s.modSeam f).rd = s.rd := rfl
@[simp] theorem State.modSeam_cf (f : Seam → Seam) (fr : Fref) (j : Nat) : (s.modSeam f).cf fr j = s.cf fr j := rfl
@[simp] theorem State.modSeam_cfx (f : Seam → Seam) (fr : Fref) (j : Nat) : (s.modSeam f).cfx fr y j = s.cfx fr y j := rfl
@[simp] theorem State.modSeam_ns (f : Seam → Seam) : (s.modSeam f).ns = s.ns := rfl
@[simp] theorem State.modSeam_memo (f : Seam → Seam) (mm : Nat) : (s.modSeam f).memo mm = s.memo mm := rfl
@[simp] theorem State.modSeam_stands (f : Seam → Seam) (a b c d : Nat) : (s.modSeam f).stands a b c d = s.stands a b c d := rfl
@[simp] theorem State.modSeam_car (f : Seam → Seam) : (s.modSeam f).car y = s.car y := by cases y <;> rfl
@[simp] theorem State.modSeam_seam (f : Seam → Seam) : (s.modSeam f).seam = f s.seam := rfl

/-! ### modMon -/
@[simp] theorem State.modMon_sys (f : Mon → Mon) : (s.modMon f).sys = s.sys := rfl
@[simp] theorem State.modMon_io (f : Mon → Mon) : (s.modMon f).io = s.io := rfl
@[simp] theorem State.modMon_regs (f : Mon → Mon) : (s.modMon f).regs = s.regs := rfl
@[simp] theorem State.modMon_chk (f : Mon → Mon) : (s.modMon f).chk = s.chk := rfl
@[simp] theorem State.modMon_sti (f : Mon → Mon) : (s.modMon f).sti = s.sti := rfl
@[simp] theorem State.modMon_carA (f : Mon → Mon) : (s.modMon f).carA = s.carA := rfl
@[simp] theorem State.modMon_carB (f : Mon → Mon) : (s.modMon f).carB = s.carB := rfl
@[simp] theorem State.modMon_ciph (f : Mon → Mon) : (s.modMon f).ciph = s.ciph := rfl
@[simp] theorem State.modMon_seam (f : Mon → Mon) : (s.modMon f).seam = s.seam := rfl
@[simp] theorem State.modMon_cli (f : Mon → Mon) : (s.modMon f).cli = s.cli := rfl
@[simp] theorem State.modMon_tim (f : Mon → Mon) : (s.modMon f).tim = s.tim := rfl
@[simp] theorem State.modMon_cal (f : Mon → Mon) : (s.modMon f).cal = s.cal := rfl
@[simp] theorem State.modMon_mem (f : Mon → Mon) : (s.modMon f).mem = s.mem := rfl
@[simp] theorem State.modMon_cxl (f : Mon → Mon) : (s.modMon f).cxl = s.cxl := rfl
@[simp] theorem State.modMon_boot (f : Mon → Mon) : (s.modMon f).boot = s.boot := rfl
@[simp] theorem State.modMon_retired (f : Mon → Mon) : (s.modMon f).retired = s.retired := rfl
@[simp] theorem State.modMon_pending (f : Mon → Mon) : (s.modMon f).pending = s.pending := rfl
@[simp] theorem State.modMon_rd (f : Mon → Mon) : (s.modMon f).rd = s.rd := rfl
@[simp] theorem State.modMon_cf (f : Mon → Mon) (fr : Fref) (j : Nat) : (s.modMon f).cf fr j = s.cf fr j := rfl
@[simp] theorem State.modMon_cfx (f : Mon → Mon) (fr : Fref) (j : Nat) : (s.modMon f).cfx fr y j = s.cfx fr y j := rfl
@[simp] theorem State.modMon_ns (f : Mon → Mon) : (s.modMon f).ns = s.ns := rfl
@[simp] theorem State.modMon_memo (f : Mon → Mon) (mm : Nat) : (s.modMon f).memo mm = s.memo mm := rfl
@[simp] theorem State.modMon_stands (f : Mon → Mon) (a b c d : Nat) : (s.modMon f).stands a b c d = s.stands a b c d := rfl
@[simp] theorem State.modMon_car (f : Mon → Mon) : (s.modMon f).car y = s.car y := by cases y <;> rfl
@[simp] theorem State.modMon_mon (f : Mon → Mon) : (s.modMon f).mon = f s.mon := rfl

/-! ### modMem -/
@[simp] theorem State.modMem_sys (m : Nat) (f : MemSt → MemSt) : (s.modMem m f).sys = s.sys := rfl
@[simp] theorem State.modMem_io (m : Nat) (f : MemSt → MemSt) : (s.modMem m f).io = s.io := rfl
@[simp] theorem State.modMem_regs (m : Nat) (f : MemSt → MemSt) : (s.modMem m f).regs = s.regs := rfl
@[simp] theorem State.modMem_chk (m : Nat) (f : MemSt → MemSt) : (s.modMem m f).chk = s.chk := rfl
@[simp] theorem State.modMem_sti (m : Nat) (f : MemSt → MemSt) : (s.modMem m f).sti = s.sti := rfl
@[simp] theorem State.modMem_carA (m : Nat) (f : MemSt → MemSt) : (s.modMem m f).carA = s.carA := rfl
@[simp] theorem State.modMem_carB (m : Nat) (f : MemSt → MemSt) : (s.modMem m f).carB = s.carB := rfl
@[simp] theorem State.modMem_ciph (m : Nat) (f : MemSt → MemSt) : (s.modMem m f).ciph = s.ciph := rfl
@[simp] theorem State.modMem_seam (m : Nat) (f : MemSt → MemSt) : (s.modMem m f).seam = s.seam := rfl
@[simp] theorem State.modMem_cli (m : Nat) (f : MemSt → MemSt) : (s.modMem m f).cli = s.cli := rfl
@[simp] theorem State.modMem_tim (m : Nat) (f : MemSt → MemSt) : (s.modMem m f).tim = s.tim := rfl
@[simp] theorem State.modMem_mon (m : Nat) (f : MemSt → MemSt) : (s.modMem m f).mon = s.mon := rfl
@[simp] theorem State.modMem_cal (m : Nat) (f : MemSt → MemSt) : (s.modMem m f).cal = s.cal := rfl
@[simp] theorem State.modMem_cxl (m : Nat) (f : MemSt → MemSt) : (s.modMem m f).cxl = s.cxl := rfl
@[simp] theorem State.modMem_boot (m : Nat) (f : MemSt → MemSt) : (s.modMem m f).boot = s.boot := rfl
@[simp] theorem State.modMem_retired (m : Nat) (f : MemSt → MemSt) : (s.modMem m f).retired = s.retired := rfl
@[simp] theorem State.modMem_pending (m : Nat) (f : MemSt → MemSt) : (s.modMem m f).pending = s.pending := rfl
@[simp] theorem State.modMem_rd (m : Nat) (f : MemSt → MemSt) : (s.modMem m f).rd = s.rd := rfl
@[simp] theorem State.modMem_cf (m : Nat) (f : MemSt → MemSt) (fr : Fref) (j : Nat) : (s.modMem m f).cf fr j = s.cf fr j := rfl
@[simp] theorem State.modMem_cfx (m : Nat) (f : MemSt → MemSt) (fr : Fref) (j : Nat) : (s.modMem m f).cfx fr y j = s.cfx fr y j := rfl
@[simp] theorem State.modMem_ns (m : Nat) (f : MemSt → MemSt) : (s.modMem m f).ns = s.ns := rfl
@[simp] theorem State.modMem_stands (m : Nat) (f : MemSt → MemSt) (a b c d : Nat) : (s.modMem m f).stands a b c d = s.stands a b c d := rfl
@[simp] theorem State.modMem_car (m : Nat) (f : MemSt → MemSt) : (s.modMem m f).car y = s.car y := by cases y <;> rfl

/-! ### setWord -/
@[simp] theorem State.setWord_sys (k : RegKey) (w : Word) : (s.setWord k w).sys = s.sys := rfl
@[simp] theorem State.setWord_io (k : RegKey) (w : Word) : (s.setWord k w).io = s.io := rfl
@[simp] theorem State.setWord_chk (k : RegKey) (w : Word) : (s.setWord k w).chk = s.chk := rfl
@[simp] theorem State.setWord_sti (k : RegKey) (w : Word) : (s.setWord k w).sti = s.sti := rfl
@[simp] theorem State.setWord_carA (k : RegKey) (w : Word) : (s.setWord k w).carA = s.carA := rfl
@[simp] theorem State.setWord_carB (k : RegKey) (w : Word) : (s.setWord k w).carB = s.carB := rfl
@[simp] theorem State.setWord_ciph (k : RegKey) (w : Word) : (s.setWord k w).ciph = s.ciph := rfl
@[simp] theorem State.setWord_seam (k : RegKey) (w : Word) : (s.setWord k w).seam = s.seam := rfl
@[simp] theorem State.setWord_cli (k : RegKey) (w : Word) : (s.setWord k w).cli = s.cli := rfl
@[simp] theorem State.setWord_tim (k : RegKey) (w : Word) : (s.setWord k w).tim = s.tim := rfl
@[simp] theorem State.setWord_mon (k : RegKey) (w : Word) : (s.setWord k w).mon = s.mon := rfl
@[simp] theorem State.setWord_cal (k : RegKey) (w : Word) : (s.setWord k w).cal = s.cal := rfl
@[simp] theorem State.setWord_mem (k : RegKey) (w : Word) : (s.setWord k w).mem = s.mem := rfl
@[simp] theorem State.setWord_cxl (k : RegKey) (w : Word) : (s.setWord k w).cxl = s.cxl := rfl
@[simp] theorem State.setWord_boot (k : RegKey) (w : Word) : (s.setWord k w).boot = s.boot := rfl
@[simp] theorem State.setWord_retired (k : RegKey) (w : Word) : (s.setWord k w).retired = s.retired := rfl
@[simp] theorem State.setWord_pending (k : RegKey) (w : Word) : (s.setWord k w).pending = s.pending := rfl
@[simp] theorem State.setWord_ns (k : RegKey) (w : Word) : (s.setWord k w).ns = s.ns := rfl
@[simp] theorem State.setWord_memo (k : RegKey) (w : Word) (mm : Nat) : (s.setWord k w).memo mm = s.memo mm := rfl
@[simp] theorem State.setWord_stands (k : RegKey) (w : Word) (a b c d : Nat) : (s.setWord k w).stands a b c d = s.stands a b c d := rfl
@[simp] theorem State.setWord_car (k : RegKey) (w : Word) : (s.setWord k w).car y = s.car y := by cases y <;> rfl

/-! ### setField -/
@[simp] theorem State.setField_sys (f : Fref) (i v : Nat) : (s.setField f i v).sys = s.sys := rfl
@[simp] theorem State.setField_io (f : Fref) (i v : Nat) : (s.setField f i v).io = s.io := rfl
@[simp] theorem State.setField_chk (f : Fref) (i v : Nat) : (s.setField f i v).chk = s.chk := rfl
@[simp] theorem State.setField_sti (f : Fref) (i v : Nat) : (s.setField f i v).sti = s.sti := rfl
@[simp] theorem State.setField_carA (f : Fref) (i v : Nat) : (s.setField f i v).carA = s.carA := rfl
@[simp] theorem State.setField_carB (f : Fref) (i v : Nat) : (s.setField f i v).carB = s.carB := rfl
@[simp] theorem State.setField_ciph (f : Fref) (i v : Nat) : (s.setField f i v).ciph = s.ciph := rfl
@[simp] theorem State.setField_seam (f : Fref) (i v : Nat) : (s.setField f i v).seam = s.seam := rfl
@[simp] theorem State.setField_cli (f : Fref) (i v : Nat) : (s.setField f i v).cli = s.cli := rfl
@[simp] theorem State.setField_tim (f : Fref) (i v : Nat) : (s.setField f i v).tim = s.tim := rfl
@[simp] theorem State.setField_mon (f : Fref) (i v : Nat) : (s.setField f i v).mon = s.mon := rfl
@[simp] theorem State.setField_cal (f : Fref) (i v : Nat) : (s.setField f i v).cal = s.cal := rfl
@[simp] theorem State.setField_mem (f : Fref) (i v : Nat) : (s.setField f i v).mem = s.mem := rfl
@[simp] theorem State.setField_cxl (f : Fref) (i v : Nat) : (s.setField f i v).cxl = s.cxl := rfl
@[simp] theorem State.setField_boot (f : Fref) (i v : Nat) : (s.setField f i v).boot = s.boot := rfl
@[simp] theorem State.setField_retired (f : Fref) (i v : Nat) : (s.setField f i v).retired = s.retired := rfl
@[simp] theorem State.setField_pending (f : Fref) (i v : Nat) : (s.setField f i v).pending = s.pending := rfl
@[simp] theorem State.setField_ns (f : Fref) (i v : Nat) : (s.setField f i v).ns = s.ns := rfl
@[simp] theorem State.setField_memo (f : Fref) (i v : Nat) (mm : Nat) : (s.setField f i v).memo mm = s.memo mm := rfl
@[simp] theorem State.setField_stands (f : Fref) (i v : Nat) (a b c d : Nat) : (s.setField f i v).stands a b c d = s.stands a b c d := rfl
@[simp] theorem State.setField_car (f : Fref) (i v : Nat) : (s.setField f i v).car y = s.car y := by cases y <;> rfl

/-! ### setFieldx -/
@[simp] theorem State.setFieldx_sys (f : Fref) (i v : Nat) : (s.setFieldx f x i v).sys = s.sys := rfl
@[simp] theorem State.setFieldx_io (f : Fref) (i v : Nat) : (s.setFieldx f x i v).io = s.io := rfl
@[simp] theorem State.setFieldx_chk (f : Fref) (i v : Nat) : (s.setFieldx f x i v).chk = s.chk := rfl
@[simp] theorem State.setFieldx_sti (f : Fref) (i v : Nat) : (s.setFieldx f x i v).sti = s.sti := rfl
@[simp] theorem State.setFieldx_carA (f : Fref) (i v : Nat) : (s.setFieldx f x i v).carA = s.carA := rfl
@[simp] theorem State.setFieldx_carB (f : Fref) (i v : Nat) : (s.setFieldx f x i v).carB = s.carB := rfl
@[simp] theorem State.setFieldx_ciph (f : Fref) (i v : Nat) : (s.setFieldx f x i v).ciph = s.ciph := rfl
@[simp] theorem State.setFieldx_seam (f : Fref) (i v : Nat) : (s.setFieldx f x i v).seam = s.seam := rfl
@[simp] theorem State.setFieldx_cli (f : Fref) (i v : Nat) : (s.setFieldx f x i v).cli = s.cli := rfl
@[simp] theorem State.setFieldx_tim (f : Fref) (i v : Nat) : (s.setFieldx f x i v).tim = s.tim := rfl
@[simp] theorem State.setFieldx_mon (f : Fref) (i v : Nat) : (s.setFieldx f x i v).mon = s.mon := rfl
@[simp] theorem State.setFieldx_cal (f : Fref) (i v : Nat) : (s.setFieldx f x i v).cal = s.cal := rfl
@[simp] theorem State.setFieldx_mem (f : Fref) (i v : Nat) : (s.setFieldx f x i v).mem = s.mem := rfl
@[simp] theorem State.setFieldx_cxl (f : Fref) (i v : Nat) : (s.setFieldx f x i v).cxl = s.cxl := rfl
@[simp] theorem State.setFieldx_boot (f : Fref) (i v : Nat) : (s.setFieldx f x i v).boot = s.boot := rfl
@[simp] theorem State.setFieldx_retired (f : Fref) (i v : Nat) : (s.setFieldx f x i v).retired = s.retired := rfl
@[simp] theorem State.setFieldx_pending (f : Fref) (i v : Nat) : (s.setFieldx f x i v).pending = s.pending := rfl
@[simp] theorem State.setFieldx_ns (f : Fref) (i v : Nat) : (s.setFieldx f x i v).ns = s.ns := rfl
@[simp] theorem State.setFieldx_memo (f : Fref) (i v : Nat) (mm : Nat) : (s.setFieldx f x i v).memo mm = s.memo mm := rfl
@[simp] theorem State.setFieldx_stands (f : Fref) (i v : Nat) (a b c d : Nat) : (s.setFieldx f x i v).stands a b c d = s.stands a b c d := rfl
@[simp] theorem State.setFieldx_car (f : Fref) (i v : Nat) : (s.setFieldx f x i v).car y = s.car y := by cases y <;> rfl

/-! ### stage -/
@[simp] theorem State.stage_sys (k : RegKey) (v m : Word) : (s.stage k v m).sys = s.sys := rfl
@[simp] theorem State.stage_io (k : RegKey) (v m : Word) : (s.stage k v m).io = s.io := rfl
@[simp] theorem State.stage_chk (k : RegKey) (v m : Word) : (s.stage k v m).chk = s.chk := rfl
@[simp] theorem State.stage_sti (k : RegKey) (v m : Word) : (s.stage k v m).sti = s.sti := rfl
@[simp] theorem State.stage_carA (k : RegKey) (v m : Word) : (s.stage k v m).carA = s.carA := rfl
@[simp] theorem State.stage_carB (k : RegKey) (v m : Word) : (s.stage k v m).carB = s.carB := rfl
@[simp] theorem State.stage_ciph (k : RegKey) (v m : Word) : (s.stage k v m).ciph = s.ciph := rfl
@[simp] theorem State.stage_seam (k : RegKey) (v m : Word) : (s.stage k v m).seam = s.seam := rfl
@[simp] theorem State.stage_cli (k : RegKey) (v m : Word) : (s.stage k v m).cli = s.cli := rfl
@[simp] theorem State.stage_tim (k : RegKey) (v m : Word) : (s.stage k v m).tim = s.tim := rfl
@[simp] theorem State.stage_mon (k : RegKey) (v m : Word) : (s.stage k v m).mon = s.mon := rfl
@[simp] theorem State.stage_cal (k : RegKey) (v m : Word) : (s.stage k v m).cal = s.cal := rfl
@[simp] theorem State.stage_mem (k : RegKey) (v m : Word) : (s.stage k v m).mem = s.mem := rfl
@[simp] theorem State.stage_cxl (k : RegKey) (v m : Word) : (s.stage k v m).cxl = s.cxl := rfl
@[simp] theorem State.stage_boot (k : RegKey) (v m : Word) : (s.stage k v m).boot = s.boot := rfl
@[simp] theorem State.stage_retired (k : RegKey) (v m : Word) : (s.stage k v m).retired = s.retired := rfl
@[simp] theorem State.stage_pending (k : RegKey) (v m : Word) : (s.stage k v m).pending = s.pending := rfl
@[simp] theorem State.stage_ns (k : RegKey) (v m : Word) : (s.stage k v m).ns = s.ns := rfl
@[simp] theorem State.stage_memo (k : RegKey) (v m : Word) (mm : Nat) : (s.stage k v m).memo mm = s.memo mm := rfl
@[simp] theorem State.stage_stands (k : RegKey) (v m : Word) (a b c d : Nat) : (s.stage k v m).stands a b c d = s.stands a b c d := rfl
@[simp] theorem State.stage_car (k : RegKey) (v m : Word) : (s.stage k v m).car y = s.car y := by cases y <;> rfl
@[simp] theorem State.stage_rd (k : RegKey) (v m : Word) : (s.stage k v m).rd = s.rd := rfl

/-! ### Tables -/

@[simp] theorem aget_aset {κ α : Type} [DecidableEq κ] (t : Tab κ α) (k : κ) (v : α) : aget (aset t k v) k = some v := by
  simp [aset, aget]

theorem aget_adel {κ α : Type} [DecidableEq κ] (t : Tab κ α) (k j : κ) :
    aget (adel t k) j = if j = k then none else aget t j := by
  induction t with
  | nil => simp [adel, aget]
  | cons e r ih =>
    obtain ⟨k', v⟩ := e
    by_cases h : k' = k
    · subst h
      by_cases h2 : j = k'
      · simp [adel, h2] at ih ⊢
        exact ih
      · simp [adel, aget, ih, h2, Ne.symm h2]
    · by_cases h2 : k' = j
      · subst h2
        simp [adel, aget, h]
      · simp [adel, aget, h, h2, ih]

theorem aget_aset_ne {κ α : Type} [DecidableEq κ] (t : Tab κ α) (k j : κ) (v : α) (h : j ≠ k) :
    aget (aset t k v) j = aget t j := by
  simp [aset, aget, aget_adel, h, Ne.symm h]

@[simp] theorem agetD_aset {κ α : Type} [DecidableEq κ] (t : Tab κ α) (k : κ) (v d : α) :
    agetD (aset t k v) k d = v := by
  simp [agetD]

theorem agetD_aset_ne {κ α : Type} [DecidableEq κ] (t : Tab κ α) (k j : κ) (v d : α) (h : j ≠ k) :
    agetD (aset t k v) j d = agetD t j d := by
  simp [agetD, aget_aset_ne t k j v h]

@[simp] theorem agetD_nil {κ α : Type} [DecidableEq κ] (k : κ) (d : α) : agetD ([] : Tab κ α) k d = d := rfl

/-- What a command answers: its effect, or nothing in power-on reset. -/
theorem live_eq (f : State → State) : live s f = .next (if s.sys.held then s else f s) := rfl

theorem live_running (f : State → State) (h : s.sys.held = false) : live s f = .next (f s) := by simp [live, h]

/-! ### Records -/

@[simp] theorem State.modMem_memo (m : Nat) (f : MemSt → MemSt) : (s.modMem m f).memo m = f (s.memo m) := by
  simp [State.modMem, State.memo]

theorem State.modMem_memo_ne (m n : Nat) (f : MemSt → MemSt) (h : n ≠ m) : (s.modMem m f).memo n = s.memo n := by
  simp [State.modMem, State.memo, agetD_aset_ne _ _ _ _ _ h]

@[simp] theorem State.modMem_windows (m : Nat) (f : MemSt → MemSt) : (s.modMem m f).mem.windows = s.mem.windows := rfl

@[simp] theorem State.setWord_rd_self (k : RegKey) (w : Word) : (s.setWord k w).rd k = w := by
  simp [State.setWord, State.rd]

theorem State.setWord_rd_ne (k j : RegKey) (w : Word) (h : j ≠ k) : (s.setWord k w).rd j = s.rd j := by
  simp [State.setWord, State.rd, agetD_aset_ne _ _ _ _ _ h]

end Sys2Proof.Machine
end

