-- ==== Sys2Proof/Laws/Bits.lean ====
section
/-! SUPPORT. Fields of register words: a field reads what was set, and setting it leaves every other field as it is. -/

namespace Sys2Proof.Machine

/-- A bit of a field. -/
theorem bits_testBit (w : Word) (hi lo i : Nat) :
    (bits w hi lo).testBit i = (decide (i < hi + 1 - lo) && w.getLsbD (lo + i)) := by
  simp [bits, Nat.testBit_mod_two_pow, Nat.testBit_div_two_pow, BitVec.getLsbD, Nat.add_comm]

theorem maskOf_getLsbD (hi lo j : Nat) (h1 : hi < 32) :
    (maskOf hi lo).getLsbD j = (decide (lo ≤ j) && decide (j ≤ hi)) := by
  simp only [maskOf, BitVec.getLsbD_ofNat, Nat.testBit_mul_two_pow, Nat.testBit_two_pow_sub_one]
  by_cases a : lo ≤ j
  · by_cases b : j ≤ hi
    · have : j < 32 := by omega
      have : j - lo < hi + 1 - lo := by omega
      simp [*]
    · have : ¬ (j - lo < hi + 1 - lo) := by omega
      simp [b, this]
  · simp [a]

theorem merge_getLsbD (o n m : Word) (j : Nat) :
    (merge o n m).getLsbD j = if m.getLsbD j then n.getLsbD j else o.getLsbD j := by
  by_cases h : j < 32
  · simp only [merge, BitVec.getLsbD_or, BitVec.getLsbD_and, BitVec.getLsbD_not, h, decide_true, Bool.true_and]
    cases m.getLsbD j <;> simp
  · simp [BitVec.getLsbD_of_ge _ _ (Nat.le_of_not_lt h)]

theorem setBits_getLsbD (w : Word) (hi lo v j : Nat) (h1 : hi < 32) :
    (setBits w hi lo v).getLsbD j = if lo ≤ j ∧ j ≤ hi then v.testBit (j - lo) else w.getLsbD j := by
  rw [setBits, merge_getLsbD, maskOf_getLsbD _ _ _ h1]
  by_cases a : lo ≤ j
  · by_cases b : j ≤ hi
    · have : j < 32 := by omega
      rw [if_pos (by simp [a, b]), if_pos ⟨a, b⟩, BitVec.getLsbD_ofNat, Nat.testBit_mul_two_pow]
      simp [a, this]
    · simp [b]
  · simp [a]

/-- A field reads what it was set to. -/
theorem bits_setBits (w : Word) (hi lo v : Nat) (h1 : hi < 32) :
    bits (setBits w hi lo v) hi lo = v % 2 ^ (hi + 1 - lo) := by
  refine Nat.eq_of_testBit_eq fun i => ?_
  rw [bits_testBit, setBits_getLsbD _ _ _ _ _ h1, Nat.testBit_mod_two_pow]
  by_cases a : i < hi + 1 - lo
  · have : lo ≤ lo + i ∧ lo + i ≤ hi := by omega
    simp [a, this]
  · simp [a]

/-- Setting a field leaves a field beside it as it is. -/
theorem bits_setBits_ne (w : Word) (hi lo v hi' lo' : Nat) (h1 : hi < 32) (h : hi' < lo ∨ hi < lo') :
    bits (setBits w hi lo v) hi' lo' = bits w hi' lo' := by
  refine Nat.eq_of_testBit_eq fun i => ?_
  rw [bits_testBit, bits_testBit, setBits_getLsbD _ _ _ _ _ h1]
  by_cases a : i < hi' + 1 - lo'
  · have : ¬ (lo ≤ lo' + i ∧ lo' + i ≤ hi) := by omega
    simp [this]
  · simp [a]

variable (s : State)

/-- A register field reads the value set. -/
theorem State.setField_cf_self (f : Fref) (i v : Nat) (h1 : f.hi < 32) :
    (s.setField f i v).cf f i = v % 2 ^ (f.hi + 1 - f.lo) := by
  simp [State.cf, Fref.at, State.setField, bits_setBits _ _ _ _ h1]

/-- Another field of the same register is as it was. -/
theorem State.setField_cf_beside (f g : Fref) (i v : Nat) (h1 : f.hi < 32) (e : g.reg = f.reg)
    (h : g.hi < f.lo ∨ f.hi < g.lo) : (s.setField f i v).cf g i = s.cf g i := by
  simp [State.cf, Fref.at, State.setField, e, bits_setBits_ne _ _ _ _ _ _ h1 h]

/-- A field of another register is as it was. -/
theorem State.setField_cf_ne (f g : Fref) (i j v : Nat) (h : (⟨g.reg, j⟩ : RegKey) ≠ ⟨f.reg, i⟩) :
    (s.setField f i v).cf g j = s.cf g j := by
  simp [State.cf, Fref.at, State.setField, State.setWord_rd_ne s _ _ _ h]

/-- The same for a carrier's field. -/
theorem State.setFieldx_cfx_self (f : Fref) (x : Carrier) (i v : Nat) (h1 : f.hi < 32) :
    (s.setFieldx f x i v).cfx f x i = v % 2 ^ (f.hi + 1 - f.lo) :=
  State.setField_cf_self s f _ v h1

theorem State.cf_lt (f : Fref) (i : Nat) : s.cf f i < 2 ^ (f.hi + 1 - f.lo) := Nat.mod_lt _ (Nat.two_pow_pos _)

end Sys2Proof.Machine
end

