-- ==== Sys2Proof/Laws/Code.lean ====
section
/-! SUPPORT. The block of zeros satisfies every parity check of the line code (R156), so it passes the test at each rate; a
block with ones in alternate columns fails it at each. -/

namespace Sys2Proof.Machine

@[simp] theorem fecCol_zero (c : Nat) : fecCol 0#40320 c = 0#32 := by simp [fecCol]

theorem rotateLeft_zero (n : Nat) : (0#32).rotateLeft n = 0#32 := by
  simp [BitVec.rotateLeft, BitVec.rotateLeftAux]

@[simp] theorem fecInfo_zero (kb mb tau j : Nat) : fecInfo 0#40320 kb mb tau j = 0#32 := by
  unfold fecInfo
  induction List.range kb with
  | nil => rfl
  | cons c l ih => simpa [rotateLeft_zero] using ih

theorem fecTerms_zero (r q p j : Nat) : fecTerms 0#40320 r [(0#40320, q), (0#40320, p)] j = 0#32 := by simp [fecTerms]

theorem sumN_zeros (l : List Nat) : sumN (l.map fun _ => 0) = 0 := by
  induction l with
  | nil => rfl
  | cons a l ih => simpa [sumN] using ih

/-- Every check of a block of zeros behind two such blocks holds. -/
theorem fecUnsat_zero (r q p : Nat) : fecUnsat 0#40320 r [(0#40320, q), (0#40320, p)] = 0 := by
  have h : ∀ j, popcount 32 (fecRow 0#40320 r [(0#40320, q), (0#40320, p)] j).toNat = 0 := by
    intro j
    simp [fecRow, fecTerms_zero]
    decide
  simp only [fecUnsat, h, sumN_zeros]

theorem fecPass_zero (r q p : Nat) : fecPass 0#40320 r [(0#40320, q), (0#40320, p)] = true := by
  simp only [fecPass, fecUnsat_zero, decide_eq_true_eq]
  omega

/-- Six blocks of zeros lock the aligner at every rate. -/
theorem lockRates_zero : lockRates (List.replicate 6 0) = List.range 8 := by
  unfold lockRates
  rw [if_neg (by decide)]
  refine List.filter_eq_self.2 fun r _ => List.all_eq_true.2 fun k hk => ?_
  have hk : k < 4 := List.mem_range.1 hk
  have h : ∀ i, (List.replicate 6 (0 : BitVec 40320)).getD i 0 = 0 := by
    intro i
    rw [List.getD_eq_getElem?_getD, List.getElem?_replicate]
    split <;> rfl
  rw [h, h, h]
  exact fecPass_zero r r r

/-- Ones in the odd columns from column 945 on. -/
def oddCols : BitVec 40320 := BitVec.ofNat 40320 ((2 ^ 10112 - 1) / (2 ^ 64 - 1) * (2 ^ 32 - 1) * 2 ^ (32 * 945))

theorem oddCols_ones : ∀ k, k < 315 → fecCol oddCols (945 + k) = if k % 2 = 0 then 0xFFFFFFFF#32 else 0#32 := by
  decide +kernel

theorem oddCols_low : ∀ c, c < 945 → fecCol oddCols c = 0#32 := by decide +kernel

theorem fecInfo_none (b : BitVec 40320) (kb mb j : Nat) (h : ∀ c, c < kb → c % mb = j → fecCol b c = 0#32) :
    fecInfo b kb mb 0 j = 0#32 := by
  have h : ∀ l : List Nat, (∀ c ∈ l, c < kb) → l.foldl (fun a c => if (c + 0 * (mb / 3)) % mb = j then
      a ^^^ (fecCol b c).rotateLeft ((c * (0 + 5) + 11 * 0) % 32) else a) (0#32) = 0#32 := by
    intro l
    induction l with
    | nil => intro _; rfl
    | cons c l ih =>
      intro hl
      have hc := h c (hl c (by simp))
      by_cases hm : c % mb = j
      · simpa [hm, hc hm, rotateLeft_zero] using ih fun d hd => hl d (by simp [hd])
      · simpa [hm] using ih fun d hd => hl d (by simp [hd])
  exact h _ fun c hc => List.mem_range.1 hc

theorem sumN_mono (l : List Nat) (f g : Nat → Nat) (h : ∀ a ∈ l, f a ≤ g a) : sumN (l.map f) ≤ sumN (l.map g) := by
  induction l with
  | nil => exact Nat.le_refl _
  | cons a l ih =>
    have h1 := h a (by simp)
    have h2 := ih fun b hb => h b (by simp [hb])
    simp only [sumN, List.map_cons, List.foldr_cons] at *
    omega
/-- Rows of a rate that no information bit of the odd columns reaches. -/
def bareRow (r j : Nat) : Bool := j != 0 && decide (946 ≤ rateKb r + j) && (decide (rateKb r ≤ 945) || j % 2 == 0)

theorem oddCols_row (r j : Nat) (hr : r < 8) (hj : j < rateMb r) (h : bareRow r j = true) :
    popcount 32 (fecRow oddCols r [] j).toNat = 32 := by
  have hk : rateKb r + rateMb r = 1260 := (by decide : ∀ r, r < 8 → rateKb r + rateMb r = 1260) r hr
  have hm : 945 < rateKb r → rateMb r % 2 = 0 := (by decide : ∀ r, r < 8 → 945 < rateKb r → rateMb r % 2 = 0) r hr
  simp only [bareRow, Bool.and_eq_true, Bool.or_eq_true, bne_iff_ne, decide_eq_true_eq, beq_iff_eq] at h
  obtain ⟨⟨h0, h1⟩, h2⟩ := h
  have hi : fecInfo oddCols (rateKb r) (rateMb r) 0 j = 0#32 := by
    refine fecInfo_none _ _ _ _ fun c hc hcj => ?_
    by_cases hl : c < 945
    · exact oddCols_low c hl
    · have hp : c % 2 = 0 := by
        have h3 := hm (by omega)
        have h4 := Nat.mod_mod_of_dvd c (Nat.dvd_of_mod_eq_zero h3)
        omega
      have h5 := oddCols_ones (c - 945) (by omega)
      rw [show 945 + (c - 945) = c by omega] at h5
      rw [h5, if_neg (by omega)]
  have ha := oddCols_ones (rateKb r + j - 945) (by omega)
  have hb := oddCols_ones (rateKb r + j - 1 - 945) (by omega)
  rw [show 945 + (rateKb r + j - 945) = rateKb r + j by omega] at ha
  rw [show 945 + (rateKb r + j - 1 - 945) = rateKb r + j - 1 by omega] at hb
  simp only [fecRow, fecTerms, hi, ha, hb, if_neg h0, List.getElem?_nil]
  by_cases hp : (rateKb r + j - 945) % 2 = 0
  · rw [if_pos hp, if_neg (by omega)]; decide
  · rw [if_neg hp, if_pos (by omega)]; decide

/-- That block fails the test at every rate. -/
theorem fecPass_oddCols (r : Nat) (hr : r < 8) : fecPass oddCols r [] = false := by
  have h := sumN_mono (List.range (rateMb r)) (fun j => if bareRow r j then 32 else 0)
    (fun j => popcount 32 (fecRow oddCols r [] j).toNat) fun j hj => by
      by_cases hb : bareRow r j = true
      · simp only [hb, if_true]; exact Nat.le_of_eq (oddCols_row r j hr (List.mem_range.1 hj) hb).symm
      · simp [hb]
  have hs : ∀ r, r < 8 →
      47 * (32 * rateMb r) < 100 * sumN ((List.range (rateMb r)).map fun j => if bareRow r j then 32 else 0) := by
    decide +kernel
  have := hs r hr
  have := (by decide : ∀ r, r < 8 → 0 < rateMb r) r hr
  refine decide_eq_false fun h => ?_
  simp only [fecUnsat] at h
  omega

/-- Ones in the even columns from column 1,190 on. -/
def lateCols : BitVec 40320 := BitVec.ofNat 40320 ((2 ^ 2240 - 1) / (2 ^ 64 - 1) * (2 ^ 32 - 1) * 2 ^ (32 * 1190))

theorem lateCols_cols : ∀ c, c < 1260 →
    fecCol lateCols c = if 1190 ≤ c ∧ c % 2 = 0 then 0xFFFFFFFF#32 else 0#32 := by decide +kernel

theorem lateCols_row (r j : Nat) (hr : r < 8) (hj : j < rateMb r) :
    popcount 32 (fecRow lateCols r [] j).toNat = if 1190 ≤ rateKb r + j then 32 else 0 := by
  have hk : rateKb r + rateMb r = 1260 ∧ rateKb r ≤ 1120 :=
    (by decide : ∀ r, r < 8 → rateKb r + rateMb r = 1260 ∧ rateKb r ≤ 1120) r hr
  have hi : fecInfo lateCols (rateKb r) (rateMb r) 0 j = 0#32 := fecInfo_none _ _ _ _ fun c hc _ => by
    rw [lateCols_cols c (by omega), if_neg (by omega)]
  have ha := lateCols_cols (rateKb r + j) (by omega)
  have hb := lateCols_cols (rateKb r + j - 1) (by omega)
  simp only [fecRow, fecTerms, hi, ha, hb, List.getElem?_nil]
  by_cases hl : 1190 ≤ rateKb r + j
  · rw [if_neg (by omega : ¬ j = 0), if_pos hl]
    by_cases hp : (rateKb r + j) % 2 = 0
    · rw [if_pos ⟨hl, hp⟩, if_neg (by omega)]; decide
    · rw [if_neg (by omega), if_pos (by omega)]; decide
  · rw [if_neg hl, if_neg (by omega), if_neg (by omega : ¬ (1190 ≤ rateKb r + j - 1 ∧ _))]
    split <;> decide

/-- That block fails the test at rate code 7 alone. -/
theorem fecPass_lateCols (r : Nat) (hr : r < 8) : fecPass lateCols r [] = decide (r ≠ 7) := by
  have h : fecUnsat lateCols r [] = sumN ((List.range (rateMb r)).map fun j => if 1190 ≤ rateKb r + j then 32 else 0) := by
    unfold fecUnsat
    exact congrArg sumN (List.map_congr_left fun j hj => lateCols_row r j hr (List.mem_range.1 hj))
  have hs : ∀ r, r < 8 → (53 * (32 * rateMb r) ≤ 100 * (32 * rateMb r -
      sumN ((List.range (rateMb r)).map fun j => if 1190 ≤ rateKb r + j then 32 else 0)) ↔ r ≠ 7) := by decide +kernel
  simp only [fecPass, h, hs r hr]

end Sys2Proof.Machine
end

