-- ==== Sys2Proof/Laws/Events.lean ====
section
/-! SUPPORT. What posting a record leaves as it is (R482 to R488, R512), and what raising and clearing a defect does. -/

namespace Sys2Proof.Machine

/-- The fields of `Io` that no record touches. -/
def Io.still (io : Io) : Bool × Bool × Tab (Fn × Nat) CmdRing × Nat × Tab RegKey Nat × Tab RegKey Nat ×
    Tab (Agent × RegKey) Nat × Tab Nat Snap × List Defect × Tab Nat (Nat × Nat) × Nat × Arb :=
  (io.link, io.perst, io.rings, io.msgTail, io.rem, io.wbuf, io.latch, io.snaps, io.defects, io.bw, io.bwSeq, io.arb)

/-- A fold keeps what each of its steps keeps. -/
theorem foldl_keeps {α β γ : Type} (g : β → γ) (f : β → α → β) (h : ∀ b a, g (f b a) = g b) (l : List α) (b : β) :
    g (l.foldl f b) = g b := by
  induction l generalizing b with
  | nil => rfl
  | cons a t ih => simp [List.foldl_cons, ih, h]

@[simp] theorem Io.bump_still (io : Io) (k : RegKey) (n : Nat) : (io.bump k n).still = io.still := rfl

@[simp] theorem Io.bump64_still (io : Io) (k : RegKey) (n : Nat) : (io.bump64 k n).still = io.still := rfl

@[simp] theorem Io.prfEdge_still (io : Io) (r : Rd) (a b c d n : Nat) :
    (io.prfEdge r a b c d n).still = io.still := by
  unfold Io.prfEdge
  split
  · rfl
  · exact foldl_keeps _ _ (fun b a => by split <;> simp) _ _

@[simp] theorem Io.evtMark_still (io : Io) (e : Ev) : (io.evtMark e).still = io.still := by
  unfold Io.evtMark
  split
  · rfl
  · split <;> rfl

@[simp] theorem Io.msix_still (io : Io) (r : Rd) (fn : Fn) (v : Nat) : (io.msix r fn v).still = io.still := by
  unfold Io.msix
  split
  · rfl
  · rw [Io.prfEdge_still]; rfl

@[simp] theorem Io.postTo_still (io : Io) (r : Rd) (e : Nat) (v : Ev) : (io.postTo r e v).still = io.still := by
  unfold Io.postTo
  dsimp only
  split
  · rw [Io.msix_still, Io.prfEdge_still]; rfl
  · rw [Io.prfEdge_still]; rfl

@[simp] theorem Io.offer_still (io : Io) (r : Rd) (cap : Nat) (t : Option Nat) (v : Ev) :
    (io.offer r cap t v).1.still = io.still := by
  unfold Io.offer
  dsimp only
  split
  · simp
  · split
    · rfl
    · rw [Io.bump_still]; rfl

@[simp] theorem Io.record_still (io : Io) (r : Rd) (cap : Nat) (v : Ev) : (io.record r cap v).still = io.still := by
  unfold Io.record
  dsimp only
  rw [foldl_keeps Io.still _ (fun b a => by simp)]
  split <;> split <;> simp

@[simp] theorem Io.drainRing_still (io : Io) (r : Rd) (now e : Nat) : (io.drainRing r now e).still = io.still := by
  have h : ∀ (l : List HeldEv) (a : Io × List HeldEv),
      (l.foldl (fun (a : Io × List HeldEv) (h : HeldEv) =>
        if h.ring r == e && a.1.canPost r e && !(a.2.any (fun g => g.ring r == e)) then (a.1.postTo r e h.ev, a.2)
        else (a.1, a.2 ++ [h])) a).1.still = a.1.still := by
    intro l a
    exact foldl_keeps (fun a : Io × List HeldEv => a.1.still) _ (fun b a => by split <;> simp) _ _
  unfold Io.drainRing
  dsimp only
  split
  · have : ∀ (i : Io) (t : Tab Nat EvRing), ({ i with evr := t } : Io).still = i.still := fun _ _ => rfl
    rw [this]
    simp only [Io.evtMark_still, Io.postTo_still]
    exact h _ _
  · exact h _ _

@[simp] theorem Io.drain_still (io : Io) (r : Rd) (now : Nat) : (io.drain r now).still = io.still := by
  unfold Io.drain
  split
  · rfl
  · exact foldl_keeps _ _ (fun b a => by simp) _ _

@[simp] theorem Io.prfEdge_link (io : Io) (r : Rd) (a b c d n : Nat) : (io.prfEdge r a b c d n).link = io.link :=
  congrArg (fun t => t.1) (Io.prfEdge_still io r a b c d n)
@[simp] theorem Io.prfEdge_perst (io : Io) (r : Rd) (a b c d n : Nat) : (io.prfEdge r a b c d n).perst = io.perst :=
  congrArg (fun t => t.2.1) (Io.prfEdge_still io r a b c d n)
@[simp] theorem Io.prfEdge_rings (io : Io) (r : Rd) (a b c d n : Nat) : (io.prfEdge r a b c d n).rings = io.rings :=
  congrArg (fun t => t.2.2.1) (Io.prfEdge_still io r a b c d n)
@[simp] theorem Io.prfEdge_msgTail (io : Io) (r : Rd) (a b c d n : Nat) : (io.prfEdge r a b c d n).msgTail = io.msgTail :=
  congrArg (fun t => t.2.2.2.1) (Io.prfEdge_still io r a b c d n)
@[simp] theorem Io.prfEdge_rem (io : Io) (r : Rd) (a b c d n : Nat) : (io.prfEdge r a b c d n).rem = io.rem :=
  congrArg (fun t => t.2.2.2.2.1) (Io.prfEdge_still io r a b c d n)
@[simp] theorem Io.prfEdge_wbuf (io : Io) (r : Rd) (a b c d n : Nat) : (io.prfEdge r a b c d n).wbuf = io.wbuf :=
  congrArg (fun t => t.2.2.2.2.2.1) (Io.prfEdge_still io r a b c d n)
@[simp] theorem Io.prfEdge_latch (io : Io) (r : Rd) (a b c d n : Nat) : (io.prfEdge r a b c d n).latch = io.latch :=
  congrArg (fun t => t.2.2.2.2.2.2.1) (Io.prfEdge_still io r a b c d n)
@[simp] theorem Io.prfEdge_snaps (io : Io) (r : Rd) (a b c d n : Nat) : (io.prfEdge r a b c d n).snaps = io.snaps :=
  congrArg (fun t => t.2.2.2.2.2.2.2.1) (Io.prfEdge_still io r a b c d n)
@[simp] theorem Io.prfEdge_defects (io : Io) (r : Rd) (a b c d n : Nat) : (io.prfEdge r a b c d n).defects = io.defects :=
  congrArg (fun t => t.2.2.2.2.2.2.2.2.1) (Io.prfEdge_still io r a b c d n)
@[simp] theorem Io.prfEdge_bw (io : Io) (r : Rd) (a b c d n : Nat) : (io.prfEdge r a b c d n).bw = io.bw :=
  congrArg (fun t => t.2.2.2.2.2.2.2.2.2.1) (Io.prfEdge_still io r a b c d n)
@[simp] theorem Io.prfEdge_bwSeq (io : Io) (r : Rd) (a b c d n : Nat) : (io.prfEdge r a b c d n).bwSeq = io.bwSeq :=
  congrArg (fun t => t.2.2.2.2.2.2.2.2.2.2.1) (Io.prfEdge_still io r a b c d n)
@[simp] theorem Io.prfEdge_arb (io : Io) (r : Rd) (a b c d n : Nat) : (io.prfEdge r a b c d n).arb = io.arb :=
  congrArg (fun t => t.2.2.2.2.2.2.2.2.2.2.2) (Io.prfEdge_still io r a b c d n)

@[simp] theorem Io.msix_link (io : Io) (r : Rd) (fn : Fn) (v : Nat) : (io.msix r fn v).link = io.link :=
  congrArg (fun t => t.1) (Io.msix_still io r fn v)
@[simp] theorem Io.msix_perst (io : Io) (r : Rd) (fn : Fn) (v : Nat) : (io.msix r fn v).perst = io.perst :=
  congrArg (fun t => t.2.1) (Io.msix_still io r fn v)
@[simp] theorem Io.msix_rings (io : Io) (r : Rd) (fn : Fn) (v : Nat) : (io.msix r fn v).rings = io.rings :=
  congrArg (fun t => t.2.2.1) (Io.msix_still io r fn v)
@[simp] theorem Io.msix_msgTail (io : Io) (r : Rd) (fn : Fn) (v : Nat) : (io.msix r fn v).msgTail = io.msgTail :=
  congrArg (fun t => t.2.2.2.1) (Io.msix_still io r fn v)
@[simp] theorem Io.msix_rem (io : Io) (r : Rd) (fn : Fn) (v : Nat) : (io.msix r fn v).rem = io.rem :=
  congrArg (fun t => t.2.2.2.2.1) (Io.msix_still io r fn v)
@[simp] theorem Io.msix_wbuf (io : Io) (r : Rd) (fn : Fn) (v : Nat) : (io.msix r fn v).wbuf = io.wbuf :=
  congrArg (fun t => t.2.2.2.2.2.1) (Io.msix_still io r fn v)
@[simp] theorem Io.msix_latch (io : Io) (r : Rd) (fn : Fn) (v : Nat) : (io.msix r fn v).latch = io.latch :=
  congrArg (fun t => t.2.2.2.2.2.2.1) (Io.msix_still io r fn v)
@[simp] theorem Io.msix_snaps (io : Io) (r : Rd) (fn : Fn) (v : Nat) : (io.msix r fn v).snaps = io.snaps :=
  congrArg (fun t => t.2.2.2.2.2.2.2.1) (Io.msix_still io r fn v)
@[simp] theorem Io.msix_defects (io : Io) (r : Rd) (fn : Fn) (v : Nat) : (io.msix r fn v).defects = io.defects :=
  congrArg (fun t => t.2.2.2.2.2.2.2.2.1) (Io.msix_still io r fn v)
@[simp] theorem Io.msix_bw (io : Io) (r : Rd) (fn : Fn) (v : Nat) : (io.msix r fn v).bw = io.bw :=
  congrArg (fun t => t.2.2.2.2.2.2.2.2.2.1) (Io.msix_still io r fn v)
@[simp] theorem Io.msix_bwSeq (io : Io) (r : Rd) (fn : Fn) (v : Nat) : (io.msix r fn v).bwSeq = io.bwSeq :=
  congrArg (fun t => t.2.2.2.2.2.2.2.2.2.2.1) (Io.msix_still io r fn v)
@[simp] theorem Io.msix_arb (io : Io) (r : Rd) (fn : Fn) (v : Nat) : (io.msix r fn v).arb = io.arb :=
  congrArg (fun t => t.2.2.2.2.2.2.2.2.2.2.2) (Io.msix_still io r fn v)

@[simp] theorem Io.record_link (io : Io) (r : Rd) (cap : Nat) (v : Ev) : (io.record r cap v).link = io.link :=
  congrArg (fun t => t.1) (Io.record_still io r cap v)
@[simp] theorem Io.record_perst (io : Io) (r : Rd) (cap : Nat) (v : Ev) : (io.record r cap v).perst = io.perst :=
  congrArg (fun t => t.2.1) (Io.record_still io r cap v)
@[simp] theorem Io.record_rings (io : Io) (r : Rd) (cap : Nat) (v : Ev) : (io.record r cap v).rings = io.rings :=
  congrArg (fun t => t.2.2.1) (Io.record_still io r cap v)
@[simp] theorem Io.record_msgTail (io : Io) (r : Rd) (cap : Nat) (v : Ev) : (io.record r cap v).msgTail = io.msgTail :=
  congrArg (fun t => t.2.2.2.1) (Io.record_still io r cap v)
@[simp] theorem Io.record_rem (io : Io) (r : Rd) (cap : Nat) (v : Ev) : (io.record r cap v).rem = io.rem :=
  congrArg (fun t => t.2.2.2.2.1) (Io.record_still io r cap v)
@[simp] theorem Io.record_wbuf (io : Io) (r : Rd) (cap : Nat) (v : Ev) : (io.record r cap v).wbuf = io.wbuf :=
  congrArg (fun t => t.2.2.2.2.2.1) (Io.record_still io r cap v)
@[simp] theorem Io.record_latch (io : Io) (r : Rd) (cap : Nat) (v : Ev) : (io.record r cap v).latch = io.latch :=
  congrArg (fun t => t.2.2.2.2.2.2.1) (Io.record_still io r cap v)
@[simp] theorem Io.record_snaps (io : Io) (r : Rd) (cap : Nat) (v : Ev) : (io.record r cap v).snaps = io.snaps :=
  congrArg (fun t => t.2.2.2.2.2.2.2.1) (Io.record_still io r cap v)
@[simp] theorem Io.record_defects (io : Io) (r : Rd) (cap : Nat) (v : Ev) : (io.record r cap v).defects = io.defects :=
  congrArg (fun t => t.2.2.2.2.2.2.2.2.1) (Io.record_still io r cap v)
@[simp] theorem Io.record_bw (io : Io) (r : Rd) (cap : Nat) (v : Ev) : (io.record r cap v).bw = io.bw :=
  congrArg (fun t => t.2.2.2.2.2.2.2.2.2.1) (Io.record_still io r cap v)
@[simp] theorem Io.record_bwSeq (io : Io) (r : Rd) (cap : Nat) (v : Ev) : (io.record r cap v).bwSeq = io.bwSeq :=
  congrArg (fun t => t.2.2.2.2.2.2.2.2.2.2.1) (Io.record_still io r cap v)
@[simp] theorem Io.record_arb (io : Io) (r : Rd) (cap : Nat) (v : Ev) : (io.record r cap v).arb = io.arb :=
  congrArg (fun t => t.2.2.2.2.2.2.2.2.2.2.2) (Io.record_still io r cap v)

@[simp] theorem Io.drain_link (io : Io) (r : Rd) (now : Nat) : (io.drain r now).link = io.link :=
  congrArg (fun t => t.1) (Io.drain_still io r now)
@[simp] theorem Io.drain_perst (io : Io) (r : Rd) (now : Nat) : (io.drain r now).perst = io.perst :=
  congrArg (fun t => t.2.1) (Io.drain_still io r now)
@[simp] theorem Io.drain_rings (io : Io) (r : Rd) (now : Nat) : (io.drain r now).rings = io.rings :=
  congrArg (fun t => t.2.2.1) (Io.drain_still io r now)
@[simp] theorem Io.drain_msgTail (io : Io) (r : Rd) (now : Nat) : (io.drain r now).msgTail = io.msgTail :=
  congrArg (fun t => t.2.2.2.1) (Io.drain_still io r now)
@[simp] theorem Io.drain_rem (io : Io) (r : Rd) (now : Nat) : (io.drain r now).rem = io.rem :=
  congrArg (fun t => t.2.2.2.2.1) (Io.drain_still io r now)
@[simp] theorem Io.drain_wbuf (io : Io) (r : Rd) (now : Nat) : (io.drain r now).wbuf = io.wbuf :=
  congrArg (fun t => t.2.2.2.2.2.1) (Io.drain_still io r now)
@[simp] theorem Io.drain_latch (io : Io) (r : Rd) (now : Nat) : (io.drain r now).latch = io.latch :=
  congrArg (fun t => t.2.2.2.2.2.2.1) (Io.drain_still io r now)
@[simp] theorem Io.drain_snaps (io : Io) (r : Rd) (now : Nat) : (io.drain r now).snaps = io.snaps :=
  congrArg (fun t => t.2.2.2.2.2.2.2.1) (Io.drain_still io r now)
@[simp] theorem Io.drain_defects (io : Io) (r : Rd) (now : Nat) : (io.drain r now).defects = io.defects :=
  congrArg (fun t => t.2.2.2.2.2.2.2.2.1) (Io.drain_still io r now)
@[simp] theorem Io.drain_bw (io : Io) (r : Rd) (now : Nat) : (io.drain r now).bw = io.bw :=
  congrArg (fun t => t.2.2.2.2.2.2.2.2.2.1) (Io.drain_still io r now)
@[simp] theorem Io.drain_bwSeq (io : Io) (r : Rd) (now : Nat) : (io.drain r now).bwSeq = io.bwSeq :=
  congrArg (fun t => t.2.2.2.2.2.2.2.2.2.2.1) (Io.drain_still io r now)
@[simp] theorem Io.drain_arb (io : Io) (r : Rd) (now : Nat) : (io.drain r now).arb = io.arb :=
  congrArg (fun t => t.2.2.2.2.2.2.2.2.2.2.2) (Io.drain_still io r now)

/-! ### State operations -/

variable (s : State) (x : Carrier)

@[simp] theorem State.post_io_link (a b c d : Nat) (l : Bytes) : (s.post a b c d l).io.link = s.io.link := by simp [State.post]
@[simp] theorem State.occ_io_link (a b c : Nat) (l : Bytes) : (s.occ a b c l).io.link = s.io.link := by
  simp [State.occ, State.post]
@[simp] theorem State.raise_io_link (a b c d : Nat) (l : Bytes) : (s.raise a b c l d).io.link = s.io.link := by
  unfold State.raise; split <;> simp
@[simp] theorem State.clear_io_link (a b c d : Nat) (l : Bytes) : (s.clear a b c l d).io.link = s.io.link := by
  unfold State.clear; split <;> simp [State.forget]
@[simp] theorem State.defect_io_link (b0 : Bool) (a b c d : Nat) (l : Bytes) : (s.defect b0 a b c l d).io.link = s.io.link := by
  unfold State.defect; split <;> simp
@[simp] theorem State.bump_io_link (r : RegId) (i n : Nat) : (s.bump r i n).io.link = s.io.link := rfl
@[simp] theorem State.bump64_io_link (r : RegId) (i n : Nat) : (s.bump64 r i n).io.link = s.io.link := rfl
@[simp] theorem State.bumpx_io_link (r : RegId) (n i : Nat) : (s.bumpx r x n i).io.link = s.io.link := rfl
@[simp] theorem State.bumpx64_io_link (r : RegId) (n i : Nat) : (s.bumpx64 r x n i).io.link = s.io.link := rfl
@[simp] theorem State.post_io_perst (a b c d : Nat) (l : Bytes) : (s.post a b c d l).io.perst = s.io.perst := by simp [State.post]
@[simp] theorem State.occ_io_perst (a b c : Nat) (l : Bytes) : (s.occ a b c l).io.perst = s.io.perst := by
  simp [State.occ, State.post]
@[simp] theorem State.raise_io_perst (a b c d : Nat) (l : Bytes) : (s.raise a b c l d).io.perst = s.io.perst := by
  unfold State.raise; split <;> simp
@[simp] theorem State.clear_io_perst (a b c d : Nat) (l : Bytes) : (s.clear a b c l d).io.perst = s.io.perst := by
  unfold State.clear; split <;> simp [State.forget]
@[simp] theorem State.defect_io_perst (b0 : Bool) (a b c d : Nat) (l : Bytes) : (s.defect b0 a b c l d).io.perst = s.io.perst := by
  unfold State.defect; split <;> simp
@[simp] theorem State.bump_io_perst (r : RegId) (i n : Nat) : (s.bump r i n).io.perst = s.io.perst := rfl
@[simp] theorem State.bump64_io_perst (r : RegId) (i n : Nat) : (s.bump64 r i n).io.perst = s.io.perst := rfl
@[simp] theorem State.bumpx_io_perst (r : RegId) (n i : Nat) : (s.bumpx r x n i).io.perst = s.io.perst := rfl
@[simp] theorem State.bumpx64_io_perst (r : RegId) (n i : Nat) : (s.bumpx64 r x n i).io.perst = s.io.perst := rfl
@[simp] theorem State.post_io_rings (a b c d : Nat) (l : Bytes) : (s.post a b c d l).io.rings = s.io.rings := by simp [State.post]
@[simp] theorem State.occ_io_rings (a b c : Nat) (l : Bytes) : (s.occ a b c l).io.rings = s.io.rings := by
  simp [State.occ, State.post]
@[simp] theorem State.raise_io_rings (a b c d : Nat) (l : Bytes) : (s.raise a b c l d).io.rings = s.io.rings := by
  unfold State.raise; split <;> simp
@[simp] theorem State.clear_io_rings (a b c d : Nat) (l : Bytes) : (s.clear a b c l d).io.rings = s.io.rings := by
  unfold State.clear; split <;> simp [State.forget]
@[simp] theorem State.defect_io_rings (b0 : Bool) (a b c d : Nat) (l : Bytes) : (s.defect b0 a b c l d).io.rings = s.io.rings := by
  unfold State.defect; split <;> simp
@[simp] theorem State.bump_io_rings (r : RegId) (i n : Nat) : (s.bump r i n).io.rings = s.io.rings := rfl
@[simp] theorem State.bump64_io_rings (r : RegId) (i n : Nat) : (s.bump64 r i n).io.rings = s.io.rings := rfl
@[simp] theorem State.bumpx_io_rings (r : RegId) (n i : Nat) : (s.bumpx r x n i).io.rings = s.io.rings := rfl
@[simp] theorem State.bumpx64_io_rings (r : RegId) (n i : Nat) : (s.bumpx64 r x n i).io.rings = s.io.rings := rfl
@[simp] theorem State.post_io_msgTail (a b c d : Nat) (l : Bytes) : (s.post a b c d l).io.msgTail = s.io.msgTail := by simp [State.post]
@[simp] theorem State.occ_io_msgTail (a b c : Nat) (l : Bytes) : (s.occ a b c l).io.msgTail = s.io.msgTail := by
  simp [State.occ, State.post]
@[simp] theorem State.raise_io_msgTail (a b c d : Nat) (l : Bytes) : (s.raise a b c l d).io.msgTail = s.io.msgTail := by
  unfold State.raise; split <;> simp
@[simp] theorem State.clear_io_msgTail (a b c d : Nat) (l : Bytes) : (s.clear a b c l d).io.msgTail = s.io.msgTail := by
  unfold State.clear; split <;> simp [State.forget]
@[simp] theorem State.defect_io_msgTail (b0 : Bool) (a b c d : Nat) (l : Bytes) : (s.defect b0 a b c l d).io.msgTail = s.io.msgTail := by
  unfold State.defect; split <;> simp
@[simp] theorem State.bump_io_msgTail (r : RegId) (i n : Nat) : (s.bump r i n).io.msgTail = s.io.msgTail := rfl
@[simp] theorem State.bump64_io_msgTail (r : RegId) (i n : Nat) : (s.bump64 r i n).io.msgTail = s.io.msgTail := rfl
@[simp] theorem State.bumpx_io_msgTail (r : RegId) (n i : Nat) : (s.bumpx r x n i).io.msgTail = s.io.msgTail := rfl
@[simp] theorem State.bumpx64_io_msgTail (r : RegId) (n i : Nat) : (s.bumpx64 r x n i).io.msgTail = s.io.msgTail := rfl
@[simp] theorem State.post_io_rem (a b c d : Nat) (l : Bytes) : (s.post a b c d l).io.rem = s.io.rem := by simp [State.post]
@[simp] theorem State.occ_io_rem (a b c : Nat) (l : Bytes) : (s.occ a b c l).io.rem = s.io.rem := by
  simp [State.occ, State.post]
@[simp] theorem State.raise_io_rem (a b c d : Nat) (l : Bytes) : (s.raise a b c l d).io.rem = s.io.rem := by
  unfold State.raise; split <;> simp
@[simp] theorem State.clear_io_rem (a b c d : Nat) (l : Bytes) : (s.clear a b c l d).io.rem = s.io.rem := by
  unfold State.clear; split <;> simp [State.forget]
@[simp] theorem State.defect_io_rem (b0 : Bool) (a b c d : Nat) (l : Bytes) : (s.defect b0 a b c l d).io.rem = s.io.rem := by
  unfold State.defect; split <;> simp
@[simp] theorem State.bump_io_rem (r : RegId) (i n : Nat) : (s.bump r i n).io.rem = s.io.rem := rfl
@[simp] theorem State.bump64_io_rem (r : RegId) (i n : Nat) : (s.bump64 r i n).io.rem = s.io.rem := rfl
@[simp] theorem State.bumpx_io_rem (r : RegId) (n i : Nat) : (s.bumpx r x n i).io.rem = s.io.rem := rfl
@[simp] theorem State.bumpx64_io_rem (r : RegId) (n i : Nat) : (s.bumpx64 r x n i).io.rem = s.io.rem := rfl
@[simp] theorem State.post_io_wbuf (a b c d : Nat) (l : Bytes) : (s.post a b c d l).io.wbuf = s.io.wbuf := by simp [State.post]
@[simp] theorem State.occ_io_wbuf (a b c : Nat) (l : Bytes) : (s.occ a b c l).io.wbuf = s.io.wbuf := by
  simp [State.occ, State.post]
@[simp] theorem State.raise_io_wbuf (a b c d : Nat) (l : Bytes) : (s.raise a b c l d).io.wbuf = s.io.wbuf := by
  unfold State.raise; split <;> simp
@[simp] theorem State.clear_io_wbuf (a b c d : Nat) (l : Bytes) : (s.clear a b c l d).io.wbuf = s.io.wbuf := by
  unfold State.clear; split <;> simp [State.forget]
@[simp] theorem State.defect_io_wbuf (b0 : Bool) (a b c d : Nat) (l : Bytes) : (s.defect b0 a b c l d).io.wbuf = s.io.wbuf := by
  unfold State.defect; split <;> simp
@[simp] theorem State.bump_io_wbuf (r : RegId) (i n : Nat) : (s.bump r i n).io.wbuf = s.io.wbuf := rfl
@[simp] theorem State.bump64_io_wbuf (r : RegId) (i n : Nat) : (s.bump64 r i n).io.wbuf = s.io.wbuf := rfl
@[simp] theorem State.bumpx_io_wbuf (r : RegId) (n i : Nat) : (s.bumpx r x n i).io.wbuf = s.io.wbuf := rfl
@[simp] theorem State.bumpx64_io_wbuf (r : RegId) (n i : Nat) : (s.bumpx64 r x n i).io.wbuf = s.io.wbuf := rfl
@[simp] theorem State.post_io_latch (a b c d : Nat) (l : Bytes) : (s.post a b c d l).io.latch = s.io.latch := by simp [State.post]
@[simp] theorem State.occ_io_latch (a b c : Nat) (l : Bytes) : (s.occ a b c l).io.latch = s.io.latch := by
  simp [State.occ, State.post]
@[simp] theorem State.raise_io_latch (a b c d : Nat) (l : Bytes) : (s.raise a b c l d).io.latch = s.io.latch := by
  unfold State.raise; split <;> simp
@[simp] theorem State.clear_io_latch (a b c d : Nat) (l : Bytes) : (s.clear a b c l d).io.latch = s.io.latch := by
  unfold State.clear; split <;> simp [State.forget]
@[simp] theorem State.defect_io_latch (b0 : Bool) (a b c d : Nat) (l : Bytes) : (s.defect b0 a b c l d).io.latch = s.io.latch := by
  unfold State.defect; split <;> simp
@[simp] theorem State.bump_io_latch (r : RegId) (i n : Nat) : (s.bump r i n).io.latch = s.io.latch := rfl
@[simp] theorem State.bump64_io_latch (r : RegId) (i n : Nat) : (s.bump64 r i n).io.latch = s.io.latch := rfl
@[simp] theorem State.bumpx_io_latch (r : RegId) (n i : Nat) : (s.bumpx r x n i).io.latch = s.io.latch := rfl
@[simp] theorem State.bumpx64_io_latch (r : RegId) (n i : Nat) : (s.bumpx64 r x n i).io.latch = s.io.latch := rfl
@[simp] theorem State.post_io_snaps (a b c d : Nat) (l : Bytes) : (s.post a b c d l).io.snaps = s.io.snaps := by simp [State.post]
@[simp] theorem State.occ_io_snaps (a b c : Nat) (l : Bytes) : (s.occ a b c l).io.snaps = s.io.snaps := by
  simp [State.occ, State.post]
@[simp] theorem State.raise_io_snaps (a b c d : Nat) (l : Bytes) : (s.raise a b c l d).io.snaps = s.io.snaps := by
  unfold State.raise; split <;> simp
@[simp] theorem State.clear_io_snaps (a b c d : Nat) (l : Bytes) : (s.clear a b c l d).io.snaps = s.io.snaps := by
  unfold State.clear; split <;> simp [State.forget]
@[simp] theorem State.defect_io_snaps (b0 : Bool) (a b c d : Nat) (l : Bytes) : (s.defect b0 a b c l d).io.snaps = s.io.snaps := by
  unfold State.defect; split <;> simp
@[simp] theorem State.bump_io_snaps (r : RegId) (i n : Nat) : (s.bump r i n).io.snaps = s.io.snaps := rfl
@[simp] theorem State.bump64_io_snaps (r : RegId) (i n : Nat) : (s.bump64 r i n).io.snaps = s.io.snaps := rfl
@[simp] theorem State.bumpx_io_snaps (r : RegId) (n i : Nat) : (s.bumpx r x n i).io.snaps = s.io.snaps := rfl
@[simp] theorem State.bumpx64_io_snaps (r : RegId) (n i : Nat) : (s.bumpx64 r x n i).io.snaps = s.io.snaps := rfl
@[simp] theorem State.post_io_bw (a b c d : Nat) (l : Bytes) : (s.post a b c d l).io.bw = s.io.bw := by simp [State.post]
@[simp] theorem State.occ_io_bw (a b c : Nat) (l : Bytes) : (s.occ a b c l).io.bw = s.io.bw := by
  simp [State.occ, State.post]
@[simp] theorem State.raise_io_bw (a b c d : Nat) (l : Bytes) : (s.raise a b c l d).io.bw = s.io.bw := by
  unfold State.raise; split <;> simp
@[simp] theorem State.clear_io_bw (a b c d : Nat) (l : Bytes) : (s.clear a b c l d).io.bw = s.io.bw := by
  unfold State.clear; split <;> simp [State.forget]
@[simp] theorem State.defect_io_bw (b0 : Bool) (a b c d : Nat) (l : Bytes) : (s.defect b0 a b c l d).io.bw = s.io.bw := by
  unfold State.defect; split <;> simp
@[simp] theorem State.bump_io_bw (r : RegId) (i n : Nat) : (s.bump r i n).io.bw = s.io.bw := rfl
@[simp] theorem State.bump64_io_bw (r : RegId) (i n : Nat) : (s.bump64 r i n).io.bw = s.io.bw := rfl
@[simp] theorem State.bumpx_io_bw (r : RegId) (n i : Nat) : (s.bumpx r x n i).io.bw = s.io.bw := rfl
@[simp] theorem State.bumpx64_io_bw (r : RegId) (n i : Nat) : (s.bumpx64 r x n i).io.bw = s.io.bw := rfl
@[simp] theorem State.post_io_bwSeq (a b c d : Nat) (l : Bytes) : (s.post a b c d l).io.bwSeq = s.io.bwSeq := by simp [State.post]
@[simp] theorem State.occ_io_bwSeq (a b c : Nat) (l : Bytes) : (s.occ a b c l).io.bwSeq = s.io.bwSeq := by
  simp [State.occ, State.post]
@[simp] theorem State.raise_io_bwSeq (a b c d : Nat) (l : Bytes) : (s.raise a b c l d).io.bwSeq = s.io.bwSeq := by
  unfold State.raise; split <;> simp
@[simp] theorem State.clear_io_bwSeq (a b c d : Nat) (l : Bytes) : (s.clear a b c l d).io.bwSeq = s.io.bwSeq := by
  unfold State.clear; split <;> simp [State.forget]
@[simp] theorem State.defect_io_bwSeq (b0 : Bool) (a b c d : Nat) (l : Bytes) : (s.defect b0 a b c l d).io.bwSeq = s.io.bwSeq := by
  unfold State.defect; split <;> simp
@[simp] theorem State.bump_io_bwSeq (r : RegId) (i n : Nat) : (s.bump r i n).io.bwSeq = s.io.bwSeq := rfl
@[simp] theorem State.bump64_io_bwSeq (r : RegId) (i n : Nat) : (s.bump64 r i n).io.bwSeq = s.io.bwSeq := rfl
@[simp] theorem State.bumpx_io_bwSeq (r : RegId) (n i : Nat) : (s.bumpx r x n i).io.bwSeq = s.io.bwSeq := rfl
@[simp] theorem State.bumpx64_io_bwSeq (r : RegId) (n i : Nat) : (s.bumpx64 r x n i).io.bwSeq = s.io.bwSeq := rfl
@[simp] theorem State.post_io_arb (a b c d : Nat) (l : Bytes) : (s.post a b c d l).io.arb = s.io.arb := by simp [State.post]
@[simp] theorem State.occ_io_arb (a b c : Nat) (l : Bytes) : (s.occ a b c l).io.arb = s.io.arb := by
  simp [State.occ, State.post]
@[simp] theorem State.raise_io_arb (a b c d : Nat) (l : Bytes) : (s.raise a b c l d).io.arb = s.io.arb := by
  unfold State.raise; split <;> simp
@[simp] theorem State.clear_io_arb (a b c d : Nat) (l : Bytes) : (s.clear a b c l d).io.arb = s.io.arb := by
  unfold State.clear; split <;> simp [State.forget]
@[simp] theorem State.defect_io_arb (b0 : Bool) (a b c d : Nat) (l : Bytes) : (s.defect b0 a b c l d).io.arb = s.io.arb := by
  unfold State.defect; split <;> simp
@[simp] theorem State.bump_io_arb (r : RegId) (i n : Nat) : (s.bump r i n).io.arb = s.io.arb := rfl
@[simp] theorem State.bump64_io_arb (r : RegId) (i n : Nat) : (s.bump64 r i n).io.arb = s.io.arb := rfl
@[simp] theorem State.bumpx_io_arb (r : RegId) (n i : Nat) : (s.bumpx r x n i).io.arb = s.io.arb := rfl
@[simp] theorem State.bumpx64_io_arb (r : RegId) (n i : Nat) : (s.bumpx64 r x n i).io.arb = s.io.arb := rfl

@[simp] theorem State.post_defects (a b c d : Nat) (l : Bytes) : (s.post a b c d l).io.defects = s.io.defects := by
  simp [State.post]

@[simp] theorem State.occ_defects (a b c : Nat) (l : Bytes) : (s.occ a b c l).io.defects = s.io.defects := by
  simp [State.occ]

@[simp] theorem State.post_stands (a b c d : Nat) (l : Bytes) (e f g h : Nat) :
    (s.post a b c d l).stands e f g h = s.stands e f g h := by simp [State.stands]

@[simp] theorem State.occ_stands (a b c : Nat) (l : Bytes) (e f g h : Nat) :
    (s.occ a b c l).stands e f g h = s.stands e f g h := by simp [State.stands]

@[simp] theorem State.bump_stands (r : RegId) (i n : Nat) (e f g h : Nat) :
    (s.bump r i n).stands e f g h = s.stands e f g h := rfl

@[simp] theorem State.bump64_stands (r : RegId) (i n : Nat) (e f g h : Nat) :
    (s.bump64 r i n).stands e f g h = s.stands e f g h := rfl

@[simp] theorem State.bumpx_stands (r : RegId) (n i : Nat) (e f g h : Nat) :
    (s.bumpx r x n i).stands e f g h = s.stands e f g h := rfl

@[simp] theorem State.emit_stands (o : Out) (e f g h : Nat) : (s.emit o).stands e f g h = s.stands e f g h := rfl

@[simp] theorem State.signal_stands (a b c n : Nat) (e f g h : Nat) :
    (s.signal a b c n).stands e f g h = s.stands e f g h := by simp [State.stands, State.signal]

/-- A raised defect stands. -/
@[simp] theorem State.raise_stands (a b c d : Nat) (l : Bytes) : (s.raise a b c l d).stands a b c d = true := by
  unfold State.raise
  split
  · assumption
  · simp [State.stands]

/-- Raising a defect leaves every other as it is. -/
theorem State.raise_stands_ne (a b c d : Nat) (l : Bytes) (e f g h : Nat) (n : ¬(e = a ∧ f = b ∧ g = c ∧ h = d)) :
    (s.raise a b c l d).stands e f g h = s.stands e f g h := by
  unfold State.raise
  split
  · rfl
  · have : Defect.mk e f g h ≠ Defect.mk a b c d := by simpa using n
    rw [Bool.eq_iff_iff]
    simp [State.stands, this]

@[simp] theorem State.forget_stands (a b c d : Nat) : (s.forget a b c d).stands a b c d = false := by
  simp [State.stands, State.forget]

theorem State.forget_stands_ne (a b c d : Nat) (e f g h : Nat) (n : ¬(e = a ∧ f = b ∧ g = c ∧ h = d)) :
    (s.forget a b c d).stands e f g h = s.stands e f g h := by
  have : Defect.mk e f g h ≠ Defect.mk a b c d := by simpa using n
  rw [Bool.eq_iff_iff]
  simp [State.stands, State.forget, this]

/-- A cleared defect does not stand. -/
@[simp] theorem State.clear_stands (a b c d : Nat) (l : Bytes) : (s.clear a b c l d).stands a b c d = false := by
  unfold State.clear
  split
  · simp
  · exact Bool.eq_false_iff.mpr (by assumption)

/-- Clearing a defect leaves every other as it is. -/
theorem State.clear_stands_ne (a b c d : Nat) (l : Bytes) (e f g h : Nat) (n : ¬(e = a ∧ f = b ∧ g = c ∧ h = d)) :
    (s.clear a b c l d).stands e f g h = s.stands e f g h := by
  unfold State.clear
  split
  · simp [State.forget_stands_ne s a b c d e f g h n]
  · rfl

/-- A defect's state after an evaluation is its condition. -/
@[simp] theorem State.defect_stands (b0 : Bool) (a b c d : Nat) (l : Bytes) :
    (s.defect b0 a b c l d).stands a b c d = b0 := by
  unfold State.defect
  cases b0 <;> simp

/-! ### Counters: a record advances only those of the performance monitor and of lost records -/

/-- Counters that records advance. -/
def ownCnt (k : RegKey) : Bool := k.reg == .PRF_CNT_LO || k.reg == .EVT_EVR_LOST

theorem Io.bump_cnt_ne (io : Io) (k j : RegKey) (n : Nat) (h : j ≠ k) :
    agetD (io.bump k n).cnt j 0 = agetD io.cnt j 0 := by
  simp [Io.bump, agetD_aset_ne _ _ _ _ _ h]

theorem Io.bump64_cnt_ne (io : Io) (k j : RegKey) (n : Nat) (h : j ≠ k) :
    agetD (io.bump64 k n).cnt j 0 = agetD io.cnt j 0 := by
  simp [Io.bump64, agetD_aset_ne _ _ _ _ _ h]

theorem Io.prfEdge_cnt (io : Io) (r : Rd) (a b c d n : Nat) (k : RegKey) (h : ownCnt k = false) :
    agetD (io.prfEdge r a b c d n).cnt k 0 = agetD io.cnt k 0 := by
  unfold Io.prfEdge
  split
  · rfl
  · refine foldl_keeps (fun i : Io => agetD i.cnt k 0) _ (fun i j => ?_) _ _
    split
    · refine Io.bump64_cnt_ne _ _ _ _ ?_
      intro e
      subst e
      simp [ownCnt] at h
    · rfl

theorem Io.evtMark_cnt (io : Io) (e : Ev) : (io.evtMark e).cnt = io.cnt := by
  unfold Io.evtMark
  split
  · rfl
  · split <;> rfl

theorem Io.msix_cnt (io : Io) (r : Rd) (fn : Fn) (v : Nat) (k : RegKey) (h : ownCnt k = false) :
    agetD (io.msix r fn v).cnt k 0 = agetD io.cnt k 0 := by
  unfold Io.msix
  split
  · rfl
  · rw [Io.prfEdge_cnt _ _ _ _ _ _ _ _ h]

theorem Io.postTo_cnt (io : Io) (r : Rd) (e : Nat) (v : Ev) (k : RegKey) (h : ownCnt k = false) :
    agetD (io.postTo r e v).cnt k 0 = agetD io.cnt k 0 := by
  unfold Io.postTo
  dsimp only
  split
  · rw [Io.msix_cnt _ _ _ _ _ h, Io.prfEdge_cnt _ _ _ _ _ _ _ _ h]
  · rw [Io.prfEdge_cnt _ _ _ _ _ _ _ _ h]

theorem Io.offer_cnt (io : Io) (r : Rd) (cap : Nat) (t : Option Nat) (v : Ev) (k : RegKey) (h : ownCnt k = false) :
    agetD (io.offer r cap t v).1.cnt k 0 = agetD io.cnt k 0 := by
  unfold Io.offer
  dsimp only
  split
  · exact Io.postTo_cnt _ _ _ _ _ h
  · split
    · rfl
    · rw [Io.bump_cnt_ne]
      intro e
      subst e
      simp [ownCnt] at h

/-- A record leaves the block's other counters as they are. -/
theorem Io.record_cnt (io : Io) (r : Rd) (cap : Nat) (v : Ev) (k : RegKey) (h : ownCnt k = false) :
    agetD (io.record r cap v).cnt k 0 = agetD io.cnt k 0 := by
  unfold Io.record
  dsimp only
  rw [foldl_keeps (fun i : Io => agetD i.cnt k 0) _ (fun i e => Io.offer_cnt _ _ _ _ _ _ h)]
  split <;> split <;> simp only [Io.evtMark_cnt, Io.offer_cnt _ _ _ _ _ _ h, Io.prfEdge_cnt _ _ _ _ _ _ _ _ h]

theorem State.post_cnt (a b c d : Nat) (l : Bytes) (r : RegId) (i : Nat) (h : ownCnt ⟨r, i⟩ = false) :
    (s.post a b c d l).cnt r i = s.cnt r i := Io.record_cnt _ _ _ _ _ h

theorem State.occ_cnt (a b c : Nat) (l : Bytes) (r : RegId) (i : Nat) (h : ownCnt ⟨r, i⟩ = false) :
    (s.occ a b c l).cnt r i = s.cnt r i := Io.record_cnt _ _ _ _ _ h

theorem State.raise_cnt (a b c d : Nat) (l : Bytes) (r : RegId) (i : Nat) (h : ownCnt ⟨r, i⟩ = false) :
    (s.raise a b c l d).cnt r i = s.cnt r i := by
  unfold State.raise
  split
  · rfl
  · rw [State.post_cnt _ _ _ _ _ _ _ _ h]; rfl

theorem State.clear_cnt (a b c d : Nat) (l : Bytes) (r : RegId) (i : Nat) (h : ownCnt ⟨r, i⟩ = false) :
    (s.clear a b c l d).cnt r i = s.cnt r i := by
  unfold State.clear
  split
  · rw [State.post_cnt _ _ _ _ _ _ _ _ h]; rfl
  · rfl

/-- A 32-bit counter advances and holds at its largest value (R508). -/
@[simp] theorem State.bump_cnt (r : RegId) (i n : Nat) :
    (s.bump r i n).cnt r i = min 0xFFFFFFFF (s.cnt r i + n) := by
  simp [State.bump, State.cnt, Io.bump]

@[simp] theorem State.bump64_cnt (r : RegId) (i n : Nat) : (s.bump64 r i n).cnt r i = (s.cnt r i + n) % 2 ^ 64 := by
  simp [State.bump64, State.cnt, Io.bump64]

end Sys2Proof.Machine
end

