-- ==== Sys2Proof/Laws/Link.lean ====
section
/-! SUPPORT. What a condition that passes from unit to unit leaves as it is (`State.settle`): the far units, the queue,
and every standing defect of another family. -/

namespace Sys2Proof.Machine

/-- Families whose defects `settle` raises and clears: receive core, line code, transmit, framer, Seam, clients. -/
def nearFamily (code : Nat) : Bool :=
  code / 256 == 4 || code / 256 == 5 || code / 256 == 6 || code / 256 == 8 || code / 256 == 10 || code / 256 == 11

/-- Standing defects of the other families. -/
def Io.far (io : Io) : List Defect := io.defects.filter fun d => !nearFamily d.code

/-- What `settle` leaves as it is. -/
structure Outer where

  sys : Sys
  io_link : Bool
  io_perst : Bool
  io_rings : Tab (Fn × Nat) CmdRing
  io_latch : Tab (Agent × RegKey) Nat
  io_snaps : Tab Nat Snap
  io_msgTail : Nat
  io_wbuf : Tab RegKey Nat
  io_bwSeq : Nat
  io_bw : Tab Nat (Nat × Nat)
  io_arb : Arb
  far : List Defect
  chk : Tab Nat ChkUnit
  sti : Sti
  fe : Fe
  feB : Fe
  cm : Crease
  cmB : Crease
  tim : Timing
  mon : Mon
  cal : Tab Nat CalInst
  mem : MemInt
  cxl : Cxl
  boot : Boot
  retired : List Nat
  pending : List Instr

/-- The outer parts of a state. -/
def State.outer (s : State) : Outer where
  sys := s.sys
  io_link := s.io.link
  io_perst := s.io.perst
  io_rings := s.io.rings
  io_latch := s.io.latch
  io_snaps := s.io.snaps
  io_msgTail := s.io.msgTail
  io_wbuf := s.io.wbuf
  io_bwSeq := s.io.bwSeq
  io_bw := s.io.bw
  io_arb := s.io.arb
  far := s.io.far
  chk := s.chk
  sti := s.sti
  fe := (s.car .A).fe
  feB := (s.car .B).fe
  cm := (s.car .A).cm
  cmB := (s.car .B).cm
  tim := s.tim
  mon := s.mon
  cal := s.cal
  mem := s.mem
  cxl := s.cxl
  boot := s.boot
  retired := s.retired
  pending := s.pending

/-- Equal outer parts. -/
theorem outer_ext (s t : State) (h : s.outer = t.outer) : s.sys = t.sys ∧ s.io.link = t.io.link ∧ s.io.perst = t.io.perst ∧ s.io.rings = t.io.rings ∧ s.io.latch = t.io.latch ∧ s.io.snaps = t.io.snaps ∧ s.io.msgTail = t.io.msgTail ∧ s.io.wbuf = t.io.wbuf ∧ s.io.bwSeq = t.io.bwSeq ∧ s.io.bw = t.io.bw ∧ s.io.arb = t.io.arb ∧ s.io.far = t.io.far ∧ s.chk = t.chk ∧ s.sti = t.sti ∧ (s.car .A).fe = (t.car .A).fe ∧ (s.car .B).fe = (t.car .B).fe ∧ (s.car .A).cm = (t.car .A).cm ∧ (s.car .B).cm = (t.car .B).cm ∧ s.tim = t.tim ∧ s.mon = t.mon ∧ s.cal = t.cal ∧ s.mem = t.mem ∧ s.cxl = t.cxl ∧ s.boot = t.boot ∧ s.retired = t.retired ∧ s.pending = t.pending := by
  simpa [State.outer] using h

variable (s : State) (x : Carrier)

@[simp] theorem State.post_outer (a b c d : Nat) (l : Bytes) : (s.post a b c d l).outer = s.outer := by
  simp [State.outer, Io.far]

@[simp] theorem State.occ_outer (a b c : Nat) (l : Bytes) : (s.occ a b c l).outer = s.outer := by
  simp [State.outer, Io.far]

@[simp] theorem State.bump_outer (r : RegId) (i n : Nat) : (s.bump r i n).outer = s.outer := rfl

@[simp] theorem State.bump64_outer (r : RegId) (i n : Nat) : (s.bump64 r i n).outer = s.outer := rfl

@[simp] theorem State.bumpx_outer (r : RegId) (n i : Nat) : (s.bumpx r x n i).outer = s.outer := rfl

@[simp] theorem State.bumpx64_outer (r : RegId) (n i : Nat) : (s.bumpx64 r x n i).outer = s.outer := rfl

@[simp] theorem State.emit_outer (o : Out) : (s.emit o).outer = s.outer := rfl

@[simp] theorem State.forget_outer (a b c d : Nat) (h : nearFamily a = true) : (s.forget a b c d).outer = s.outer := by
  have : List.filter (fun d => !nearFamily d.code) (List.filter (fun e => decide (e ≠ Defect.mk a b c d)) s.io.defects) =
      List.filter (fun d => !nearFamily d.code) s.io.defects := by
    rw [List.filter_filter]
    refine List.filter_congr (fun e _ => ?_)
    by_cases q : e = Defect.mk a b c d
    · subst q; simp [h]
    · simp [q]
  simpa [State.outer, State.forget, Io.far, State.car] using this

@[simp] theorem State.raise_outer (a b c d : Nat) (l : Bytes) (h : nearFamily a = true) : (s.raise a b c l d).outer = s.outer := by
  unfold State.raise
  split
  · rfl
  · rw [State.post_outer]
    simp [State.outer, Io.far, h, State.car]

@[simp] theorem State.clear_outer (a b c d : Nat) (l : Bytes) (h : nearFamily a = true) : (s.clear a b c l d).outer = s.outer := by
  unfold State.clear
  split
  · rw [State.post_outer, State.forget_outer _ _ _ _ _ h]
  · rfl

@[simp] theorem State.defect_outer (b0 : Bool) (a b c d : Nat) (l : Bytes) (h : nearFamily a = true) : (s.defect b0 a b c l d).outer = s.outer := by
  unfold State.defect
  split <;> simp [h]

@[simp] theorem State.modRxc_outer (f : Rxc → Rxc) : (s.modRxc x f).outer = s.outer := by
  cases x <;> rfl

@[simp] theorem State.modFec_outer (f : Fec → Fec) : (s.modFec x f).outer = s.outer := by
  cases x <;> rfl

@[simp] theorem State.modTx_outer (f : TxCh → TxCh) : (s.modTx x f).outer = s.outer := by
  cases x <;> rfl

@[simp] theorem State.modPlan_outer (f : Plan → Plan) : (s.modPlan x f).outer = s.outer := by
  cases x <;> rfl

@[simp] theorem State.modTr_outer (f : Tr → Tr) : (s.modTr x f).outer = s.outer := by
  cases x <;> rfl

@[simp] theorem State.modTk_outer (f : Tack → Tack) : (s.modTk x f).outer = s.outer := by
  cases x <;> rfl

@[simp] theorem State.setWord_outer (k : RegKey) (w : Word) : (s.setWord k w).outer = s.outer := rfl

@[simp] theorem State.applyVals_outer (v : Tab RegKey (Word × Word)) : (s.applyVals v).outer = s.outer := foldl_keeps State.outer _ (fun s a => by simp) _ _

@[simp] theorem State.modChan_outer (c : Nat) (f : Chan → Chan) : (s.modChan c f).outer = s.outer := rfl

@[simp] theorem State.modSch_outer (c : Nat) (f : SeamCh → SeamCh) : (s.modSch c f).outer = s.outer := rfl

@[simp] theorem State.modSeam_outer (f : Seam → Seam) : (s.modSeam f).outer = s.outer := rfl

@[simp] theorem State.copyUpdate_outer (c : Nat) : (s.copyUpdate c x).outer = s.outer := by
  simp [State.copyUpdate]

@[simp] theorem State.seamProt_outer (c : Nat) (b : Bool) : (s.seamProt c b).outer = s.outer := by
  unfold State.seamProt
  dsimp only
  rw [State.defect_outer _ _ _ _ _ _ _ (by rfl), State.defect_outer _ _ _ _ _ _ _ (by rfl)]
  simp [apply_ite State.outer]

@[simp] theorem State.seamEval_outer (c : Nat) (b : Bool) : (s.seamEval c b).outer = s.outer := by
  unfold State.seamEval
  split
  · simp
  · simp [State.defect_outer _ _ _ _ _ _ _ (show nearFamily 0x0A03 = true from rfl)]
  · rfl

@[simp] theorem State.replEval_outer (c : Nat) : (s.replEval c).outer = s.outer := by
  unfold State.replEval
  dsimp only
  split
  · rfl
  · simp [apply_ite State.outer, State.raise_outer _ _ _ _ _ _ (show nearFamily 0x0B07 = true from rfl),
      State.clear_outer _ _ _ _ _ _ (show nearFamily 0x0B07 = true from rfl)]

@[simp] theorem State.chEval_outer (c : Nat) : (s.chEval c).outer = s.outer := by
  simp [State.chEval, apply_ite State.outer]

@[simp] theorem State.chEvalAll_outer  : (s.chEvalAll).outer = s.outer := foldl_keeps State.outer _ (fun s a => by simp) _ _

@[simp] theorem State.msgBad_outer (a b c : Nat) : (s.msgBad x a b c).outer = s.outer := by
  simp [State.msgBad]

@[simp] theorem State.ciphUnaligned_outer  : (s.ciphUnaligned x).outer = s.outer := rfl

@[simp] theorem State.leaveAligned_outer  : (s.leaveAligned x).outer = s.outer := by
  unfold State.leaveAligned
  dsimp only
  split <;> simp

@[simp] theorem State.frHunt_outer  : (s.frHunt x).outer = s.outer := by
  unfold State.frHunt
  dsimp only
  simp [apply_ite State.outer, nearFamily]

@[simp] theorem State.fecUnlock_outer (st : FecSt) : (s.fecUnlock x st).outer = s.outer := by
  unfold State.fecUnlock
  split
  · simp [State.clear_outer _ _ _ _ _ _ (show nearFamily 0x0503 = true from rfl)]
  · simp

@[simp] theorem State.llrStop_outer  : (s.llrStop x).outer = s.outer := by
  unfold State.llrStop
  dsimp only
  split <;> simp

@[simp] theorem State.rxcLoss_outer  : (s.rxcLoss x).outer = s.outer := by
  unfold State.rxcLoss
  simp [State.raise_outer _ _ _ _ _ _ (show nearFamily 0x0401 = true from rfl)]

@[simp] theorem State.rxcTo_outer (st : RxSt) : (s.rxcTo x st).outer = s.outer := by
  unfold State.rxcTo
  dsimp only
  simp [apply_ite State.outer]

@[simp] theorem State.rxSettle_outer  : (s.rxSettle x).outer = s.outer := by
  unfold State.rxSettle
  split
  · split
    · rfl
    · simp
  · split
    · split <;> simp
    · split <;> simp

@[simp] theorem State.tkCut_outer  : (s.tkCut x).outer = s.outer := by
  unfold State.tkCut
  split
  · rfl
  · split <;> simp

@[simp] theorem State.tkStop_outer  : (s.tkStop x).outer = s.outer := by
  simp [State.tkStop]

@[simp] theorem State.dacZero_outer  : (s.dacZero x).outer = s.outer := by
  unfold State.dacZero State.each
  rw [foldl_keeps State.outer _ (fun s a => by simp)]
  simp

@[simp] theorem State.tkEnd_outer  : (s.tkEnd x).outer = s.outer := by
  simp [State.tkEnd]

@[simp] theorem State.txEvent_outer  : (s.txEvent x).outer = s.outer := by
  unfold State.txEvent
  simp [State.raise_outer _ _ _ _ _ _ (show nearFamily 0x0601 = true from rfl),
    State.forget_outer _ _ _ _ _ (show nearFamily 0x0601 = true from rfl)]

@[simp] theorem State.chainStop_outer  : (s.chainStop x).outer = s.outer := by
  simp [State.chainStop]

@[simp] theorem State.txTo_outer (st : TxSt) : (s.txTo x st).outer = s.outer := by
  have k (u : State) (c : Prop) [Decidable c] (b : Bytes) :
      (if c then u.clear 0x0601 x.ev 0 b else u).outer = u.outer := by
    split
    · exact State.clear_outer _ _ _ _ _ _ rfl
    · rfl
  unfold State.txTo
  dsimp only
  rw [k]
  simp [apply_ite State.outer]

@[simp] theorem State.txLeave_outer  : (s.txLeave x).outer = s.outer := by
  unfold State.txLeave
  split
  · split <;> simp
  · split
    · split <;> simp
    · split
      · split <;> simp
      · simp

@[simp] theorem State.txSettle_outer  : (s.txSettle x).outer = s.outer := by
  unfold State.txSettle
  split
  · split
    · rfl
    · simp
  · split
    · simp
    · simp
    · split
      · simp
      · split <;> simp
    · split
      · simp
      · split <;> simp
    · split <;> simp
    · rfl

@[simp] theorem State.settle_outer  : (s.settle x).outer = s.outer := by
  simp [State.settle]

@[simp] theorem State.settleAll_outer  : (s.settleAll).outer = s.outer := by
  simp [State.settleAll]

/-! ### The parts one by one -/

@[simp] theorem State.settle_sys : (s.settle x).sys = s.sys := congrArg Outer.sys (State.settle_outer s x)
@[simp] theorem State.settle_io_link : (s.settle x).io.link = s.io.link := congrArg Outer.io_link (State.settle_outer s x)
@[simp] theorem State.settle_io_perst : (s.settle x).io.perst = s.io.perst := congrArg Outer.io_perst (State.settle_outer s x)
@[simp] theorem State.settle_io_rings : (s.settle x).io.rings = s.io.rings := congrArg Outer.io_rings (State.settle_outer s x)
@[simp] theorem State.settle_io_latch : (s.settle x).io.latch = s.io.latch := congrArg Outer.io_latch (State.settle_outer s x)
@[simp] theorem State.settle_io_snaps : (s.settle x).io.snaps = s.io.snaps := congrArg Outer.io_snaps (State.settle_outer s x)
@[simp] theorem State.settle_io_msgTail : (s.settle x).io.msgTail = s.io.msgTail := congrArg Outer.io_msgTail (State.settle_outer s x)
@[simp] theorem State.settle_io_wbuf : (s.settle x).io.wbuf = s.io.wbuf := congrArg Outer.io_wbuf (State.settle_outer s x)
@[simp] theorem State.settle_io_bwSeq : (s.settle x).io.bwSeq = s.io.bwSeq := congrArg Outer.io_bwSeq (State.settle_outer s x)
@[simp] theorem State.settle_io_bw : (s.settle x).io.bw = s.io.bw := congrArg Outer.io_bw (State.settle_outer s x)
@[simp] theorem State.settle_io_arb : (s.settle x).io.arb = s.io.arb := congrArg Outer.io_arb (State.settle_outer s x)
@[simp] theorem State.settle_far : (s.settle x).io.far = s.io.far := congrArg Outer.far (State.settle_outer s x)
@[simp] theorem State.settle_chk : (s.settle x).chk = s.chk := congrArg Outer.chk (State.settle_outer s x)
@[simp] theorem State.settle_sti : (s.settle x).sti = s.sti := congrArg Outer.sti (State.settle_outer s x)
@[simp] theorem State.settle_tim : (s.settle x).tim = s.tim := congrArg Outer.tim (State.settle_outer s x)
@[simp] theorem State.settle_mon : (s.settle x).mon = s.mon := congrArg Outer.mon (State.settle_outer s x)
@[simp] theorem State.settle_cal : (s.settle x).cal = s.cal := congrArg Outer.cal (State.settle_outer s x)
@[simp] theorem State.settle_mem : (s.settle x).mem = s.mem := congrArg Outer.mem (State.settle_outer s x)
@[simp] theorem State.settle_cxl : (s.settle x).cxl = s.cxl := congrArg Outer.cxl (State.settle_outer s x)
@[simp] theorem State.settle_boot : (s.settle x).boot = s.boot := congrArg Outer.boot (State.settle_outer s x)
@[simp] theorem State.settle_retired : (s.settle x).retired = s.retired := congrArg Outer.retired (State.settle_outer s x)
@[simp] theorem State.settle_pending : (s.settle x).pending = s.pending := congrArg Outer.pending (State.settle_outer s x)
@[simp] theorem State.settle_car_fe (y : Carrier) : ((s.settle x).car y).fe = (s.car y).fe := by
  cases y
  · exact congrArg Outer.fe (State.settle_outer s x)
  · exact congrArg Outer.feB (State.settle_outer s x)
@[simp] theorem State.settle_car_cm (y : Carrier) : ((s.settle x).car y).cm = (s.car y).cm := by
  cases y
  · exact congrArg Outer.cm (State.settle_outer s x)
  · exact congrArg Outer.cmB (State.settle_outer s x)
/-- A defect of another family stands as before. -/
theorem State.settle_stands (a b c d : Nat) (h : nearFamily a = false) : (s.settle x).stands a b c d = s.stands a b c d := by
  have e := State.settle_far s x
  have k (i : Io) : i.defects.contains ⟨a, b, c, d⟩ = i.far.contains ⟨a, b, c, d⟩ := by
    rw [Bool.eq_iff_iff]; simp [Io.far, h]
  simp only [State.stands, k, e]

@[simp] theorem State.txSettle_sys : (s.txSettle x).sys = s.sys := congrArg Outer.sys (State.txSettle_outer s x)
@[simp] theorem State.txSettle_io_link : (s.txSettle x).io.link = s.io.link := congrArg Outer.io_link (State.txSettle_outer s x)
@[simp] theorem State.txSettle_io_perst : (s.txSettle x).io.perst = s.io.perst := congrArg Outer.io_perst (State.txSettle_outer s x)
@[simp] theorem State.txSettle_io_rings : (s.txSettle x).io.rings = s.io.rings := congrArg Outer.io_rings (State.txSettle_outer s x)
@[simp] theorem State.txSettle_io_latch : (s.txSettle x).io.latch = s.io.latch := congrArg Outer.io_latch (State.txSettle_outer s x)
@[simp] theorem State.txSettle_io_snaps : (s.txSettle x).io.snaps = s.io.snaps := congrArg Outer.io_snaps (State.txSettle_outer s x)
@[simp] theorem State.txSettle_io_msgTail : (s.txSettle x).io.msgTail = s.io.msgTail := congrArg Outer.io_msgTail (State.txSettle_outer s x)
@[simp] theorem State.txSettle_io_wbuf : (s.txSettle x).io.wbuf = s.io.wbuf := congrArg Outer.io_wbuf (State.txSettle_outer s x)
@[simp] theorem State.txSettle_io_bwSeq : (s.txSettle x).io.bwSeq = s.io.bwSeq := congrArg Outer.io_bwSeq (State.txSettle_outer s x)
@[simp] theorem State.txSettle_io_bw : (s.txSettle x).io.bw = s.io.bw := congrArg Outer.io_bw (State.txSettle_outer s x)
@[simp] theorem State.txSettle_io_arb : (s.txSettle x).io.arb = s.io.arb := congrArg Outer.io_arb (State.txSettle_outer s x)
@[simp] theorem State.txSettle_far : (s.txSettle x).io.far = s.io.far := congrArg Outer.far (State.txSettle_outer s x)
@[simp] theorem State.txSettle_chk : (s.txSettle x).chk = s.chk := congrArg Outer.chk (State.txSettle_outer s x)
@[simp] theorem State.txSettle_sti : (s.txSettle x).sti = s.sti := congrArg Outer.sti (State.txSettle_outer s x)
@[simp] theorem State.txSettle_tim : (s.txSettle x).tim = s.tim := congrArg Outer.tim (State.txSettle_outer s x)
@[simp] theorem State.txSettle_mon : (s.txSettle x).mon = s.mon := congrArg Outer.mon (State.txSettle_outer s x)
@[simp] theorem State.txSettle_cal : (s.txSettle x).cal = s.cal := congrArg Outer.cal (State.txSettle_outer s x)
@[simp] theorem State.txSettle_mem : (s.txSettle x).mem = s.mem := congrArg Outer.mem (State.txSettle_outer s x)
@[simp] theorem State.txSettle_cxl : (s.txSettle x).cxl = s.cxl := congrArg Outer.cxl (State.txSettle_outer s x)
@[simp] theorem State.txSettle_boot : (s.txSettle x).boot = s.boot := congrArg Outer.boot (State.txSettle_outer s x)
@[simp] theorem State.txSettle_retired : (s.txSettle x).retired = s.retired := congrArg Outer.retired (State.txSettle_outer s x)
@[simp] theorem State.txSettle_pending : (s.txSettle x).pending = s.pending := congrArg Outer.pending (State.txSettle_outer s x)
@[simp] theorem State.txSettle_car_fe (y : Carrier) : ((s.txSettle x).car y).fe = (s.car y).fe := by
  cases y
  · exact congrArg Outer.fe (State.txSettle_outer s x)
  · exact congrArg Outer.feB (State.txSettle_outer s x)
@[simp] theorem State.txSettle_car_cm (y : Carrier) : ((s.txSettle x).car y).cm = (s.car y).cm := by
  cases y
  · exact congrArg Outer.cm (State.txSettle_outer s x)
  · exact congrArg Outer.cmB (State.txSettle_outer s x)
/-- A defect of another family stands as before. -/
theorem State.txSettle_stands (a b c d : Nat) (h : nearFamily a = false) : (s.txSettle x).stands a b c d = s.stands a b c d := by
  have e := State.txSettle_far s x
  have k (i : Io) : i.defects.contains ⟨a, b, c, d⟩ = i.far.contains ⟨a, b, c, d⟩ := by
    rw [Bool.eq_iff_iff]; simp [Io.far, h]
  simp only [State.stands, k, e]

@[simp] theorem State.settleAll_sys : (s.settleAll).sys = s.sys := congrArg Outer.sys (State.settleAll_outer s)
@[simp] theorem State.settleAll_io_link : (s.settleAll).io.link = s.io.link := congrArg Outer.io_link (State.settleAll_outer s)
@[simp] theorem State.settleAll_io_perst : (s.settleAll).io.perst = s.io.perst := congrArg Outer.io_perst (State.settleAll_outer s)
@[simp] theorem State.settleAll_io_rings : (s.settleAll).io.rings = s.io.rings := congrArg Outer.io_rings (State.settleAll_outer s)
@[simp] theorem State.settleAll_io_latch : (s.settleAll).io.latch = s.io.latch := congrArg Outer.io_latch (State.settleAll_outer s)
@[simp] theorem State.settleAll_io_snaps : (s.settleAll).io.snaps = s.io.snaps := congrArg Outer.io_snaps (State.settleAll_outer s)
@[simp] theorem State.settleAll_io_msgTail : (s.settleAll).io.msgTail = s.io.msgTail := congrArg Outer.io_msgTail (State.settleAll_outer s)
@[simp] theorem State.settleAll_io_wbuf : (s.settleAll).io.wbuf = s.io.wbuf := congrArg Outer.io_wbuf (State.settleAll_outer s)
@[simp] theorem State.settleAll_io_bwSeq : (s.settleAll).io.bwSeq = s.io.bwSeq := congrArg Outer.io_bwSeq (State.settleAll_outer s)
@[simp] theorem State.settleAll_io_bw : (s.settleAll).io.bw = s.io.bw := congrArg Outer.io_bw (State.settleAll_outer s)
@[simp] theorem State.settleAll_io_arb : (s.settleAll).io.arb = s.io.arb := congrArg Outer.io_arb (State.settleAll_outer s)
@[simp] theorem State.settleAll_far : (s.settleAll).io.far = s.io.far := congrArg Outer.far (State.settleAll_outer s)
@[simp] theorem State.settleAll_chk : (s.settleAll).chk = s.chk := congrArg Outer.chk (State.settleAll_outer s)
@[simp] theorem State.settleAll_sti : (s.settleAll).sti = s.sti := congrArg Outer.sti (State.settleAll_outer s)
@[simp] theorem State.settleAll_tim : (s.settleAll).tim = s.tim := congrArg Outer.tim (State.settleAll_outer s)
@[simp] theorem State.settleAll_mon : (s.settleAll).mon = s.mon := congrArg Outer.mon (State.settleAll_outer s)
@[simp] theorem State.settleAll_cal : (s.settleAll).cal = s.cal := congrArg Outer.cal (State.settleAll_outer s)
@[simp] theorem State.settleAll_mem : (s.settleAll).mem = s.mem := congrArg Outer.mem (State.settleAll_outer s)
@[simp] theorem State.settleAll_cxl : (s.settleAll).cxl = s.cxl := congrArg Outer.cxl (State.settleAll_outer s)
@[simp] theorem State.settleAll_boot : (s.settleAll).boot = s.boot := congrArg Outer.boot (State.settleAll_outer s)
@[simp] theorem State.settleAll_retired : (s.settleAll).retired = s.retired := congrArg Outer.retired (State.settleAll_outer s)
@[simp] theorem State.settleAll_pending : (s.settleAll).pending = s.pending := congrArg Outer.pending (State.settleAll_outer s)
@[simp] theorem State.settleAll_car_fe (y : Carrier) : ((s.settleAll).car y).fe = (s.car y).fe := by
  cases y
  · exact congrArg Outer.fe (State.settleAll_outer s)
  · exact congrArg Outer.feB (State.settleAll_outer s)
@[simp] theorem State.settleAll_car_cm (y : Carrier) : ((s.settleAll).car y).cm = (s.car y).cm := by
  cases y
  · exact congrArg Outer.cm (State.settleAll_outer s)
  · exact congrArg Outer.cmB (State.settleAll_outer s)
/-- A defect of another family stands as before. -/
theorem State.settleAll_stands (a b c d : Nat) (h : nearFamily a = false) : (s.settleAll).stands a b c d = s.stands a b c d := by
  have e := State.settleAll_far s
  have k (i : Io) : i.defects.contains ⟨a, b, c, d⟩ = i.far.contains ⟨a, b, c, d⟩ := by
    rw [Bool.eq_iff_iff]; simp [Io.far, h]
  simp only [State.stands, k, e]

@[simp] theorem State.chEvalAll_sys : (s.chEvalAll).sys = s.sys := congrArg Outer.sys (State.chEvalAll_outer s)
@[simp] theorem State.chEvalAll_io_link : (s.chEvalAll).io.link = s.io.link := congrArg Outer.io_link (State.chEvalAll_outer s)
@[simp] theorem State.chEvalAll_io_perst : (s.chEvalAll).io.perst = s.io.perst := congrArg Outer.io_perst (State.chEvalAll_outer s)
@[simp] theorem State.chEvalAll_io_rings : (s.chEvalAll).io.rings = s.io.rings := congrArg Outer.io_rings (State.chEvalAll_outer s)
@[simp] theorem State.chEvalAll_io_latch : (s.chEvalAll).io.latch = s.io.latch := congrArg Outer.io_latch (State.chEvalAll_outer s)
@[simp] theorem State.chEvalAll_io_snaps : (s.chEvalAll).io.snaps = s.io.snaps := congrArg Outer.io_snaps (State.chEvalAll_outer s)
@[simp] theorem State.chEvalAll_io_msgTail : (s.chEvalAll).io.msgTail = s.io.msgTail := congrArg Outer.io_msgTail (State.chEvalAll_outer s)
@[simp] theorem State.chEvalAll_io_wbuf : (s.chEvalAll).io.wbuf = s.io.wbuf := congrArg Outer.io_wbuf (State.chEvalAll_outer s)
@[simp] theorem State.chEvalAll_io_bwSeq : (s.chEvalAll).io.bwSeq = s.io.bwSeq := congrArg Outer.io_bwSeq (State.chEvalAll_outer s)
@[simp] theorem State.chEvalAll_io_bw : (s.chEvalAll).io.bw = s.io.bw := congrArg Outer.io_bw (State.chEvalAll_outer s)
@[simp] theorem State.chEvalAll_io_arb : (s.chEvalAll).io.arb = s.io.arb := congrArg Outer.io_arb (State.chEvalAll_outer s)
@[simp] theorem State.chEvalAll_far : (s.chEvalAll).io.far = s.io.far := congrArg Outer.far (State.chEvalAll_outer s)
@[simp] theorem State.chEvalAll_chk : (s.chEvalAll).chk = s.chk := congrArg Outer.chk (State.chEvalAll_outer s)
@[simp] theorem State.chEvalAll_sti : (s.chEvalAll).sti = s.sti := congrArg Outer.sti (State.chEvalAll_outer s)
@[simp] theorem State.chEvalAll_tim : (s.chEvalAll).tim = s.tim := congrArg Outer.tim (State.chEvalAll_outer s)
@[simp] theorem State.chEvalAll_mon : (s.chEvalAll).mon = s.mon := congrArg Outer.mon (State.chEvalAll_outer s)
@[simp] theorem State.chEvalAll_cal : (s.chEvalAll).cal = s.cal := congrArg Outer.cal (State.chEvalAll_outer s)
@[simp] theorem State.chEvalAll_mem : (s.chEvalAll).mem = s.mem := congrArg Outer.mem (State.chEvalAll_outer s)
@[simp] theorem State.chEvalAll_cxl : (s.chEvalAll).cxl = s.cxl := congrArg Outer.cxl (State.chEvalAll_outer s)
@[simp] theorem State.chEvalAll_boot : (s.chEvalAll).boot = s.boot := congrArg Outer.boot (State.chEvalAll_outer s)
@[simp] theorem State.chEvalAll_retired : (s.chEvalAll).retired = s.retired := congrArg Outer.retired (State.chEvalAll_outer s)
@[simp] theorem State.chEvalAll_pending : (s.chEvalAll).pending = s.pending := congrArg Outer.pending (State.chEvalAll_outer s)
@[simp] theorem State.chEvalAll_car_fe (y : Carrier) : ((s.chEvalAll).car y).fe = (s.car y).fe := by
  cases y
  · exact congrArg Outer.fe (State.chEvalAll_outer s)
  · exact congrArg Outer.feB (State.chEvalAll_outer s)
@[simp] theorem State.chEvalAll_car_cm (y : Carrier) : ((s.chEvalAll).car y).cm = (s.car y).cm := by
  cases y
  · exact congrArg Outer.cm (State.chEvalAll_outer s)
  · exact congrArg Outer.cmB (State.chEvalAll_outer s)
/-- A defect of another family stands as before. -/
theorem State.chEvalAll_stands (a b c d : Nat) (h : nearFamily a = false) : (s.chEvalAll).stands a b c d = s.stands a b c d := by
  have e := State.chEvalAll_far s
  have k (i : Io) : i.defects.contains ⟨a, b, c, d⟩ = i.far.contains ⟨a, b, c, d⟩ := by
    rw [Bool.eq_iff_iff]; simp [Io.far, h]
  simp only [State.stands, k, e]

/-! ### The other carrier -/

variable (y : Carrier)

@[simp] theorem State.setWord2_other (k : RegKey) (w : Word) : (s.setWord k w).car y = s.car y := rfl

@[simp] theorem State.applyVals_other (v : Tab RegKey (Word × Word)) : (s.applyVals v).car y = s.car y := foldl_keeps (State.car · y) _ (fun s a => by simp) _ _

@[simp] theorem State.modChan_other (c : Nat) (f : Chan → Chan) : (s.modChan c f).car y = s.car y := rfl

@[simp] theorem State.modSch_other (c : Nat) (f : SeamCh → SeamCh) : (s.modSch c f).car y = s.car y := rfl

@[simp] theorem State.copyUpdate_other (c : Nat) : (s.copyUpdate c x).car y = s.car y := by
  simp [State.copyUpdate]

@[simp] theorem State.seamProt_other (c : Nat) (b : Bool) : (s.seamProt c b).car y = s.car y := by
  unfold State.seamProt
  dsimp only
  rw [State.defect_car, State.defect_car]
  simp [apply_ite (State.car · y)]

@[simp] theorem State.seamEval_other (c : Nat) (b : Bool) : (s.seamEval c b).car y = s.car y := by
  unfold State.seamEval
  split
  · simp
  · simp
  · rfl

@[simp] theorem State.replEval_other (c : Nat) : (s.replEval c).car y = s.car y := by
  unfold State.replEval
  dsimp only
  split
  · rfl
  · simp [apply_ite (fun u : State => u.car y)]

@[simp] theorem State.chEval_other (c : Nat) : (s.chEval c).car y = s.car y := by
  simp [State.chEval, apply_ite (fun u : State => u.car y)]

@[simp] theorem State.chEvalAll_other  : (s.chEvalAll).car y = s.car y := foldl_keeps (State.car · y) _ (fun s a => by simp) _ _

theorem State.modRxc_other (f : Rxc → Rxc) (h : y ≠ x) : (s.modRxc x f).car y = s.car y := State.modRxc_car_ne s x y f h

theorem State.modFec_other (f : Fec → Fec) (h : y ≠ x) : (s.modFec x f).car y = s.car y := State.modFec_car_ne s x y f h

theorem State.modTx_other (f : TxCh → TxCh) (h : y ≠ x) : (s.modTx x f).car y = s.car y := State.modTx_car_ne s x y f h

theorem State.modPlan_other (f : Plan → Plan) (h : y ≠ x) : (s.modPlan x f).car y = s.car y := State.modPlan_car_ne s x y f h

theorem State.modTr_other (f : Tr → Tr) (h : y ≠ x) : (s.modTr x f).car y = s.car y := State.modTr_car_ne s x y f h

theorem State.modTk_other (f : Tack → Tack) (h : y ≠ x) : (s.modTk x f).car y = s.car y := State.modTk_car_ne s x y f h

@[simp] theorem State.msgBad_other (a b c : Nat) : (s.msgBad x a b c).car y = s.car y := by
  simp [State.msgBad]

@[simp] theorem State.ciphUnaligned_other  : (s.ciphUnaligned x).car y = s.car y := by
  cases y <;> rfl

theorem State.leaveAligned_other  (h : y ≠ x) : (s.leaveAligned x).car y = s.car y := by
  unfold State.leaveAligned
  dsimp only
  split <;> simp [State.modTr_other _ _ _ _ h]

theorem State.frHunt_other  (h : y ≠ x) : (s.frHunt x).car y = s.car y := by
  unfold State.frHunt
  dsimp only
  simp [apply_ite (State.car · y), State.modTr_other _ _ _ _ h, State.modPlan_other _ _ _ _ h,
    State.leaveAligned_other _ _ _ h]

theorem State.fecUnlock_other (st : FecSt) (h : y ≠ x) : (s.fecUnlock x st).car y = s.car y := by
  unfold State.fecUnlock
  split <;> simp [State.modFec_other _ _ _ _ h, State.frHunt_other _ _ _ h]

theorem State.llrStop_other  (h : y ≠ x) : (s.llrStop x).car y = s.car y := by
  unfold State.llrStop
  dsimp only
  split <;> simp [State.modFec_other _ _ _ _ h, State.fecUnlock_other _ _ _ _ h]

theorem State.rxcLoss_other  (h : y ≠ x) : (s.rxcLoss x).car y = s.car y := by
  unfold State.rxcLoss
  simp [State.modRxc_other _ _ _ _ h, State.llrStop_other _ _ _ h]

theorem State.rxcTo_other (st : RxSt) (h : y ≠ x) : (s.rxcTo x st).car y = s.car y := by
  unfold State.rxcTo
  simp [apply_ite (State.car · y), State.modRxc_other _ _ _ _ h, State.rxcLoss_other _ _ _ h]

theorem State.rxSettle_other  (h : y ≠ x) : (s.rxSettle x).car y = s.car y := by
  unfold State.rxSettle
  simp [apply_ite (State.car · y), State.rxcTo_other _ _ _ _ h]

theorem State.tkCut_other  (h : y ≠ x) : (s.tkCut x).car y = s.car y := by
  unfold State.tkCut
  split
  · rfl
  · split <;> simp [State.modTk_other _ _ _ _ h]

theorem State.tkStop_other  (h : y ≠ x) : (s.tkStop x).car y = s.car y := by
  simp [State.tkStop, State.modTk_other _ _ _ _ h, State.tkCut_other _ _ _ h]

theorem State.dacZero_other  (h : y ≠ x) : (s.dacZero x).car y = s.car y := by
  unfold State.dacZero State.each
  rw [foldl_keeps (State.car · y) _ (fun s a => by simp)]
  simp [State.modTx_other _ _ _ _ h]

theorem State.tkEnd_other  (h : y ≠ x) : (s.tkEnd x).car y = s.car y := by
  simp [State.tkEnd, State.modTk_other _ _ _ _ h]

@[simp] theorem State.txEvent_other  : (s.txEvent x).car y = s.car y := by
  simp [State.txEvent]

theorem State.chainStop_other  (h : y ≠ x) : (s.chainStop x).car y = s.car y := by
  simp [State.chainStop, State.modTx_other _ _ _ _ h, State.modTr_other _ _ _ _ h]

theorem State.txTo_other (st : TxSt) (h : y ≠ x) : (s.txTo x st).car y = s.car y := by
  unfold State.txTo
  simp [apply_ite (State.car · y), State.modTx_other _ _ _ _ h, State.chainStop_other _ _ _ h, State.tkCut_other _ _ _ h]

theorem State.txLeave_other  (h : y ≠ x) : (s.txLeave x).car y = s.car y := by
  unfold State.txLeave
  split
  · split <;> simp [State.txTo_other _ _ _ _ h]
  · split
    · split <;> simp [State.txTo_other _ _ _ _ h]
    · split
      · split <;> simp [State.txTo_other _ _ _ _ h, State.tkStop_other _ _ _ h]
      · simp [State.txTo_other _ _ _ _ h]

theorem State.txSettle_other  (h : y ≠ x) : (s.txSettle x).car y = s.car y := by
  unfold State.txSettle
  split
  · split
    · rfl
    · simp [State.txTo_other _ _ _ _ h, State.tkCut_other _ _ _ h, State.tkEnd_other _ _ _ h, State.modTk_other _ _ _ _ h,
        State.dacZero_other _ _ _ h]
  · split <;> simp [apply_ite (State.car · y), State.txTo_other _ _ _ _ h, State.txLeave_other _ _ _ h]

theorem State.settle_other  (h : y ≠ x) : (s.settle x).car y = s.car y := by
  simp [State.settle, State.txSettle_other _ _ _ h, State.rxSettle_other _ _ _ h]

/-! ### Defects that the output's states leave as they are: all but 0x0601 -/

theorem State.applyVals_stands (a b c d : Nat) (v : Tab RegKey (Word × Word)) :
    (s.applyVals v).stands a b c d = s.stands a b c d := by
  unfold State.applyVals
  exact foldl_keeps (State.stands · a b c d) (fun s e => s.setWord e.1 (merge (s.rd e.1) e.2.1 e.2.2))
    (fun _ _ => rfl) v s

theorem State.dacZero_stands (a b c d : Nat) : (s.dacZero x).stands a b c d = s.stands a b c d := by
  unfold State.dacZero State.each
  rw [foldl_keeps (State.stands · a b c d) _ (fun s a => by simp)]
  simp

theorem State.tkCut_stands (a b c d : Nat) : (s.tkCut x).stands a b c d = s.stands a b c d := by
  unfold State.tkCut
  split
  · rfl
  · split <;> simp

section
variable (a b c d : Nat) (h : a ≠ 0x0601)
include h

theorem State.txEvent_stands : (s.txEvent x).stands a b c d = s.stands a b c d := by
  unfold State.txEvent
  rw [State.raise_stands_ne _ _ _ _ _ _ _ _ _ _ (by simp [h]), State.forget_stands_ne _ _ _ _ _ _ _ _ _ (by simp [h])]
  simp

theorem State.txTo_stands (st : TxSt) : (s.txTo x st).stands a b c d = s.stands a b c d := by
  have k (u : State) (p : Prop) [Decidable p] (l : Bytes) :
      (if p then u.clear 0x0601 x.ev 0 l else u).stands a b c d = u.stands a b c d := by
    split
    · exact State.clear_stands_ne _ _ _ _ _ _ _ _ _ _ (by simp [h])
    · rfl
  have e (u : State) : (u.chainStop x).stands a b c d = u.stands a b c d := by simp [State.chainStop]
  unfold State.txTo
  dsimp only
  rw [k]
  simp [apply_ite (State.stands · a b c d), State.tkCut_stands _ _ a b c d, e]

theorem State.txLeave_stands : (s.txLeave x).stands a b c d = s.stands a b c d := by
  have e := fun st => State.txTo_stands s x a b c d h st
  unfold State.txLeave
  split
  · split <;> simp [e]
  · split
    · split <;> simp [e]
    · split
      · split <;> simp [e, State.tkStop, State.tkCut_stands _ _ a b c d]
      · simp [e]

theorem State.txSettle_stands_ne : (s.txSettle x).stands a b c d = s.stands a b c d := by
  have e (u : State) (st : TxSt) := State.txTo_stands u x a b c d h st
  unfold State.txSettle
  split
  · split
    · rfl
    · simp [State.txEvent_stands _ _ a b c d h, State.tkEnd, State.dacZero_stands, State.applyVals_stands _ a b c d, e,
        State.tkCut_stands _ _ a b c d]
  · split <;> simp [apply_ite (State.stands · a b c d), e, State.txLeave_stands _ _ a b c d h,
      State.txEvent_stands _ _ a b c d h]

end

end Sys2Proof.Machine
end

