-- ==== Sys2Proof/Laws/Frame.lean ====
section
/-! SUPPORT. Frames: each shared operation leaves every zone of the state but its own as it was, and frames compose. -/

namespace Sys2Proof.Machine

theorem keeps_refl (s : State) (p : Zone) : s.keeps s p := by
  cases p <;> simp [State.keeps]

theorem keeps_trans {s t u : State} {p : Zone} (h : s.keeps t p) (k : t.keeps u p) : s.keeps u p := by
  cases p <;> simp_all [State.keeps]

theorem onlyIn_refl (s : State) (l : List Zone) : s.onlyIn s l := ⟨fun p _ => keeps_refl s p⟩

/-- Frames compose. -/
theorem onlyIn_trans {s t u : State} {l : List Zone} (h : s.onlyIn t l) (k : t.onlyIn u l) : s.onlyIn u l :=
  ⟨fun p n => keeps_trans (h.rest p n) (k.rest p n)⟩

/-- A frame over fewer zones is a frame over more. -/
theorem onlyIn_mono {s t : State} {l m : List Zone} (h : s.onlyIn t l) (k : l.all (m.contains ·) = true) : s.onlyIn t m :=
  ⟨fun p n => h.rest p fun q => n (by
    have := List.all_eq_true.mp k p q
    simpa using this)⟩

theorem onlyIn_ite {s t u : State} {l : List Zone} (c : Prop) [Decidable c] (h : s.onlyIn t l) (k : s.onlyIn u l) :
    s.onlyIn (if c then t else u) l := by
  split <;> assumption

/-- A fold keeps the frame of its steps. -/
theorem onlyIn_foldl {α : Type} {l : List Zone} (f : State → α → State) (h : ∀ (s : State) (a : α), s.onlyIn (f s a) l) (as : List α)
    (s : State) : s.onlyIn (as.foldl f s) l := by
  induction as generalizing s with
  | nil => exact onlyIn_refl s l
  | cons a r ih => exact onlyIn_trans (h s a) (ih _)

variable (s : State) (x : Carrier)

theorem State.bump_only (r : RegId) (i n : Nat) : s.onlyIn (s.bump r i n) [.counters] := by
  refine ⟨fun p h => ?_⟩
  cases p <;> first | rfl | exact ⟨rfl, rfl⟩ | exact ⟨rfl, rfl, rfl⟩ |
    exact ⟨rfl, rfl, rfl, rfl, rfl⟩ | simp at h

theorem State.bump64_only (r : RegId) (i n : Nat) : s.onlyIn (s.bump64 r i n) [.counters] := by
  refine ⟨fun p h => ?_⟩
  cases p <;> first | rfl | exact ⟨rfl, rfl⟩ | exact ⟨rfl, rfl, rfl⟩ |
    exact ⟨rfl, rfl, rfl, rfl, rfl⟩ | simp at h

theorem State.bumpx_only (r : RegId) (n i : Nat) : s.onlyIn (s.bumpx r x n i) [.counters] := by
  refine ⟨fun p h => ?_⟩
  cases p <;> first | rfl | exact ⟨rfl, rfl⟩ | exact ⟨rfl, rfl, rfl⟩ |
    exact ⟨rfl, rfl, rfl, rfl, rfl⟩ | simp at h

theorem State.bumpx64_only (r : RegId) (n i : Nat) : s.onlyIn (s.bumpx64 r x n i) [.counters] := by
  refine ⟨fun p h => ?_⟩
  cases p <;> first | rfl | exact ⟨rfl, rfl⟩ | exact ⟨rfl, rfl, rfl⟩ |
    exact ⟨rfl, rfl, rfl, rfl, rfl⟩ | simp at h

theorem State.post_only (a b c d : Nat) (l : Bytes) : s.onlyIn (s.post a b c d l) evParts := by
  refine ⟨fun p h => ?_⟩
  cases p <;> simp_all [State.keeps, evParts]

theorem State.occ_only (a b c : Nat) (l : Bytes) : s.onlyIn (s.occ a b c l) evParts := by
  refine ⟨fun p h => ?_⟩
  cases p <;> simp_all [State.keeps, evParts]

theorem State.raise_only (a b c d : Nat) (l : Bytes) : s.onlyIn (s.raise a b c l d) defParts := by
  refine ⟨fun p h => ?_⟩
  cases p <;> simp_all [State.keeps, defParts]

theorem State.clear_only (a b c d : Nat) (l : Bytes) : s.onlyIn (s.clear a b c l d) defParts := by
  refine ⟨fun p h => ?_⟩
  cases p <;> simp_all [State.keeps, defParts]

theorem State.defect_only (b0 : Bool) (a b c d : Nat) (l : Bytes) : s.onlyIn (s.defect b0 a b c l d) defParts := by
  refine ⟨fun p h => ?_⟩
  cases p <;> simp_all [State.keeps, defParts]

theorem State.emit_only (o : Out) : s.onlyIn (s.emit o) [.records] := by
  refine ⟨fun p h => ?_⟩
  cases p <;> simp_all [State.keeps] <;> simp [State.emit]

theorem State.forget_only (a b c d : Nat) : s.onlyIn (s.forget a b c d) [.defects] := by
  refine ⟨fun p h => ?_⟩
  cases p <;> simp_all [State.keeps] <;> simp [State.forget]

theorem State.signal_only (a b c n : Nat) : s.onlyIn (s.signal a b c n) evParts := by
  refine ⟨fun p h => ?_⟩
  cases p <;> simp_all [State.keeps, evParts] <;> simp [State.signal]

theorem State.modFe_only (f : Fe → Fe) : s.onlyIn (s.modFe x f) [.fe x] := by
  refine ⟨fun p h => ?_⟩
  cases p with
  | fe y =>
    have : y ≠ x := by rintro rfl; simp at h
    simp [State.keeps, State.modFe_car_ne _ _ _ _ this]
  | _ => simp [State.keeps]

theorem State.modRxc_only (f : Rxc → Rxc) : s.onlyIn (s.modRxc x f) [.rxc x] := by
  refine ⟨fun p h => ?_⟩
  cases p with
  | rxc y =>
    have : y ≠ x := by rintro rfl; simp at h
    simp [State.keeps, State.modRxc_car_ne _ _ _ _ this]
  | _ => simp [State.keeps]

theorem State.modFec_only (f : Fec → Fec) : s.onlyIn (s.modFec x f) [.fec x] := by
  refine ⟨fun p h => ?_⟩
  cases p with
  | fec y =>
    have : y ≠ x := by rintro rfl; simp at h
    simp [State.keeps, State.modFec_car_ne _ _ _ _ this]
  | _ => simp [State.keeps]

theorem State.modTx_only (f : TxCh → TxCh) : s.onlyIn (s.modTx x f) [.tx x] := by
  refine ⟨fun p h => ?_⟩
  cases p with
  | tx y =>
    have : y ≠ x := by rintro rfl; simp at h
    simp [State.keeps, State.modTx_car_ne _ _ _ _ this]
  | _ => simp [State.keeps]

theorem State.modPlan_only (f : Plan → Plan) : s.onlyIn (s.modPlan x f) [.plan x] := by
  refine ⟨fun p h => ?_⟩
  cases p with
  | plan y =>
    have : y ≠ x := by rintro rfl; simp at h
    simp [State.keeps, State.modPlan_car_ne _ _ _ _ this]
  | _ => simp [State.keeps]

theorem State.modTr_only (f : Tr → Tr) : s.onlyIn (s.modTr x f) [.tr x] := by
  refine ⟨fun p h => ?_⟩
  cases p with
  | tr y =>
    have : y ≠ x := by rintro rfl; simp at h
    simp [State.keeps, State.modTr_car_ne _ _ _ _ this]
  | _ => simp [State.keeps]

theorem State.modTk_only (f : Tack → Tack) : s.onlyIn (s.modTk x f) [.tk x] := by
  refine ⟨fun p h => ?_⟩
  cases p with
  | tk y =>
    have : y ≠ x := by rintro rfl; simp at h
    simp [State.keeps, State.modTk_car_ne _ _ _ _ this]
  | _ => simp [State.keeps]

theorem State.modCm_only (f : Crease → Crease) : s.onlyIn (s.modCm x f) [.cm x] := by
  refine ⟨fun p h => ?_⟩
  cases p with
  | cm y =>
    have : y ≠ x := by rintro rfl; simp at h
    simp [State.keeps, State.modCm_car_ne _ _ _ _ this]
  | _ => simp [State.keeps]

theorem State.modSys_only (f : Sys → Sys) : s.onlyIn (s.modSys f) [.sys] := by
  refine ⟨fun p h => ?_⟩
  cases p <;> simp_all [State.keeps]

theorem State.modBoot_only (f : Boot → Boot) : s.onlyIn (s.modBoot f) [.boot] := by
  refine ⟨fun p h => ?_⟩
  cases p <;> simp_all [State.keeps]

theorem State.modSeam_only (f : Seam → Seam) : s.onlyIn (s.modSeam f) [.seam] := by
  refine ⟨fun p h => ?_⟩
  cases p <;> simp_all [State.keeps]

theorem State.modMon_only (f : Mon → Mon) : s.onlyIn (s.modMon f) [.mon] := by
  refine ⟨fun p h => ?_⟩
  cases p <;> simp_all [State.keeps]

theorem State.modMem_only (m : Nat) (f : MemSt → MemSt) : s.onlyIn (s.modMem m f) [.mem] := by
  refine ⟨fun p h => ?_⟩
  cases p <;> simp_all [State.keeps]

theorem State.setWord_only (k : RegKey) (w : Word) : s.onlyIn (s.setWord k w) [.regs] := by
  refine ⟨fun p h => ?_⟩
  cases p <;> simp_all [State.keeps]

theorem State.setField_only (f : Fref) (i v : Nat) : s.onlyIn (s.setField f i v) [.regs] := by
  refine ⟨fun p h => ?_⟩
  cases p <;> simp_all [State.keeps]

theorem State.setFieldx_only (f : Fref) (i v : Nat) : s.onlyIn (s.setFieldx f x i v) [.regs] := by
  refine ⟨fun p h => ?_⟩
  cases p <;> simp_all [State.keeps]

theorem State.stage_only (k : RegKey) (v m : Word) : s.onlyIn (s.stage k v m) [.regs] := by
  refine ⟨fun p h => ?_⟩
  cases p <;> simp_all [State.keeps]

theorem State.modChan_only (c : Nat) (f : Chan → Chan) : s.onlyIn (s.modChan c f) [.cli] := by
  refine ⟨fun p h => ?_⟩
  cases p with
  | cli => simp at h
  | _ => simp [State.keeps] <;> first | rfl | exact ⟨rfl, rfl⟩ | exact ⟨rfl, rfl, rfl⟩ | exact ⟨rfl, rfl, rfl, rfl, rfl⟩ | (cases ‹Carrier› <;> rfl)

theorem State.modSch_only (c : Nat) (f : SeamCh → SeamCh) : s.onlyIn (s.modSch c f) [.seam] := by
  refine ⟨fun p h => ?_⟩
  cases p with
  | seam => simp at h
  | _ => simp [State.keeps] <;> first | rfl | exact ⟨rfl, rfl⟩ | exact ⟨rfl, rfl, rfl⟩ | exact ⟨rfl, rfl, rfl, rfl, rfl⟩ | (cases ‹Carrier› <;> rfl)

/-- What follows a condition stays behind it. -/
theorem State.settle_only : s.onlyIn (s.settle x) (behind x) := by
  refine ⟨fun p h => ?_⟩
  cases p with
  | rxc y | fec y | tx y | plan y | tr y | tk y =>
    have : y ≠ x := by rintro rfl; simp [behind] at h
    simp [State.keeps, State.settle_other s x y this]
  | _ => simp_all [State.keeps, behind]

/-- What follows a condition stays behind it. -/
theorem State.txSettle_only : s.onlyIn (s.txSettle x) (behind x) := by
  refine ⟨fun p h => ?_⟩
  cases p with
  | rxc y | fec y | tx y | plan y | tr y | tk y =>
    have : y ≠ x := by rintro rfl; simp [behind] at h
    simp [State.keeps, State.txSettle_other s x y this]
  | _ => simp_all [State.keeps, behind]

/-- The zones that the evaluation of channels may change. -/
theorem State.chEvalAll_only : s.onlyIn s.chEvalAll (defParts ++ [.regs, .ciph, .seam, .cli]) := by
  refine ⟨fun p h => ?_⟩
  cases p <;> simp_all [State.keeps, defParts]

/-! ### Frames by rewriting: an operation inside a frame over its zones can be dropped -/

theorem keeps_symm {s t : State} {p : Zone} (h : s.keeps t p) : t.keeps s p := by
  cases p <;> simp_all [State.keeps]

/-- An operation whose zones are listed does not matter to a frame. -/
theorem onlyIn_drop {s t u : State} {l m : List Zone} (k : t.onlyIn u m) (h : ∀ z ∈ m, z ∈ l) :
    s.onlyIn u l ↔ s.onlyIn t l :=
  ⟨fun f => ⟨fun p n => keeps_trans (f.rest p n) (keeps_symm (k.rest p fun q => n (h p q)))⟩,
   fun f => ⟨fun p n => keeps_trans (f.rest p n) (k.rest p fun q => n (h p q))⟩⟩

@[simp] theorem onlyIn_self (s : State) (l : List Zone) : s.onlyIn s l := onlyIn_refl s l

@[simp] theorem onlyIn_if {s t u : State} {l : List Zone} (c : Prop) [Decidable c] :
    s.onlyIn (if c then t else u) l ↔ if c then s.onlyIn t l else s.onlyIn u l := by
  split <;> rfl

variable {t : State} {l : List Zone}

@[simp] theorem onlyIn_bump (r : RegId) (i n : Nat) (h0 : .counters ∈ l) :
    s.onlyIn (t.bump r i n) l ↔ s.onlyIn t l := onlyIn_drop (State.bump_only ..) (fun z hz => by
  simp at hz
  subst hz; assumption)

@[simp] theorem onlyIn_bump64 (r : RegId) (i n : Nat) (h0 : .counters ∈ l) :
    s.onlyIn (t.bump64 r i n) l ↔ s.onlyIn t l := onlyIn_drop (State.bump64_only ..) (fun z hz => by
  simp at hz
  subst hz; assumption)

@[simp] theorem onlyIn_bumpx (r : RegId) (n i : Nat) (h0 : .counters ∈ l) :
    s.onlyIn (t.bumpx r x n i) l ↔ s.onlyIn t l := onlyIn_drop (State.bumpx_only ..) (fun z hz => by
  simp at hz
  subst hz; assumption)

@[simp] theorem onlyIn_bumpx64 (r : RegId) (n i : Nat) (h0 : .counters ∈ l) :
    s.onlyIn (t.bumpx64 r x n i) l ↔ s.onlyIn t l := onlyIn_drop (State.bumpx64_only ..) (fun z hz => by
  simp at hz
  subst hz; assumption)

@[simp] theorem onlyIn_post (a b c d : Nat) (y : Bytes) (h0 : .records ∈ l) (h1 : .counters ∈ l) :
    s.onlyIn (t.post a b c d y) l ↔ s.onlyIn t l := onlyIn_drop (State.post_only ..) (fun z hz => by
  simp [evParts] at hz
  rcases hz with rfl | rfl <;> assumption)

@[simp] theorem onlyIn_occ (a b c : Nat) (y : Bytes) (h0 : .records ∈ l) (h1 : .counters ∈ l) :
    s.onlyIn (t.occ a b c y) l ↔ s.onlyIn t l := onlyIn_drop (State.occ_only ..) (fun z hz => by
  simp [evParts] at hz
  rcases hz with rfl | rfl <;> assumption)

@[simp] theorem onlyIn_raise (a b c d : Nat) (y : Bytes) (h0 : .records ∈ l) (h1 : .counters ∈ l) (h2 : .defects ∈ l) :
    s.onlyIn (t.raise a b c y d) l ↔ s.onlyIn t l := onlyIn_drop (State.raise_only ..) (fun z hz => by
  simp [defParts] at hz
  rcases hz with rfl | rfl | rfl <;> assumption)

@[simp] theorem onlyIn_clear (a b c d : Nat) (y : Bytes) (h0 : .records ∈ l) (h1 : .counters ∈ l) (h2 : .defects ∈ l) :
    s.onlyIn (t.clear a b c y d) l ↔ s.onlyIn t l := onlyIn_drop (State.clear_only ..) (fun z hz => by
  simp [defParts] at hz
  rcases hz with rfl | rfl | rfl <;> assumption)

@[simp] theorem onlyIn_defect (b0 : Bool) (a b c d : Nat) (y : Bytes) (h0 : .records ∈ l) (h1 : .counters ∈ l) (h2 : .defects ∈ l) :
    s.onlyIn (t.defect b0 a b c y d) l ↔ s.onlyIn t l := onlyIn_drop (State.defect_only ..) (fun z hz => by
  simp [defParts] at hz
  rcases hz with rfl | rfl | rfl <;> assumption)

@[simp] theorem onlyIn_emit (o : Out) (h0 : .records ∈ l) :
    s.onlyIn (t.emit o) l ↔ s.onlyIn t l := onlyIn_drop (State.emit_only ..) (fun z hz => by
  simp at hz
  subst hz; assumption)

@[simp] theorem onlyIn_forget (a b c d : Nat) (h0 : .defects ∈ l) :
    s.onlyIn (t.forget a b c d) l ↔ s.onlyIn t l := onlyIn_drop (State.forget_only ..) (fun z hz => by
  simp at hz
  subst hz; assumption)

@[simp] theorem onlyIn_signal (a b c n : Nat) (h0 : .records ∈ l) (h1 : .counters ∈ l) :
    s.onlyIn (t.signal a b c n) l ↔ s.onlyIn t l := onlyIn_drop (State.signal_only ..) (fun z hz => by
  simp [evParts] at hz
  rcases hz with rfl | rfl <;> assumption)

@[simp] theorem onlyIn_modFe (f : Fe → Fe) (h0 : .fe x ∈ l) :
    s.onlyIn (t.modFe x f) l ↔ s.onlyIn t l := onlyIn_drop (State.modFe_only ..) (fun z hz => by
  simp at hz
  subst hz; assumption)

@[simp] theorem onlyIn_modRxc (f : Rxc → Rxc) (h0 : .rxc x ∈ l) :
    s.onlyIn (t.modRxc x f) l ↔ s.onlyIn t l := onlyIn_drop (State.modRxc_only ..) (fun z hz => by
  simp at hz
  subst hz; assumption)

@[simp] theorem onlyIn_modFec (f : Fec → Fec) (h0 : .fec x ∈ l) :
    s.onlyIn (t.modFec x f) l ↔ s.onlyIn t l := onlyIn_drop (State.modFec_only ..) (fun z hz => by
  simp at hz
  subst hz; assumption)

@[simp] theorem onlyIn_modTx (f : TxCh → TxCh) (h0 : .tx x ∈ l) :
    s.onlyIn (t.modTx x f) l ↔ s.onlyIn t l := onlyIn_drop (State.modTx_only ..) (fun z hz => by
  simp at hz
  subst hz; assumption)

@[simp] theorem onlyIn_modPlan (f : Plan → Plan) (h0 : .plan x ∈ l) :
    s.onlyIn (t.modPlan x f) l ↔ s.onlyIn t l := onlyIn_drop (State.modPlan_only ..) (fun z hz => by
  simp at hz
  subst hz; assumption)

@[simp] theorem onlyIn_modTr (f : Tr → Tr) (h0 : .tr x ∈ l) :
    s.onlyIn (t.modTr x f) l ↔ s.onlyIn t l := onlyIn_drop (State.modTr_only ..) (fun z hz => by
  simp at hz
  subst hz; assumption)

@[simp] theorem onlyIn_modTk (f : Tack → Tack) (h0 : .tk x ∈ l) :
    s.onlyIn (t.modTk x f) l ↔ s.onlyIn t l := onlyIn_drop (State.modTk_only ..) (fun z hz => by
  simp at hz
  subst hz; assumption)

@[simp] theorem onlyIn_modCm (f : Crease → Crease) (h0 : .cm x ∈ l) :
    s.onlyIn (t.modCm x f) l ↔ s.onlyIn t l := onlyIn_drop (State.modCm_only ..) (fun z hz => by
  simp at hz
  subst hz; assumption)

@[simp] theorem onlyIn_modSys (f : Sys → Sys) (h0 : .sys ∈ l) :
    s.onlyIn (t.modSys f) l ↔ s.onlyIn t l := onlyIn_drop (State.modSys_only ..) (fun z hz => by
  simp at hz
  subst hz; assumption)

@[simp] theorem onlyIn_modBoot (f : Boot → Boot) (h0 : .boot ∈ l) :
    s.onlyIn (t.modBoot f) l ↔ s.onlyIn t l := onlyIn_drop (State.modBoot_only ..) (fun z hz => by
  simp at hz
  subst hz; assumption)

@[simp] theorem onlyIn_modSeam (f : Seam → Seam) (h0 : .seam ∈ l) :
    s.onlyIn (t.modSeam f) l ↔ s.onlyIn t l := onlyIn_drop (State.modSeam_only ..) (fun z hz => by
  simp at hz
  subst hz; assumption)

@[simp] theorem onlyIn_modMon (f : Mon → Mon) (h0 : .mon ∈ l) :
    s.onlyIn (t.modMon f) l ↔ s.onlyIn t l := onlyIn_drop (State.modMon_only ..) (fun z hz => by
  simp at hz
  subst hz; assumption)

@[simp] theorem onlyIn_modMem (m : Nat) (f : MemSt → MemSt) (h0 : .mem ∈ l) :
    s.onlyIn (t.modMem m f) l ↔ s.onlyIn t l := onlyIn_drop (State.modMem_only ..) (fun z hz => by
  simp at hz
  subst hz; assumption)

@[simp] theorem onlyIn_setWord (k : RegKey) (w : Word) (h0 : .regs ∈ l) :
    s.onlyIn (t.setWord k w) l ↔ s.onlyIn t l := onlyIn_drop (State.setWord_only ..) (fun z hz => by
  simp at hz
  subst hz; assumption)

@[simp] theorem onlyIn_setField (f : Fref) (i v : Nat) (h0 : .regs ∈ l) :
    s.onlyIn (t.setField f i v) l ↔ s.onlyIn t l := onlyIn_drop (State.setField_only ..) (fun z hz => by
  simp at hz
  subst hz; assumption)

@[simp] theorem onlyIn_setFieldx (f : Fref) (i v : Nat) (h0 : .regs ∈ l) :
    s.onlyIn (t.setFieldx f x i v) l ↔ s.onlyIn t l := onlyIn_drop (State.setFieldx_only ..) (fun z hz => by
  simp at hz
  subst hz; assumption)

@[simp] theorem onlyIn_stage (k : RegKey) (v m : Word) (h0 : .regs ∈ l) :
    s.onlyIn (t.stage k v m) l ↔ s.onlyIn t l := onlyIn_drop (State.stage_only ..) (fun z hz => by
  simp at hz
  subst hz; assumption)

@[simp] theorem onlyIn_modChan (c : Nat) (f : Chan → Chan) (h0 : .cli ∈ l) :
    s.onlyIn (t.modChan c f) l ↔ s.onlyIn t l := onlyIn_drop (State.modChan_only ..) (fun z hz => by
  simp at hz
  subst hz; assumption)

@[simp] theorem onlyIn_modSch (c : Nat) (f : SeamCh → SeamCh) (h0 : .seam ∈ l) :
    s.onlyIn (t.modSch c f) l ↔ s.onlyIn t l := onlyIn_drop (State.modSch_only ..) (fun z hz => by
  simp at hz
  subst hz; assumption)

@[simp] theorem onlyIn_settle  (h0 : .records ∈ l) (h1 : .counters ∈ l) (h2 : .defects ∈ l) (h3 : .regs ∈ l) (h4 : .rxc x ∈ l) (h5 : .fec x ∈ l) (h6 : .tx x ∈ l) (h7 : .plan x ∈ l) (h8 : .tr x ∈ l) (h9 : .tk x ∈ l) (h10 : .ciph ∈ l) (h11 : .seam ∈ l) (h12 : .cli ∈ l) :
    s.onlyIn (t.settle x) l ↔ s.onlyIn t l := onlyIn_drop (State.settle_only ..) (fun z hz => by
  simp [behind] at hz
  rcases hz with rfl | rfl | rfl | rfl | rfl | rfl | rfl | rfl | rfl | rfl | rfl | rfl | rfl <;> assumption)

@[simp] theorem onlyIn_txSettle  (h0 : .records ∈ l) (h1 : .counters ∈ l) (h2 : .defects ∈ l) (h3 : .regs ∈ l) (h4 : .rxc x ∈ l) (h5 : .fec x ∈ l) (h6 : .tx x ∈ l) (h7 : .plan x ∈ l) (h8 : .tr x ∈ l) (h9 : .tk x ∈ l) (h10 : .ciph ∈ l) (h11 : .seam ∈ l) (h12 : .cli ∈ l) :
    s.onlyIn (t.txSettle x) l ↔ s.onlyIn t l := onlyIn_drop (State.txSettle_only ..) (fun z hz => by
  simp [behind] at hz
  rcases hz with rfl | rfl | rfl | rfl | rfl | rfl | rfl | rfl | rfl | rfl | rfl | rfl | rfl <;> assumption)

@[simp] theorem onlyIn_chEvalAll  (h0 : .records ∈ l) (h1 : .counters ∈ l) (h2 : .defects ∈ l) (h3 : .regs ∈ l) (h4 : .ciph ∈ l) (h5 : .seam ∈ l) (h6 : .cli ∈ l) :
    s.onlyIn (t.chEvalAll) l ↔ s.onlyIn t l := onlyIn_drop (State.chEvalAll_only ..) (fun z hz => by
  simp [defParts] at hz
  rcases hz with rfl | rfl | rfl | rfl | rfl | rfl | rfl <;> assumption)

end Sys2Proof.Machine
end

