-- ==== Sys2Proof/Laws/Memory.lean ====
section
/-! SUPPORT. The cells of the table windows keep their canonical form, and a byte written is the byte read. -/

namespace Sys2Proof.Machine

theorem cellsFrom_mono (m : List Host.Cell) (i j : Nat) (h : i ≤ j) (w : cellsFrom j m = true) : cellsFrom i m = true := by
  cases m with
  | nil => rfl
  | cons e r =>
    obtain ⟨a, b⟩ := e
    simp only [cellsFrom, Bool.and_eq_true, decide_eq_true_eq] at w ⊢
    exact ⟨⟨Nat.le_trans h w.1.1, w.1.2⟩, w.2⟩

/-- Writing a byte keeps the canonical form above every bound that the address and the cells keep. -/
theorem cellsPut_from (m : List Host.Cell) (lo a : Nat) (v : Byte) (h : lo ≤ a) (w : cellsFrom lo m = true) :
    cellsFrom lo (cellsPut m a v) = true := by
  induction m generalizing lo with
  | nil =>
    by_cases z : v = 0
    · simp [cellsPut, z, cellsFrom]
    · have z' : v ≠ 0#8 := z
      simp [cellsPut, z', cellsFrom, h]
  | cons e r ih =>
    obtain ⟨k, b⟩ := e
    simp only [cellsFrom, Bool.and_eq_true, decide_eq_true_eq] at w
    obtain ⟨⟨hk, hb⟩, hr⟩ := w
    have hb : b ≠ 0#8 := by simpa using hb
    unfold cellsPut
    split
    · next lt =>
      split
      · simp [cellsFrom, hk, hb, hr]
      · next z =>
        have : a + 1 ≤ k := lt
        have : v ≠ 0#8 := z
        simp_all [cellsFrom]
    · next ge =>
      split
      · next eq =>
        subst eq
        split
        · exact cellsFrom_mono _ _ _ (by omega) hr
        · next z =>
          have : v ≠ 0#8 := z
          simp_all [cellsFrom]
      · next ne =>
        have := ih (k + 1) (by omega) hr
        simp [cellsFrom, hk, hb, this]

/-- Writing a byte keeps the canonical form. -/
theorem cellsPut_wf (m : List Host.Cell) (a : Nat) (v : Byte) (w : Memory.wf m = true) :
    Memory.wf (cellsPut m a v) = true := cellsPut_from m 0 a v (Nat.zero_le _) w

/-- Writing a run of bytes keeps the canonical form. -/
theorem cellsWrite_wf (m : List Host.Cell) (a : Nat) (l : Bytes) (w : Memory.wf m = true) :
    Memory.wf (cellsWrite m a l) = true := by
  induction l generalizing m a with
  | nil => exact w
  | cons b r ih => exact ih _ _ (cellsPut_wf m a b w)

theorem State.winWrite_wf (s : State) (a : Nat) (l : Bytes) (w : Memory.wf s.mem.windows = true) :
    Memory.wf (s.winWrite a l).mem.windows = true := cellsWrite_wf _ _ _ w

theorem cellsGet_below (m : List Host.Cell) (lo a : Nat) (w : cellsFrom lo m = true) (h : a < lo) : cellsGet m a = 0 := by
  cases m with
  | nil => rfl
  | cons e r =>
    obtain ⟨k, b⟩ := e
    simp only [cellsFrom, Bool.and_eq_true, decide_eq_true_eq] at w
    have : a < k := by omega
    simp [cellsGet, this]

/-- The byte read at an address after a write: the byte written there, elsewhere what stood. -/
theorem cellsGet_put_from (m : List Host.Cell) (lo a c : Nat) (v : Byte) (w : cellsFrom lo m = true) :
    cellsGet (cellsPut m a v) c = if c = a then v else cellsGet m c := by
  induction m generalizing lo with
  | nil =>
    by_cases z : v = 0
    · simp [cellsPut, z, cellsGet]
    · simp only [cellsPut, z, if_false, cellsGet]
      split
      · next h => simp [Nat.ne_of_lt h]
      · rfl
  | cons e r ih =>
    obtain ⟨k, b⟩ := e
    simp only [cellsFrom, Bool.and_eq_true, decide_eq_true_eq] at w
    unfold cellsPut
    split
    · next lt =>
      split
      · next z =>
        by_cases e : c = a
        · subst e; simp [cellsGet, lt, z]
        · simp [e]
      · simp only [cellsGet]
        by_cases e : c = a
        · subst e; simp
        · by_cases l : c < a
          · have : c < k := by omega
            simp [e, l, this]
          · simp [e, l]
    · next ge =>
      split
      · next eq =>
        subst eq
        split
        · next z =>
          by_cases e : c = a
          · subst e
            simp [z, cellsGet_below r (c + 1) c w.2 (by omega)]
          · by_cases l : c < a
            · simp [e, cellsGet, l, cellsGet_below r (a + 1) c w.2 (by omega)]
            · simp [e, cellsGet, l]
        · by_cases e : c = a
          · subst e; simp [cellsGet]
          · simp [e, cellsGet]
      · next ne =>
        have := ih (k + 1) w.2
        simp only [cellsGet, this]
        by_cases e : c = a
        · subst e
          have : ¬ c < k := ge
          simp [this, ne]
        · simp [e]

/-- Read after write of one byte. -/
theorem cellsGet_put (m : List Host.Cell) (a c : Nat) (v : Byte) (w : Memory.wf m = true) :
    cellsGet (cellsPut m a v) c = if c = a then v else cellsGet m c := cellsGet_put_from m 0 a c v w

/-- Read after write of a run of bytes. -/
theorem cellsGet_write (m : List Host.Cell) (a c : Nat) (l : Bytes) (w : Memory.wf m = true) :
    cellsGet (cellsWrite m a l) c = if h : a ≤ c ∧ c - a < l.length then l[c - a]'h.2 else cellsGet m c := by
  induction l generalizing m a with
  | nil => simp [cellsWrite]
  | cons b r ih =>
    rw [cellsWrite, ih _ _ (cellsPut_wf m a b w), cellsGet_put m a c b w]
    by_cases e : c = a
    · subst e
      simp [show ¬ c + 1 ≤ c by omega]
    · by_cases l : a ≤ c
      · have h1 : a + 1 ≤ c := by omega
        have h2 : c - a = (c - (a + 1)) + 1 := by omega
        by_cases q : c - (a + 1) < r.length
        · have : c - a < (b :: r).length := by simp; omega
          simp only [h1, q, true_and, l, this, dif_pos]
          simp [h2]
        · have t : ¬ (a ≤ c ∧ c - a < (b :: r).length) := by simp; omega
          rw [dif_neg t]
          simp [q, e]
      · simp [l, e, show ¬ a + 1 ≤ c by omega]

end Sys2Proof.Machine
end

