-- ==== Sys2Proof/Laws/Rings.lean ====
section
/-! SUPPORT. Command rings: what completing a command may change, and that a command that can run does. -/

namespace Sys2Proof.Machine

theorem ioStill_only (s : State) (io : Io) (h : io.still = s.io.still) : s.onlyIn { s with io := io } evParts := by
  simp only [Io.still, Prod.mk.injEq] at h
  obtain ⟨a, b, c, d, e, f, g, i, j, k, l, m⟩ := h
  refine ⟨fun p h => ?_⟩
  cases p <;> first | (cases ‹Carrier› <;> rfl) | simp_all [State.keeps, evParts]

theorem State.msixOnly (s : State) (f : Fn) (v : Nat) : s.onlyIn { s with io := s.io.msix s.rd f v } evParts :=
  ioStill_only s _ (by simp)

theorem State.drainAll_only (s : State) : s.onlyIn s.drainAll evParts := ioStill_only s _ (by simp)

theorem State.modRing_only (s : State) (fn : Fn) (r : Nat) (f : CmdRing → CmdRing) : s.onlyIn (s.modRing fn r f) [.rings] := by
  refine ⟨fun p h => ?_⟩
  cases p <;> first | rfl | exact ⟨rfl, rfl⟩ | exact ⟨rfl, rfl, rfl⟩ | exact ⟨rfl, rfl, rfl, rfl, rfl⟩ | (simp at h)

@[simp] theorem onlyIn_modRing {s t : State} {l : List Zone} (fn : Fn) (r : Nat) (f : CmdRing → CmdRing) (h : .rings ∈ l) :
    s.onlyIn (t.modRing fn r f) l ↔ s.onlyIn t l := onlyIn_drop (t.modRing_only fn r f) (by simpa using h)

@[simp] theorem onlyIn_drainAll {s t : State} {l : List Zone} (h : .records ∈ l) (g : .counters ∈ l) :
    s.onlyIn t.drainAll l ↔ s.onlyIn t l := onlyIn_drop t.drainAll_only (by simp [evParts, h, g])

@[simp] theorem State.modRing_ring (s : State) (fn : Fn) (r : Nat) (f : CmdRing → CmdRing) :
    (s.modRing fn r f).ring fn r = f (s.ring fn r) := by simp [State.modRing, State.ring]

theorem State.modRing_ring_ne (s : State) (fn gn : Fn) (r q : Nat) (f : CmdRing → CmdRing) (h : (gn, q) ≠ (fn, r)) :
    (s.modRing fn r f).ring gn q = s.ring gn q := by simp [State.modRing, State.ring, agetD_aset_ne _ _ _ _ _ h]

theorem State.ring_of_rings {s t : State} (fn : Fn) (r : Nat) (h : t.io.rings = s.io.rings) : t.ring fn r = s.ring fn r := by
  simp [State.ring, h]

theorem State.cplOut_only (s : State) (fn : Fn) (r : Nat) (h : HeldCpl) : s.onlyIn (s.cplOut fn r h) evParts := by
  unfold State.cplOut
  dsimp only
  split
  · exact onlyIn_trans (by simp [evParts]) (State.msixOnly _ _ _)
  · simp [evParts]

@[simp] theorem State.cplOut_rings (s : State) (fn : Fn) (r : Nat) (h : HeldCpl) : (s.cplOut fn r h).io.rings = s.io.rings :=
  ((s.cplOut_only fn r h).rest .rings (by simp [evParts])).1

theorem State.cplWrite_only (s : State) (fn : Fn) (r : Nat) (d : Bytes) (a b : Nat) :
    s.onlyIn (s.cplWrite fn r d a b) (.rings :: evParts) := by
  unfold State.cplWrite
  dsimp only
  split
  · exact onlyIn_trans (by simp) (onlyIn_mono (State.cplOut_only ..) (by decide))
  · simp

theorem State.ringHalt_only (s : State) (fn : Fn) (r c : Nat) (d : Bytes) : s.onlyIn (s.ringHalt fn r c d) cmdParts := by
  unfold State.ringHalt
  simp [cmdParts, defParts]

theorem State.accept_only (s : State) (fn : Fn) (r : Nat) (d : Bytes) : s.onlyIn (s.accept fn r d) cmdParts := by
  unfold State.accept
  dsimp only
  split
  · exact onlyIn_trans (by simp [cmdParts]) (onlyIn_mono (State.cplWrite_only ..) (by decide))
  · simp [cmdParts]

theorem State.dispatch_only (s : State) (fn : Fn) (r n : Nat) : s.onlyIn (s.dispatch fn r n) cmdParts := by
  induction n generalizing s with
  | zero => exact onlyIn_refl s _
  | succ n ih =>
    unfold State.dispatch
    dsimp only
    split
    · exact onlyIn_refl s _
    · split
      · exact onlyIn_refl s _
      · split
        · exact onlyIn_trans (onlyIn_trans (by simp [cmdParts]) (State.accept_only ..)) (ih _)
        · exact State.ringHalt_only ..
        · simp [cmdParts]

theorem State.arbServe_only (s : State) (fn : Fn) (r : Nat) : s.onlyIn (s.arbServe fn r) [.rings] := by
  unfold State.arbServe
  refine ⟨fun p h => ?_⟩
  cases fn <;> cases p <;> first | rfl | exact ⟨rfl, rfl⟩ | exact ⟨rfl, rfl, rfl⟩ | exact ⟨rfl, rfl, rfl, rfl, rfl⟩ |
    (simp at h)

theorem State.finish_only (s : State) (fn : Fn) (r a b : Nat) : s.onlyIn (s.finish fn r a b) cmdParts := by
  unfold State.finish
  split
  · exact onlyIn_trans (onlyIn_trans (onlyIn_mono (State.arbServe_only ..) (by decide))
      (onlyIn_mono (State.cplWrite_only ..) (by decide))) (State.dispatch_only ..)
  · exact onlyIn_refl s _

@[simp] theorem onlyIn_finish {s t : State} {l : List Zone} (fn : Fn) (r a b : Nat) (h : .rings ∈ l) (h1 : .records ∈ l)
    (h2 : .counters ∈ l) (h3 : .defects ∈ l) : s.onlyIn (t.finish fn r a b) l ↔ s.onlyIn t l :=
  onlyIn_drop (t.finish_only fn r a b) (by simp [cmdParts, defParts, h, h1, h2, h3])

/-- A command that runs on a ring does what its function says. -/
theorem command_runs (fn : Fn) (r op : Nat) (s : State) (c : ExecCmd) (f : Bytes → Bytes → State → Nat × Nat × (State → State))
    (h : s.sys.held = false) (g : s.running fn r op = some c) :
    command fn r op s f = .next ((f c.desc c.data s).2.2 (s.finish fn r (f c.desc c.data s).1 (f c.desc c.data s).2.1)) := by
  unfold command
  rw [live_running _ _ h]
  simp [g]

theorem running_exec {s : State} {fn : Fn} {r op : Nat} {c : ExecCmd} (g : s.running fn r op = some c) :
    (s.ring fn r).exec = some c := by
  unfold State.running at g
  split at g
  · rename_i e
    dsimp only at g
    split at g
    · rw [← g]; exact e
    · cases g
  · cases g

section
variable (s : State) (fn : Fn) (r a b : Nat)
@[simp] theorem State.finish_sys : (s.finish fn r a b).sys = s.sys := (s.finish_only fn r a b).rest .sys (by decide)
@[simp] theorem State.finish_regs : (s.finish fn r a b).regs = s.regs := (s.finish_only fn r a b).rest .regs (by decide)
@[simp] theorem State.finish_chk : (s.finish fn r a b).chk = s.chk := (s.finish_only fn r a b).rest .chk (by decide)
@[simp] theorem State.finish_sti : (s.finish fn r a b).sti = s.sti := (s.finish_only fn r a b).rest .sti (by decide)
@[simp] theorem State.finish_ciph : (s.finish fn r a b).ciph = s.ciph := (s.finish_only fn r a b).rest .ciph (by decide)
@[simp] theorem State.finish_seam : (s.finish fn r a b).seam = s.seam := (s.finish_only fn r a b).rest .seam (by decide)
@[simp] theorem State.finish_cli : (s.finish fn r a b).cli = s.cli := (s.finish_only fn r a b).rest .cli (by decide)
@[simp] theorem State.finish_tim : (s.finish fn r a b).tim = s.tim := (s.finish_only fn r a b).rest .tim (by decide)
@[simp] theorem State.finish_mon : (s.finish fn r a b).mon = s.mon := (s.finish_only fn r a b).rest .mon (by decide)
@[simp] theorem State.finish_cal : (s.finish fn r a b).cal = s.cal := (s.finish_only fn r a b).rest .cal (by decide)
@[simp] theorem State.finish_mem : (s.finish fn r a b).mem = s.mem := (s.finish_only fn r a b).rest .mem (by decide)
@[simp] theorem State.finish_cxl : (s.finish fn r a b).cxl = s.cxl := (s.finish_only fn r a b).rest .cxl (by decide)
@[simp] theorem State.finish_boot : (s.finish fn r a b).boot = s.boot := (s.finish_only fn r a b).rest .boot (by decide)
@[simp] theorem State.finish_retired : (s.finish fn r a b).retired = s.retired := (s.finish_only fn r a b).rest .retired (by decide)
@[simp] theorem State.finish_pending : (s.finish fn r a b).pending = s.pending := (s.finish_only fn r a b).rest .pending (by decide)
@[simp] theorem State.finish_car (x : Carrier) : (s.finish fn r a b).car x = s.car x := by
  have h := (s.finish_only fn r a b).rest
  have e : ∀ c d : Car, c.fe = d.fe → c.rxc = d.rxc → c.fec = d.fec → c.tx = d.tx → c.plan = d.plan → c.tr = d.tr →
      c.tk = d.tk → c.cm = d.cm → c = d := by
    intro c d; cases c; cases d; simp; intros; simp_all
  exact e _ _ (h (.fe x) (by cases x <;> decide)) (h (.rxc x) (by cases x <;> decide)) (h (.fec x) (by cases x <;> decide))
    (h (.tx x) (by cases x <;> decide)) (h (.plan x) (by cases x <;> decide)) (h (.tr x) (by cases x <;> decide))
    (h (.tk x) (by cases x <;> decide)) (h (.cm x) (by cases x <;> decide))
@[simp] theorem State.finish_rd : (s.finish fn r a b).rd = s.rd := by unfold State.rd; simp
@[simp] theorem State.finish_cf (f : Fref) (i : Nat) : (s.finish fn r a b).cf f i = s.cf f i := by simp [State.cf]
@[simp] theorem State.finish_cfx (f : Fref) (x : Carrier) : (s.finish fn r a b).cfx f x = s.cfx f x := by simp [State.cfx]
end

end Sys2Proof.Machine
end

