-- ==== Sys2Proof/Laws/Out.lean ====
section
/-! SUPPORT. What has gone out stays: records, defects and completions only put more before it. -/

namespace Sys2Proof.Machine

theorem foldl_suffix {α β γ : Type} (g : β → List γ) (f : β → α → β) (h : ∀ b a, g b <:+ g (f b a)) (l : List α) (b : β) :
    g b <:+ g (l.foldl f b) := by
  induction l generalizing b with
  | nil => exact List.suffix_refl _
  | cons a t ih => exact (h b a).trans (ih _)

@[simp] theorem Io.prfEdge_out (io : Io) (r : Rd) (a b c d n : Nat) : (io.prfEdge r a b c d n).out = io.out := by
  unfold Io.prfEdge
  split
  · rfl
  · exact foldl_keeps Io.out _ (fun b a => by split <;> rfl) _ _

@[simp] theorem Io.evtMark_out (io : Io) (e : Ev) : (io.evtMark e).out = io.out := by
  unfold Io.evtMark
  split
  · rfl
  · split <;> rfl

theorem Io.msix_out (io : Io) (r : Rd) (fn : Fn) (v : Nat) : io.out <:+ (io.msix r fn v).out := by
  unfold Io.msix
  split
  · exact List.suffix_refl _
  · simp

theorem Io.postTo_out (io : Io) (r : Rd) (e : Nat) (v : Ev) : io.out <:+ (io.postTo r e v).out := by
  unfold Io.postTo
  dsimp only
  split
  · exact List.IsSuffix.trans (by simp) (Io.msix_out _ _ _ _)
  · simp

theorem Io.offer_out (io : Io) (r : Rd) (cap : Nat) (t : Option Nat) (v : Ev) : io.out <:+ (io.offer r cap t v).1.out := by
  unfold Io.offer
  dsimp only
  split
  · exact Io.postTo_out _ _ _ _
  · split <;> exact List.suffix_refl _

theorem Io.record_out (io : Io) (r : Rd) (cap : Nat) (v : Ev) : io.out <:+ (io.record r cap v).out := by
  unfold Io.record
  dsimp only
  refine List.IsSuffix.trans ?_ (foldl_suffix Io.out _ (fun b a => Io.offer_out _ _ _ _ _) _ _)
  have h : ∀ i : Io, io.out = i.out → io.out <:+ (if (i.offer r cap none v).2 = true then (i.offer r cap none v).1.evtMark v else (i.offer r cap none v).1).out := by
    intro i e
    rw [e]
    split
    · rw [Io.evtMark_out]; exact Io.offer_out _ _ _ _ _
    · exact Io.offer_out _ _ _ _ _
  split
  · exact h _ (by simp)
  · exact h _ rfl

section
variable (s : State)

theorem State.post_out (a b c d : Nat) (l : Bytes) : s.io.out <:+ (s.post a b c d l).io.out := Io.record_out _ _ _ _
theorem State.occ_out (a b c : Nat) (l : Bytes) : s.io.out <:+ (s.occ a b c l).io.out := Io.record_out _ _ _ _
theorem State.raise_out (a b c d : Nat) (l : Bytes) : s.io.out <:+ (s.raise a b c l d).io.out := by
  unfold State.raise
  split
  · exact List.suffix_refl _
  · exact State.post_out { s with io := { s.io with defects := ⟨a, b, c, d⟩ :: s.io.defects } } a 1 b c l
theorem State.clear_out (a b c d : Nat) (l : Bytes) : s.io.out <:+ (s.clear a b c l d).io.out := by
  unfold State.clear
  split
  · exact State.post_out (s.forget a b c d) a 2 b c l
  · exact List.suffix_refl _

theorem State.cplOut_out (fn : Fn) (r : Nat) (h : HeldCpl) : .hostWrite h.addr h.data :: s.io.out <:+ (s.cplOut fn r h).io.out := by
  unfold State.cplOut
  dsimp only
  split
  · exact List.IsSuffix.trans (by simp [State.signal, State.emit]) (Io.msix_out _ _ _ _)
  · simp [State.signal, State.emit]

theorem State.cplWrite_out (fn : Fn) (r : Nat) (d : Bytes) (a b : Nat) : s.io.out <:+ (s.cplWrite fn r d a b).io.out := by
  unfold State.cplWrite
  dsimp only
  split
  · exact List.IsSuffix.trans (by simp [State.modRing]) (State.cplOut_out _ _ _ _)
  · simp [State.modRing]

theorem State.dispatch_out (fn : Fn) (r n : Nat) : s.io.out <:+ (s.dispatch fn r n).io.out := by
  induction n generalizing s with
  | zero => exact List.suffix_refl _
  | succ n ih =>
    unfold State.dispatch
    dsimp only
    split
    · exact List.suffix_refl _
    · split
      · exact List.suffix_refl _
      · split
        · refine List.IsSuffix.trans ?_ (ih _)
          unfold State.accept
          dsimp only
          split
          · exact List.IsSuffix.trans (by simp [State.modRing]) (State.cplWrite_out _ _ _ _ _ _)
          · simp [State.modRing]
        · unfold State.ringHalt
          exact List.IsSuffix.trans (by simp [State.modRing, State.bump, Io.bump]) (State.raise_out _ _ _ _ _ _)
        · simp [State.modRing]

theorem State.finish_out (fn : Fn) (r a b : Nat) : s.io.out <:+ (s.finish fn r a b).io.out := by
  unfold State.finish
  split
  · refine List.IsSuffix.trans ?_ (State.dispatch_out _ _ _ _)
    have h : (s.arbServe fn r).io.out = s.io.out := by cases fn <;> rfl
    rw [← h]
    exact State.cplWrite_out _ _ _ _ _ _
  · exact List.suffix_refl _

end

end Sys2Proof.Machine
end

