-- ==== Sys2Proof/Laws/Settle.lean ====
section
/-! SUPPORT. Where the units behind a condition stay as they are: channels and output leave the receive side alone, and a
receiver with a valid input stays in its state. -/

namespace Sys2Proof.Machine

variable (s : State) (x y : Carrier)

/-- Codes that the evaluation of channels raises and clears. -/
def chanCode (a : Nat) : Bool := a == 0x0A02 || a == 0x0A03 || a == 0x0B07

theorem State.defect_stands_ne (b0 : Bool) (a b c d : Nat) (l : Bytes) (e f g h : Nat)
    (n : ¬(e = a ∧ f = b ∧ g = c ∧ h = d)) : (s.defect b0 a b c l d).stands e f g h = s.stands e f g h := by
  unfold State.defect
  split
  · exact State.raise_stands_ne s a b c d l e f g h n
  · exact State.clear_stands_ne s a b c d l e f g h n

theorem State.copyUpdate_stands (c a b i d : Nat) : (s.copyUpdate c x).stands a b i d = s.stands a b i d := rfl

theorem State.seamProt_stands (c : Nat) (q : Bool) (a b i d : Nat) (h : chanCode a = false) :
    (s.seamProt c q).stands a b i d = s.stands a b i d := by
  simp only [chanCode, Bool.or_eq_false_iff, beq_eq_false_iff_ne] at h
  unfold State.seamProt
  dsimp only
  rw [State.defect_stands_ne _ _ _ _ _ _ _ _ _ _ _ (fun e => h.1.2 e.1), State.defect_stands_ne _ _ _ _ _ _ _ _ _ _ _ (fun e => h.1.1 e.1)]
  refine (apply_ite (State.stands · a b i d) _ _ _).trans ?_
  rw [State.occ_stands, State.bump_stands, ite_self]
  rfl

theorem State.chEval_stands (c a b i d : Nat) (h : chanCode a = false) : (s.chEval c).stands a b i d = s.stands a b i d := by
  have h' := h
  simp only [chanCode, Bool.or_eq_false_iff, beq_eq_false_iff_ne] at h'
  have e : ∀ s : State, (s.replEval c).stands a b i d = s.stands a b i d := by
    intro s
    unfold State.replEval
    dsimp only
    split
    · rfl
    split
    · rfl
    · split
      · rw [State.raise_stands_ne _ _ _ _ _ _ _ _ _ _ (fun e => h'.2 e.1)]; simp; rfl
      · rw [State.clear_stands_ne _ _ _ _ _ _ _ _ _ _ (fun e => h'.2 e.1)]; rfl
  have g (u : State) (p : Prop) [Decidable p] (f : Chan → Chan) :
      (if p then u.modChan c f else u).stands a b i d = u.stands a b i d := by split <;> rfl
  unfold State.chEval
  dsimp only
  rw [e, g]
  unfold State.seamEval
  split
  · rw [State.seamProt_stands _ _ _ _ _ _ _ h]; rfl
  · dsimp only; rw [State.defect_stands_ne _ _ _ _ _ _ _ _ _ _ _ (fun e => h'.1.2 e.1)]; rfl
  · rfl

theorem State.chEvalAll_stands_ne (a b i d : Nat) (h : chanCode a = false) :
    s.chEvalAll.stands a b i d = s.stands a b i d :=
  foldl_keeps (fun s : State => s.stands a b i d) _ (fun s c => State.chEval_stands s c a b i d h) _ _

@[simp] theorem State.applyVals_car (v : Tab RegKey (Word × Word)) : (s.applyVals v).car y = s.car y :=
  foldl_keeps (State.car · y) _ (fun s a => by simp) _ _

/-- The parts of a carrier's receive side that its output leaves alone. -/
def State.rxSide (s : State) (y : Carrier) : Rxc × Fec × Plan × TrSt :=
  ((s.car y).rxc, (s.car y).fec, (s.car y).plan, (s.car y).tr.st)

theorem State.tkCut_rxSide : (s.tkCut x).rxSide y = s.rxSide y := by
  unfold State.tkCut
  split
  · rfl
  · split
    · rfl
    · simp [State.rxSide]

theorem State.tkEnd_rxSide : (s.tkEnd x).rxSide y = s.rxSide y := by
  simp [State.tkEnd, State.rxSide]

theorem State.txEvent_rxSide : (s.txEvent x).rxSide y = s.rxSide y := by
  simp [State.txEvent, State.rxSide]

theorem State.tkStop_rxSide : (s.tkStop x).rxSide y = s.rxSide y := by
  have h := State.tkCut_rxSide s x y
  simp only [State.rxSide, Prod.mk.injEq] at h ⊢
  simp [State.tkStop, h]

theorem State.dacZero_rxSide : (s.dacZero x).rxSide y = s.rxSide y := by
  unfold State.dacZero State.each
  rw [foldl_keeps (State.rxSide · y) _ (fun s a => by simp [State.rxSide])]
  simp [State.rxSide]

theorem State.txTo_rxSide (st : TxSt) : (s.txTo x st).rxSide y = s.rxSide y := by
  unfold State.txTo State.chainStop
  dsimp only
  have h : ∀ s : State, ∀ f, (s.modTx x f).rxSide y = s.rxSide y := by
    intro s f; simp [State.rxSide]
  have g : ∀ s : State, ∀ f : Tr → Tr, (∀ t, (f t).st = t.st) → (s.modTr x f).rxSide y = s.rxSide y := by
    intro s f hf; cases x <;> cases y <;> simp [State.rxSide, State.modTr, State.modCar, State.car, hf]
  have k : ∀ (s : State) (l : Bytes) (a b c d : Nat), (s.clear a b c l d).rxSide y = s.rxSide y := by intros; simp [State.rxSide]
  split
  · rw [k]
    split
    · rw [State.tkCut_rxSide]; split
      · rw [g, h, h]; intro t; rfl
      · rw [h]
    · split
      · rw [g, h, h]; intro t; rfl
      · rw [h]
  · split
    · rw [State.tkCut_rxSide]; split
      · rw [g, h, h]; intro t; rfl
      · rw [h]
    · split
      · rw [g, h, h]; intro t; rfl
      · rw [h]

theorem State.txSettle_rxSide : (s.txSettle x).rxSide y = s.rxSide y := by
  have g : ∀ s : State, ∀ f, (s.modTk x f).rxSide y = s.rxSide y := by
    intro s f; simp [State.rxSide]
  unfold State.txSettle State.txLeave
  repeat' split
  all_goals first
    | rfl
    | simp only [State.txEvent_rxSide, State.dacZero_rxSide, State.tkEnd_rxSide, State.tkStop_rxSide, State.txTo_rxSide,
        State.tkCut_rxSide, g]

theorem State.chEvalAll_rxSide : s.chEvalAll.rxSide y = s.rxSide y := by simp [State.rxSide]

/-- A receiver that is enabled, has a valid input and has begun stays as it is. -/
theorem State.rxSettle_still (e : s.cfx F.CAR_RXC_CTL_RX_EN x ≠ 0) (v : s.rxValid x = true)
    (d : (s.car x).rxc.st ≠ .disabled) (w : (s.car x).rxc.st ≠ .waitInput) : s.rxSettle x = s := by
  unfold State.rxSettle
  rw [if_neg e]
  simp [v, d, w]

theorem State.settle_still (e : s.cfx F.CAR_RXC_CTL_RX_EN x ≠ 0) (v : s.rxValid x = true)
    (d : (s.car x).rxc.st ≠ .disabled) (w : (s.car x).rxc.st ≠ .waitInput) : (s.settle x).rxSide y = s.rxSide y := by
  unfold State.settle
  rw [State.rxSettle_still s x e v d w, State.chEvalAll_rxSide, State.txSettle_rxSide]

theorem State.settle_still_stands (e : s.cfx F.CAR_RXC_CTL_RX_EN x ≠ 0) (v : s.rxValid x = true)
    (d : (s.car x).rxc.st ≠ .disabled) (w : (s.car x).rxc.st ≠ .waitInput) (a b c i : Nat) (h : a ≠ 0x0601)
    (g : chanCode a = false) : (s.settle x).stands a b c i = s.stands a b c i := by
  unfold State.settle
  rw [State.rxSettle_still s x e v d w, State.chEvalAll_stands_ne _ _ _ _ _ g, State.txSettle_stands_ne (h := h)]

end Sys2Proof.Machine
end

