-- ==== Sys2Proof/Laws/Stitch.lean ====
section
/-! SUPPORT. The stitch links' operations: reads after changes, and their frames. -/

namespace Sys2Proof.Machine

variable (s : State) (d e : Die) (m n l k : Nat)

@[simp] theorem State.modDie_die (f : DieSt → DieSt) : (s.modDie d f).die d = f (s.die d) := by
  simp [State.modDie, State.die]

theorem State.modDie_die_ne (f : DieSt → DieSt) (h : e ≠ d) : (s.modDie d f).die e = s.die e := by
  simp [State.modDie, State.die, agetD_aset_ne _ _ _ _ _ h]

@[simp] theorem State.modSmod_smod (f : Module → Module) : (s.modSmod d m f).smod d m = f (s.smod d m) := by
  simp [State.modSmod, State.smod]

theorem State.modSmod_smod_ne (f : Module → Module) (h : (e, n) ≠ (d, m)) :
    (s.modSmod d m f).smod e n = s.smod e n := by
  simp [State.modSmod, State.smod, agetD_aset_ne _ _ _ _ _ h]

@[simp] theorem State.modLane_lane (f : Lane → Lane) : (s.modLane d m l f).lane d m l = f (s.lane d m l) := by
  simp [State.modLane, State.lane]

theorem State.modLane_lane_ne (f : Lane → Lane) (h : (e, n, k) ≠ (d, m, l)) :
    (s.modLane d m l f).lane e n k = s.lane e n k := by
  simp [State.modLane, State.lane, agetD_aset_ne _ _ _ _ _ h]

@[simp] theorem State.modSend_send (f : LaneTx → LaneTx) : (s.modSend d m l f).send d m l = f (s.send d m l) := by
  simp [State.modSend, State.send]

theorem State.modSend_send_ne (f : LaneTx → LaneTx) (h : (e, n, k) ≠ (d, m, l)) :
    (s.modSend d m l f).send e n k = s.send e n k := by
  simp [State.modSend, State.send, agetD_aset_ne _ _ _ _ _ h]

@[simp] theorem State.modSend_die (f : LaneTx → LaneTx) : (s.modSend d m l f).die e = s.die e := rfl
@[simp] theorem State.modSend_smod (f : LaneTx → LaneTx) : (s.modSend d m l f).smod e n = s.smod e n := rfl
@[simp] theorem State.modSend_lane (f : LaneTx → LaneTx) : (s.modSend d m l f).lane e n k = s.lane e n k := rfl
@[simp] theorem State.modDie_send (f : DieSt → DieSt) : (s.modDie d f).send e n k = s.send e n k := rfl
@[simp] theorem State.modSmod_send (f : Module → Module) : (s.modSmod d m f).send e n k = s.send e n k := rfl
@[simp] theorem State.modLane_send (f : Lane → Lane) : (s.modLane d m l f).send e n k = s.send e n k := rfl
@[simp] theorem State.modDie_smod (f : DieSt → DieSt) : (s.modDie d f).smod e n = s.smod e n := rfl
@[simp] theorem State.modDie_lane (f : DieSt → DieSt) : (s.modDie d f).lane e n k = s.lane e n k := rfl
@[simp] theorem State.modSmod_die (f : Module → Module) : (s.modSmod d m f).die e = s.die e := rfl
@[simp] theorem State.modSmod_lane (f : Module → Module) : (s.modSmod d m f).lane e n k = s.lane e n k := rfl
@[simp] theorem State.modLane_die (f : Lane → Lane) : (s.modLane d m l f).die e = s.die e := rfl
@[simp] theorem State.modLane_smod (f : Lane → Lane) : (s.modLane d m l f).smod e n = s.smod e n := rfl

/-- A die, module or lane is read from `sti` alone. -/
theorem State.lane_of_sti {t : State} (h : t.sti = s.sti) : t.lane d m l = s.lane d m l := by simp [State.lane, h]
theorem State.smod_of_sti {t : State} (h : t.sti = s.sti) : t.smod d m = s.smod d m := by simp [State.smod, h]
theorem State.die_of_sti {t : State} (h : t.sti = s.sti) : t.die d = s.die d := by simp [State.die, h]

@[simp] theorem State.settle_lane (x : Carrier) : (s.settle x).lane d m l = s.lane d m l := by
  simp [State.lane]
@[simp] theorem State.settle_smod (x : Carrier) : (s.settle x).smod d m = s.smod d m := by simp [State.smod]
@[simp] theorem State.settle_die (x : Carrier) : (s.settle x).die d = s.die d := by simp [State.die]

section
variable (a b c q : Nat) (y : Bytes)
@[simp] theorem State.raise_lane : (s.raise a b c y q).lane d m l = s.lane d m l := by simp [State.lane]
@[simp] theorem State.raise_smod : (s.raise a b c y q).smod d m = s.smod d m := by simp [State.smod]
@[simp] theorem State.raise_die : (s.raise a b c y q).die d = s.die d := by simp [State.die]
@[simp] theorem State.clear_lane : (s.clear a b c y q).lane d m l = s.lane d m l := by simp [State.lane]
@[simp] theorem State.clear_smod : (s.clear a b c y q).smod d m = s.smod d m := by simp [State.smod]
@[simp] theorem State.clear_die : (s.clear a b c y q).die d = s.die d := by simp [State.die]
@[simp] theorem State.occ_lane : (s.occ a b c y).lane d m l = s.lane d m l := by simp [State.lane]
@[simp] theorem State.occ_smod : (s.occ a b c y).smod d m = s.smod d m := by simp [State.smod]
@[simp] theorem State.forget_lane : (s.forget a b c q).lane d m l = s.lane d m l := rfl
@[simp] theorem State.forget_smod : (s.forget a b c q).smod d m = s.smod d m := rfl
@[simp] theorem State.emit_lane (o : Out) : (s.emit o).lane d m l = s.lane d m l := rfl
@[simp] theorem State.emit_smod (o : Out) : (s.emit o).smod d m = s.smod d m := rfl
@[simp] theorem State.emit_die (o : Out) : (s.emit o).die d = s.die d := rfl
@[simp] theorem State.bump_lane (r : RegId) : (s.bump r a b).lane d m l = s.lane d m l := rfl
@[simp] theorem State.bump_smod (r : RegId) : (s.bump r a b).smod d m = s.smod d m := rfl
@[simp] theorem State.setField_lane (f : Fref) : (s.setField f a b).lane d m l = s.lane d m l := rfl
@[simp] theorem State.setField_smod (f : Fref) : (s.setField f a b).smod d m = s.smod d m := rfl
@[simp] theorem State.setWord_lane (w : RegKey) (v : Word) : (s.setWord w v).lane d m l = s.lane d m l := rfl
@[simp] theorem State.setWord_smod (w : RegKey) (v : Word) : (s.setWord w v).smod d m = s.smod d m := rfl
@[simp] theorem State.erased_lane : (s.erased e a b).lane d m l = s.lane d m l := rfl
@[simp] theorem State.erased_smod : (s.erased e a b).smod d m = s.smod d m := rfl
@[simp] theorem State.sendSetting_lane : (s.sendSetting e a b).lane d m l = s.lane d m l := rfl
@[simp] theorem State.sendSetting_smod : (s.sendSetting e a b).smod d m = s.smod d m := rfl
@[simp] theorem State.modFe_lane (x : Carrier) (f : Fe → Fe) : (s.modFe x f).lane d m l = s.lane d m l := by
  simp [State.lane]
@[simp] theorem State.modFe_smod (x : Carrier) (f : Fe → Fe) : (s.modFe x f).smod d m = s.smod d m := by
  simp [State.smod]
@[simp] theorem State.eraseBuf_lane : (s.eraseBuf e a).lane d m l = s.lane d m l := rfl
@[simp] theorem State.eraseBuf_smod : (s.eraseBuf e a).smod d m = s.smod d m := rfl
@[simp] theorem State.eraseBuf_stands (i : Nat) : (s.eraseBuf e i).stands a b c q = s.stands a b c q := rfl
end

section
variable (f : DieSt → DieSt) (g : Module → Module) (h : Lane → Lane) (a b c q : Nat)
@[simp] theorem State.modDie_stands : (s.modDie d f).stands a b c q = s.stands a b c q := rfl
@[simp] theorem State.modSmod_stands : (s.modSmod d m g).stands a b c q = s.stands a b c q := rfl
@[simp] theorem State.modLane_stands : (s.modLane d m l h).stands a b c q = s.stands a b c q := rfl
@[simp] theorem State.modDie_io : (s.modDie d f).io = s.io := rfl
@[simp] theorem State.modSmod_io : (s.modSmod d m g).io = s.io := rfl
@[simp] theorem State.modLane_io : (s.modLane d m l h).io = s.io := rfl
end

@[simp] theorem State.stiSettle_lane : (s.stiSettle d).lane e n k = s.lane e n k := by
  unfold State.stiSettle
  simp [apply_ite (State.lane · e n k)]

@[simp] theorem State.stiSettle_smod : (s.stiSettle d).smod e n = s.smod e n := by
  unfold State.stiSettle
  simp [apply_ite (State.smod · e n)]

@[simp] theorem State.degrade_lane : (s.degrade d m).lane e n k = s.lane e n k := by
  unfold State.degrade; split <;> simp

@[simp] theorem State.undegrade_lane : (s.undegrade d m).lane e n k = s.lane e n k := by
  unfold State.undegrade; dsimp only; split <;> simp

/-- A degraded module is degraded. -/
@[simp] theorem State.degrade_deg : ((s.degrade d m).smod d m).deg = true := by
  unfold State.degrade; split <;> simp_all

section
open State

theorem State.modDie_only (f : DieSt → DieSt) : s.onlyIn (s.modDie d f) [.sti] := by
  refine ⟨fun p h => ?_⟩
  cases p <;> first | rfl | exact ⟨rfl, rfl⟩ | exact ⟨rfl, rfl, rfl⟩ | exact ⟨rfl, rfl, rfl, rfl, rfl⟩ | (cases ‹Carrier› <;> rfl) | simp at h

theorem State.modSmod_only (f : Module → Module) : s.onlyIn (s.modSmod d m f) [.sti] := by
  refine ⟨fun p h => ?_⟩
  cases p <;> first | rfl | exact ⟨rfl, rfl⟩ | exact ⟨rfl, rfl, rfl⟩ | exact ⟨rfl, rfl, rfl, rfl, rfl⟩ | (cases ‹Carrier› <;> rfl) | simp at h

theorem State.modLane_only (f : Lane → Lane) : s.onlyIn (s.modLane d m l f) [.sti] := by
  refine ⟨fun p h => ?_⟩
  cases p <;> first | rfl | exact ⟨rfl, rfl⟩ | exact ⟨rfl, rfl, rfl⟩ | exact ⟨rfl, rfl, rfl, rfl, rfl⟩ | (cases ‹Carrier› <;> rfl) | simp at h

theorem State.modSend_only (f : LaneTx → LaneTx) : s.onlyIn (s.modSend d m l f) [.sti] := by
  refine ⟨fun p h => ?_⟩
  cases p <;> first | rfl | exact ⟨rfl, rfl⟩ | exact ⟨rfl, rfl, rfl⟩ | exact ⟨rfl, rfl, rfl, rfl, rfl⟩ | (cases ‹Carrier› <;> rfl) | simp at h

theorem State.eraseBuf_only (g : Nat) : s.onlyIn (s.eraseBuf d g) [.sti] := by
  refine ⟨fun p h => ?_⟩
  cases p <;> first | rfl | exact ⟨rfl, rfl⟩ | exact ⟨rfl, rfl, rfl⟩ | exact ⟨rfl, rfl, rfl, rfl, rfl⟩ | (cases ‹Carrier› <;> rfl) | simp at h

theorem State.sendSetting_only : s.onlyIn (s.sendSetting d m l) [.records] := State.emit_only ..

theorem State.degrade_only : s.onlyIn (s.degrade d m) (.sti :: defParts) := by
  unfold State.degrade
  refine onlyIn_ite _ (onlyIn_refl _ _) ?_
  refine onlyIn_trans ?_ (onlyIn_mono (State.raise_only ..) rfl)
  exact onlyIn_mono (State.modSmod_only ..) rfl

theorem State.undegrade_only : s.onlyIn (s.undegrade d m) (.sti :: defParts) := by
  unfold State.undegrade
  refine onlyIn_ite _ ?_ (onlyIn_refl _ _)
  refine onlyIn_trans ?_ (onlyIn_mono (State.clear_only ..) rfl)
  exact onlyIn_mono (State.modSmod_only ..) rfl

/-- The frame of a change of a link's condition. -/
theorem State.stiSettle_only : s.onlyIn (s.stiSettle d) (.sti :: behind d.car) := by
  unfold State.stiSettle
  refine onlyIn_trans ?_ (onlyIn_mono (State.settle_only _ d.car) (by cases d <;> rfl))
  refine onlyIn_ite _ ?_ ?_
  · refine onlyIn_trans ?_ (onlyIn_mono (State.raise_only ..) (by cases d <;> rfl))
    refine onlyIn_trans ?_ (onlyIn_mono (State.modDie_only ..) (by cases d <;> rfl))
    exact onlyIn_mono (State.modDie_only ..) (by cases d <;> rfl)
  · exact onlyIn_mono (State.modDie_only ..) (by cases d <;> rfl)

theorem rem_only (r : Tab RegKey Nat) : s.onlyIn { s with io := { s.io with rem := r } } [.counters] := by
  refine ⟨fun p h => ?_⟩
  cases p <;> first | rfl | exact ⟨rfl, rfl⟩ | exact ⟨rfl, rfl, rfl⟩ | exact ⟨rfl, rfl, rfl, rfl, rfl⟩ | (cases ‹Carrier› <;> rfl) | simp at h

theorem State.erased_only (c : Nat) : s.onlyIn (s.erased d m c) evParts := by
  unfold State.erased
  refine onlyIn_trans ?_ (onlyIn_mono (rem_only ..) rfl)
  refine onlyIn_trans ?_ (onlyIn_mono (State.signal_only ..) rfl)
  exact onlyIn_mono (State.bump_only ..) rfl

end

/-! ### Frames by rewriting -/

section
variable {t : State} {l : List Zone}

@[simp] theorem onlyIn_modDie (f : DieSt → DieSt) (h : .sti ∈ l) : s.onlyIn (t.modDie d f) l ↔ s.onlyIn t l :=
  onlyIn_drop (State.modDie_only ..) (fun z hz => by simp at hz; subst hz; assumption)

@[simp] theorem onlyIn_modSmod (f : Module → Module) (h : .sti ∈ l) : s.onlyIn (t.modSmod d m f) l ↔ s.onlyIn t l :=
  onlyIn_drop (State.modSmod_only ..) (fun z hz => by simp at hz; subst hz; assumption)

@[simp] theorem onlyIn_modLane (f : Lane → Lane) (h : .sti ∈ l) : s.onlyIn (t.modLane d m k f) l ↔ s.onlyIn t l :=
  onlyIn_drop (State.modLane_only ..) (fun z hz => by simp at hz; subst hz; assumption)

@[simp] theorem onlyIn_modSend (f : LaneTx → LaneTx) (h : .sti ∈ l) : s.onlyIn (t.modSend d m k f) l ↔ s.onlyIn t l :=
  onlyIn_drop (State.modSend_only ..) (fun z hz => by simp at hz; subst hz; assumption)

@[simp] theorem onlyIn_sendSetting (h : .records ∈ l) : s.onlyIn (t.sendSetting d m k) l ↔ s.onlyIn t l :=
  onlyIn_drop (State.sendSetting_only ..) (fun z hz => by simp at hz; subst hz; assumption)

@[simp] theorem onlyIn_degrade (h : .sti ∈ l) (h1 : .records ∈ l) (h2 : .counters ∈ l) (h3 : .defects ∈ l) :
    s.onlyIn (t.degrade d m) l ↔ s.onlyIn t l :=
  onlyIn_drop (State.degrade_only ..) (fun z hz => by
    simp [defParts] at hz; rcases hz with rfl | rfl | rfl | rfl <;> assumption)

@[simp] theorem onlyIn_undegrade (h : .sti ∈ l) (h1 : .records ∈ l) (h2 : .counters ∈ l) (h3 : .defects ∈ l) :
    s.onlyIn (t.undegrade d m) l ↔ s.onlyIn t l :=
  onlyIn_drop (State.undegrade_only ..) (fun z hz => by
    simp [defParts] at hz; rcases hz with rfl | rfl | rfl | rfl <;> assumption)

@[simp] theorem onlyIn_erased (c : Nat) (h1 : .records ∈ l) (h2 : .counters ∈ l) :
    s.onlyIn (t.erased d m c) l ↔ s.onlyIn t l :=
  onlyIn_drop (State.erased_only ..) (fun z hz => by simp [evParts] at hz; rcases hz with rfl | rfl <;> assumption)

@[simp] theorem onlyIn_eraseBuf (g : Nat) (h : .sti ∈ l) : s.onlyIn (t.eraseBuf d g) l ↔ s.onlyIn t l :=
  onlyIn_drop (State.eraseBuf_only ..) (fun z hz => by simp at hz; subst hz; assumption)

/-- The frame of a link's change: the stitch state and what lies behind its carrier. -/
@[simp] theorem onlyIn_stiSettle (h0 : .sti ∈ l) (h1 : .records ∈ l) (h2 : .counters ∈ l) (h3 : .defects ∈ l) (h4 : .regs ∈ l) (h5 : .rxc d.car
    ∈ l) (h6 : .fec d.car ∈ l) (h7 : .tx d.car ∈ l) (h8 : .plan d.car ∈ l) (h9 : .tr d.car ∈ l) (h10 : .tk d.car ∈
    l) (h11 : .ciph ∈ l) (h12 : .seam ∈ l) (h13 : .cli ∈ l) :
    s.onlyIn (t.stiSettle d) l ↔ s.onlyIn t l := onlyIn_drop (State.stiSettle_only ..) (fun z hz => by
  simp [behind] at hz
  rcases hz with rfl | rfl | rfl | rfl | rfl | rfl | rfl | rfl | rfl | rfl | rfl | rfl | rfl | rfl <;> assumption)

end

/-! ### Failing lanes and darning -/

theorem find_spec {α : Type} {p : α → Bool} {l : List α} {a : α} (h : l.find? p = some a) : p a = true ∧ a ∈ l :=
  ⟨List.find?_some h, List.mem_of_find?_eq_some h⟩

theorem State.erased_stands (s : State) (d : Die) (m n : Nat) (a b c e : Nat) :
    (s.erased d m n).stands a b c e = s.stands a b c e := by
  simp [State.erased, State.stands, State.signal, State.bump, Io.bump]

/-- A spare that can be taken carries nothing, and is LOCKED or under test (R58, R69). -/
theorem State.spareFor_spec {s : State} {d : Die} {m p : Nat} (h : s.spareFor d m = some p) :
    s.spareIdle d m p = true ∧ ((s.lane d m p).st = .locked ∨ s.laneTest d m p = true) ∧ p ∈ [16, 17] := by
  unfold State.spareFor at h
  split at h
  · next q f =>
    have g := find_spec f
    simp only [Bool.and_eq_true, beq_iff_eq] at g
    simp only [Option.some.injEq] at h
    subst h
    exact ⟨g.1.1.1, .inl g.1.1.2, g.2⟩
  · have g := find_spec h
    simp only [Bool.and_eq_true] at g
    exact ⟨g.1.1, .inr g.1.2, g.2⟩

theorem State.testAbort_stands (s : State) (d : Die) (m n : Nat) (a b c e : Nat) :
    (s.testAbort d m n).stands a b c e = s.stands a b c e := by
  unfold State.testAbort State.sendSetting
  split
  · simp
  · rfl

theorem State.stiSettle_stands (s : State) (d : Die) (a b c e : Nat) (h : nearFamily a = false) (g : a ≠ 0x0206) :
    (s.stiSettle d).stands a b c e = s.stands a b c e := by
  unfold State.stiSettle
  dsimp only
  rw [State.settle_stands _ _ _ _ _ _ h]
  split
  · rw [State.raise_stands_ne _ _ _ _ _ _ _ _ _ _ (by simp [g])]; simp
  · simp

theorem State.degrade_stands (s : State) (d : Die) (m a b c e : Nat) (g : a ≠ 0x0204) :
    (s.degrade d m).stands a b c e = s.stands a b c e := by
  unfold State.degrade
  split
  · rfl
  · rw [State.raise_stands_ne _ _ _ _ _ _ _ _ _ _ (by simp [g])]; simp

theorem State.undegrade_stands (s : State) (d : Die) (m a b c e : Nat) (g : a ≠ 0x0204) :
    (s.undegrade d m).stands a b c e = s.stands a b c e := by
  unfold State.undegrade
  dsimp only
  split
  · rw [State.clear_stands_ne _ _ _ _ _ _ _ _ _ _ (by simp [g])]; simp
  · rfl

theorem State.darn_stands (s : State) (d : Die) (m l n a b c e : Nat) (g : a ≠ 0x0204) :
    (s.darn d m l n).stands a b c e = s.stands a b c e := by
  unfold State.darn
  split
  · exact State.degrade_stands _ _ _ _ _ _ _ g
  · split
    · exact State.degrade_stands _ _ _ _ _ _ _ g
    · simp [State.testAbort_stands]

/-- Darning changes no data lane (R58, R69). -/
theorem State.darn_lane (s : State) (d : Die) (m l n k : Nat) (h : k < 16) :
    ((s.darn d m l n).lane d m k) = s.lane d m k := by
  unfold State.darn
  split
  · simp
  · split
    · simp
    · next p f =>
      have hp : (d, m, k) ≠ (d, m, p) := by
        have := (State.spareFor_spec f).2.2
        simp at this ⊢
        omega
      simp
      rw [State.modLane_lane_ne _ _ _ _ _ _ _ _ hp]
      unfold State.testAbort
      split
      · simp
        rw [State.modLane_lane_ne _ _ _ _ _ _ _ _ hp]
        simp
      · rfl

/-- What a failing lane is left as: FAILED, and still the one that carries its logical lane (R53, R58). -/
theorem State.laneFail_st (s : State) (d : Die) (m l : Nat) (c : Bool) :
    ((s.laneFail d m l c).lane d m l).st = .failed ∧
    ((s.laneFail d m l c).lane d m l).carries = (s.lane d m l).carries := by
  unfold State.laneFail
  dsimp only
  cases h : (s.lane d m l).carries with
  | none => cases c <;> simp [h]
  | some n =>
    cases c
    · by_cases hl : l < 16
      · simp [hl, State.darn_lane, h]
      · simp [hl, h]
    · simp [h]

theorem State.laneFail_stands (s : State) (d : Die) (m l : Nat) (c : Bool) :
    (s.laneFail d m l c).stands 0x0201 d.car.ev m (d.num * 32 + l) = true := by
  unfold State.laneFail
  dsimp only
  cases (s.lane d m l).carries with
  | none => cases c <;> simp [State.degrade_stands]
  | some n => cases c <;> by_cases hl : l < 16 <;> simp [hl, State.degrade_stands, State.darn_stands]

theorem onlyIn_testAbort {s t : State} {l : List Zone} (d : Die) (m p : Nat) (h : .sti ∈ l) (h1 : .records ∈ l) (h2 :
    .counters ∈ l) (h3 : .regs ∈ l) :
   s.onlyIn (t.testAbort d m p) l ↔ s.onlyIn t l := by
  unfold State.testAbort
  split <;> simp [h, h1, h2, h3]

theorem onlyIn_darn {s t : State} {l : List Zone} (d : Die) (m n p : Nat) (h : .sti ∈ l) (h1 : .records ∈ l) (h2 :
    .counters ∈ l) (h3 : .regs ∈ l) (h4 : .defects ∈ l) :
   s.onlyIn (t.darn d m n p) l ↔ s.onlyIn t l := by
  unfold State.darn
  split
  · simp [h, h1, h2, h4]
  · split <;> simp [h, h1, h2, h3, h4, onlyIn_testAbort]

theorem onlyIn_laneFail {s t : State} {l : List Zone} (d : Die) (m n : Nat) (c : Bool) (h : .sti ∈ l) (h1 :
    .records ∈ l) (h2 : .counters ∈ l) (h3 : .regs ∈ l) (h4 : .defects ∈ l) :
   s.onlyIn (t.laneFail d m n c) l ↔ s.onlyIn t l := by
  unfold State.laneFail
  dsimp only
  cases (t.lane d m n).carries with
  | none => cases c <;> simp [h, h1, h2, h4]
  | some k => cases c <;> by_cases hl : n < 16 <;> simp [hl, h, h1, h2, h3, h4, onlyIn_darn]

/-- A lane whose clock is lost changes no other lane (R53, R64). -/
theorem State.laneFail_lane_ne (s : State) (d : Die) (m l k : Nat) (h : k ≠ l) :
    ((s.laneFail d m l true).lane d m k) = s.lane d m k := by
  unfold State.laneFail
  have e : (d, m, k) ≠ (d, m, l) := by simp [h]
  cases q : (s.lane d m l).carries <;> simp [q, State.modLane_lane_ne _ _ _ _ _ _ _ _ e]

end Sys2Proof.Machine
end

