-- ==== Sys2Proof/Laws/Units.lean ====
section
/-! SUPPORT. The update of one unit's record: what it leaves in that unit, in its neighbours and in the rest of State. -/

namespace Sys2Proof.Machine

variable (s : State) (y : Carrier) (fr : Fref) (k : Nat)

/-! ### modCiph -/

@[simp] theorem State.modCiph_ciphCh (c : Nat) (f : CiphCh → CiphCh) : (s.modCiph c f).ciphCh c = f (s.ciphCh c) := by
  simp [State.modCiph, State.ciphCh]

theorem State.modCiph_ciphCh_ne (c : Nat) (f : CiphCh → CiphCh) (j : Nat) (h : j ≠ c) : (s.modCiph c f).ciphCh j = s.ciphCh j := by
  simp [State.modCiph, State.ciphCh, agetD_aset_ne _ _ _ _ _ h]

@[simp] theorem State.modCiph_sys (c : Nat) (f : CiphCh → CiphCh) : (s.modCiph c f).sys = s.sys := rfl
@[simp] theorem State.modCiph_io (c : Nat) (f : CiphCh → CiphCh) : (s.modCiph c f).io = s.io := rfl
@[simp] theorem State.modCiph_regs (c : Nat) (f : CiphCh → CiphCh) : (s.modCiph c f).regs = s.regs := rfl
@[simp] theorem State.modCiph_chk (c : Nat) (f : CiphCh → CiphCh) : (s.modCiph c f).chk = s.chk := rfl
@[simp] theorem State.modCiph_sti (c : Nat) (f : CiphCh → CiphCh) : (s.modCiph c f).sti = s.sti := rfl
@[simp] theorem State.modCiph_carA (c : Nat) (f : CiphCh → CiphCh) : (s.modCiph c f).carA = s.carA := rfl
@[simp] theorem State.modCiph_carB (c : Nat) (f : CiphCh → CiphCh) : (s.modCiph c f).carB = s.carB := rfl
@[simp] theorem State.modCiph_seam (c : Nat) (f : CiphCh → CiphCh) : (s.modCiph c f).seam = s.seam := rfl
@[simp] theorem State.modCiph_cli (c : Nat) (f : CiphCh → CiphCh) : (s.modCiph c f).cli = s.cli := rfl
@[simp] theorem State.modCiph_tim (c : Nat) (f : CiphCh → CiphCh) : (s.modCiph c f).tim = s.tim := rfl
@[simp] theorem State.modCiph_mon (c : Nat) (f : CiphCh → CiphCh) : (s.modCiph c f).mon = s.mon := rfl
@[simp] theorem State.modCiph_cal (c : Nat) (f : CiphCh → CiphCh) : (s.modCiph c f).cal = s.cal := rfl
@[simp] theorem State.modCiph_mem (c : Nat) (f : CiphCh → CiphCh) : (s.modCiph c f).mem = s.mem := rfl
@[simp] theorem State.modCiph_cxl (c : Nat) (f : CiphCh → CiphCh) : (s.modCiph c f).cxl = s.cxl := rfl
@[simp] theorem State.modCiph_boot (c : Nat) (f : CiphCh → CiphCh) : (s.modCiph c f).boot = s.boot := rfl
@[simp] theorem State.modCiph_retired (c : Nat) (f : CiphCh → CiphCh) : (s.modCiph c f).retired = s.retired := rfl
@[simp] theorem State.modCiph_pending (c : Nat) (f : CiphCh → CiphCh) : (s.modCiph c f).pending = s.pending := rfl
@[simp] theorem State.modCiph_rd (c : Nat) (f : CiphCh → CiphCh) : (s.modCiph c f).rd = s.rd := rfl
@[simp] theorem State.modCiph_ns (c : Nat) (f : CiphCh → CiphCh) : (s.modCiph c f).ns = s.ns := rfl

/-! ### modPort -/

@[simp] theorem State.modPort_port (p : Nat) (f : Port → Port) : (s.modPort p f).port p = f (s.port p) := by
  simp [State.modPort, State.port]

theorem State.modPort_port_ne (p : Nat) (f : Port → Port) (j : Nat) (h : j ≠ p) : (s.modPort p f).port j = s.port j := by
  simp [State.modPort, State.port, agetD_aset_ne _ _ _ _ _ h]

@[simp] theorem State.modPort_sys (p : Nat) (f : Port → Port) : (s.modPort p f).sys = s.sys := rfl
@[simp] theorem State.modPort_io (p : Nat) (f : Port → Port) : (s.modPort p f).io = s.io := rfl
@[simp] theorem State.modPort_regs (p : Nat) (f : Port → Port) : (s.modPort p f).regs = s.regs := rfl
@[simp] theorem State.modPort_chk (p : Nat) (f : Port → Port) : (s.modPort p f).chk = s.chk := rfl
@[simp] theorem State.modPort_sti (p : Nat) (f : Port → Port) : (s.modPort p f).sti = s.sti := rfl
@[simp] theorem State.modPort_carA (p : Nat) (f : Port → Port) : (s.modPort p f).carA = s.carA := rfl
@[simp] theorem State.modPort_carB (p : Nat) (f : Port → Port) : (s.modPort p f).carB = s.carB := rfl
@[simp] theorem State.modPort_ciph (p : Nat) (f : Port → Port) : (s.modPort p f).ciph = s.ciph := rfl
@[simp] theorem State.modPort_seam (p : Nat) (f : Port → Port) : (s.modPort p f).seam = s.seam := rfl
@[simp] theorem State.modPort_tim (p : Nat) (f : Port → Port) : (s.modPort p f).tim = s.tim := rfl
@[simp] theorem State.modPort_mon (p : Nat) (f : Port → Port) : (s.modPort p f).mon = s.mon := rfl
@[simp] theorem State.modPort_cal (p : Nat) (f : Port → Port) : (s.modPort p f).cal = s.cal := rfl
@[simp] theorem State.modPort_mem (p : Nat) (f : Port → Port) : (s.modPort p f).mem = s.mem := rfl
@[simp] theorem State.modPort_cxl (p : Nat) (f : Port → Port) : (s.modPort p f).cxl = s.cxl := rfl
@[simp] theorem State.modPort_boot (p : Nat) (f : Port → Port) : (s.modPort p f).boot = s.boot := rfl
@[simp] theorem State.modPort_retired (p : Nat) (f : Port → Port) : (s.modPort p f).retired = s.retired := rfl
@[simp] theorem State.modPort_pending (p : Nat) (f : Port → Port) : (s.modPort p f).pending = s.pending := rfl
@[simp] theorem State.modPort_rd (p : Nat) (f : Port → Port) : (s.modPort p f).rd = s.rd := rfl
@[simp] theorem State.modPort_ns (p : Nat) (f : Port → Port) : (s.modPort p f).ns = s.ns := rfl

/-! ### modGrp -/

@[simp] theorem State.modGrp_flxGrp (g : Nat) (f : FlxGrp → FlxGrp) : (s.modGrp g f).flxGrp g = f (s.flxGrp g) := by
  simp [State.modGrp, State.flxGrp]

theorem State.modGrp_flxGrp_ne (g : Nat) (f : FlxGrp → FlxGrp) (j : Nat) (h : j ≠ g) : (s.modGrp g f).flxGrp j = s.flxGrp j := by
  simp [State.modGrp, State.flxGrp, agetD_aset_ne _ _ _ _ _ h]

@[simp] theorem State.modGrp_sys (g : Nat) (f : FlxGrp → FlxGrp) : (s.modGrp g f).sys = s.sys := rfl
@[simp] theorem State.modGrp_io (g : Nat) (f : FlxGrp → FlxGrp) : (s.modGrp g f).io = s.io := rfl
@[simp] theorem State.modGrp_regs (g : Nat) (f : FlxGrp → FlxGrp) : (s.modGrp g f).regs = s.regs := rfl
@[simp] theorem State.modGrp_chk (g : Nat) (f : FlxGrp → FlxGrp) : (s.modGrp g f).chk = s.chk := rfl
@[simp] theorem State.modGrp_sti (g : Nat) (f : FlxGrp → FlxGrp) : (s.modGrp g f).sti = s.sti := rfl
@[simp] theorem State.modGrp_carA (g : Nat) (f : FlxGrp → FlxGrp) : (s.modGrp g f).carA = s.carA := rfl
@[simp] theorem State.modGrp_carB (g : Nat) (f : FlxGrp → FlxGrp) : (s.modGrp g f).carB = s.carB := rfl
@[simp] theorem State.modGrp_ciph (g : Nat) (f : FlxGrp → FlxGrp) : (s.modGrp g f).ciph = s.ciph := rfl
@[simp] theorem State.modGrp_seam (g : Nat) (f : FlxGrp → FlxGrp) : (s.modGrp g f).seam = s.seam := rfl
@[simp] theorem State.modGrp_tim (g : Nat) (f : FlxGrp → FlxGrp) : (s.modGrp g f).tim = s.tim := rfl
@[simp] theorem State.modGrp_mon (g : Nat) (f : FlxGrp → FlxGrp) : (s.modGrp g f).mon = s.mon := rfl
@[simp] theorem State.modGrp_cal (g : Nat) (f : FlxGrp → FlxGrp) : (s.modGrp g f).cal = s.cal := rfl
@[simp] theorem State.modGrp_mem (g : Nat) (f : FlxGrp → FlxGrp) : (s.modGrp g f).mem = s.mem := rfl
@[simp] theorem State.modGrp_cxl (g : Nat) (f : FlxGrp → FlxGrp) : (s.modGrp g f).cxl = s.cxl := rfl
@[simp] theorem State.modGrp_boot (g : Nat) (f : FlxGrp → FlxGrp) : (s.modGrp g f).boot = s.boot := rfl
@[simp] theorem State.modGrp_retired (g : Nat) (f : FlxGrp → FlxGrp) : (s.modGrp g f).retired = s.retired := rfl
@[simp] theorem State.modGrp_pending (g : Nat) (f : FlxGrp → FlxGrp) : (s.modGrp g f).pending = s.pending := rfl
@[simp] theorem State.modGrp_rd (g : Nat) (f : FlxGrp → FlxGrp) : (s.modGrp g f).rd = s.rd := rfl
@[simp] theorem State.modGrp_ns (g : Nat) (f : FlxGrp → FlxGrp) : (s.modGrp g f).ns = s.ns := rfl

/-! ### modChan -/

@[simp] theorem State.modChan_chan (c : Nat) (f : Chan → Chan) : (s.modChan c f).chan c = f (s.chan c) := by
  simp [State.modChan, State.chan]

theorem State.modChan_chan_ne (c : Nat) (f : Chan → Chan) (j : Nat) (h : j ≠ c) : (s.modChan c f).chan j = s.chan j := by
  simp [State.modChan, State.chan, agetD_aset_ne _ _ _ _ _ h]

@[simp] theorem State.modChan_sys (c : Nat) (f : Chan → Chan) : (s.modChan c f).sys = s.sys := rfl
@[simp] theorem State.modChan_io (c : Nat) (f : Chan → Chan) : (s.modChan c f).io = s.io := rfl
@[simp] theorem State.modChan_regs (c : Nat) (f : Chan → Chan) : (s.modChan c f).regs = s.regs := rfl
@[simp] theorem State.modChan_chk (c : Nat) (f : Chan → Chan) : (s.modChan c f).chk = s.chk := rfl
@[simp] theorem State.modChan_sti (c : Nat) (f : Chan → Chan) : (s.modChan c f).sti = s.sti := rfl
@[simp] theorem State.modChan_carA (c : Nat) (f : Chan → Chan) : (s.modChan c f).carA = s.carA := rfl
@[simp] theorem State.modChan_carB (c : Nat) (f : Chan → Chan) : (s.modChan c f).carB = s.carB := rfl
@[simp] theorem State.modChan_ciph (c : Nat) (f : Chan → Chan) : (s.modChan c f).ciph = s.ciph := rfl
@[simp] theorem State.modChan_seam (c : Nat) (f : Chan → Chan) : (s.modChan c f).seam = s.seam := rfl
@[simp] theorem State.modChan_tim (c : Nat) (f : Chan → Chan) : (s.modChan c f).tim = s.tim := rfl
@[simp] theorem State.modChan_mon (c : Nat) (f : Chan → Chan) : (s.modChan c f).mon = s.mon := rfl
@[simp] theorem State.modChan_cal (c : Nat) (f : Chan → Chan) : (s.modChan c f).cal = s.cal := rfl
@[simp] theorem State.modChan_mem (c : Nat) (f : Chan → Chan) : (s.modChan c f).mem = s.mem := rfl
@[simp] theorem State.modChan_cxl (c : Nat) (f : Chan → Chan) : (s.modChan c f).cxl = s.cxl := rfl
@[simp] theorem State.modChan_boot (c : Nat) (f : Chan → Chan) : (s.modChan c f).boot = s.boot := rfl
@[simp] theorem State.modChan_retired (c : Nat) (f : Chan → Chan) : (s.modChan c f).retired = s.retired := rfl
@[simp] theorem State.modChan_pending (c : Nat) (f : Chan → Chan) : (s.modChan c f).pending = s.pending := rfl
@[simp] theorem State.modChan_rd (c : Nat) (f : Chan → Chan) : (s.modChan c f).rd = s.rd := rfl
@[simp] theorem State.modChan_ns (c : Nat) (f : Chan → Chan) : (s.modChan c f).ns = s.ns := rfl

/-! ### modSch -/

@[simp] theorem State.modSch_sch (c : Nat) (f : SeamCh → SeamCh) : (s.modSch c f).sch c = f (s.sch c) := by
  simp [State.modSch, State.sch]

theorem State.modSch_sch_ne (c : Nat) (f : SeamCh → SeamCh) (j : Nat) (h : j ≠ c) : (s.modSch c f).sch j = s.sch j := by
  simp [State.modSch, State.sch, agetD_aset_ne _ _ _ _ _ h]

@[simp] theorem State.modSch_sys (c : Nat) (f : SeamCh → SeamCh) : (s.modSch c f).sys = s.sys := rfl
@[simp] theorem State.modSch_io (c : Nat) (f : SeamCh → SeamCh) : (s.modSch c f).io = s.io := rfl
@[simp] theorem State.modSch_regs (c : Nat) (f : SeamCh → SeamCh) : (s.modSch c f).regs = s.regs := rfl
@[simp] theorem State.modSch_chk (c : Nat) (f : SeamCh → SeamCh) : (s.modSch c f).chk = s.chk := rfl
@[simp] theorem State.modSch_sti (c : Nat) (f : SeamCh → SeamCh) : (s.modSch c f).sti = s.sti := rfl
@[simp] theorem State.modSch_carA (c : Nat) (f : SeamCh → SeamCh) : (s.modSch c f).carA = s.carA := rfl
@[simp] theorem State.modSch_carB (c : Nat) (f : SeamCh → SeamCh) : (s.modSch c f).carB = s.carB := rfl
@[simp] theorem State.modSch_ciph (c : Nat) (f : SeamCh → SeamCh) : (s.modSch c f).ciph = s.ciph := rfl
@[simp] theorem State.modSch_cli (c : Nat) (f : SeamCh → SeamCh) : (s.modSch c f).cli = s.cli := rfl
@[simp] theorem State.modSch_tim (c : Nat) (f : SeamCh → SeamCh) : (s.modSch c f).tim = s.tim := rfl
@[simp] theorem State.modSch_mon (c : Nat) (f : SeamCh → SeamCh) : (s.modSch c f).mon = s.mon := rfl
@[simp] theorem State.modSch_cal (c : Nat) (f : SeamCh → SeamCh) : (s.modSch c f).cal = s.cal := rfl
@[simp] theorem State.modSch_mem (c : Nat) (f : SeamCh → SeamCh) : (s.modSch c f).mem = s.mem := rfl
@[simp] theorem State.modSch_cxl (c : Nat) (f : SeamCh → SeamCh) : (s.modSch c f).cxl = s.cxl := rfl
@[simp] theorem State.modSch_boot (c : Nat) (f : SeamCh → SeamCh) : (s.modSch c f).boot = s.boot := rfl
@[simp] theorem State.modSch_retired (c : Nat) (f : SeamCh → SeamCh) : (s.modSch c f).retired = s.retired := rfl
@[simp] theorem State.modSch_pending (c : Nat) (f : SeamCh → SeamCh) : (s.modSch c f).pending = s.pending := rfl
@[simp] theorem State.modSch_rd (c : Nat) (f : SeamCh → SeamCh) : (s.modSch c f).rd = s.rd := rfl
@[simp] theorem State.modSch_ns (c : Nat) (f : SeamCh → SeamCh) : (s.modSch c f).ns = s.ns := rfl

/-! ### modRgn -/

@[simp] theorem State.modRgn_rgn (g : Nat) (f : Rgn → Rgn) : (s.modRgn g f).rgn g = f (s.rgn g) := by
  simp [State.modRgn, State.rgn]

theorem State.modRgn_rgn_ne (g : Nat) (f : Rgn → Rgn) (j : Nat) (h : j ≠ g) : (s.modRgn g f).rgn j = s.rgn j := by
  simp [State.modRgn, State.rgn, agetD_aset_ne _ _ _ _ _ h]

@[simp] theorem State.modRgn_sys (g : Nat) (f : Rgn → Rgn) : (s.modRgn g f).sys = s.sys := rfl
@[simp] theorem State.modRgn_io (g : Nat) (f : Rgn → Rgn) : (s.modRgn g f).io = s.io := rfl
@[simp] theorem State.modRgn_regs (g : Nat) (f : Rgn → Rgn) : (s.modRgn g f).regs = s.regs := rfl
@[simp] theorem State.modRgn_chk (g : Nat) (f : Rgn → Rgn) : (s.modRgn g f).chk = s.chk := rfl
@[simp] theorem State.modRgn_sti (g : Nat) (f : Rgn → Rgn) : (s.modRgn g f).sti = s.sti := rfl
@[simp] theorem State.modRgn_carA (g : Nat) (f : Rgn → Rgn) : (s.modRgn g f).carA = s.carA := rfl
@[simp] theorem State.modRgn_carB (g : Nat) (f : Rgn → Rgn) : (s.modRgn g f).carB = s.carB := rfl
@[simp] theorem State.modRgn_ciph (g : Nat) (f : Rgn → Rgn) : (s.modRgn g f).ciph = s.ciph := rfl
@[simp] theorem State.modRgn_seam (g : Nat) (f : Rgn → Rgn) : (s.modRgn g f).seam = s.seam := rfl
@[simp] theorem State.modRgn_cli (g : Nat) (f : Rgn → Rgn) : (s.modRgn g f).cli = s.cli := rfl
@[simp] theorem State.modRgn_tim (g : Nat) (f : Rgn → Rgn) : (s.modRgn g f).tim = s.tim := rfl
@[simp] theorem State.modRgn_mon (g : Nat) (f : Rgn → Rgn) : (s.modRgn g f).mon = s.mon := rfl
@[simp] theorem State.modRgn_cal (g : Nat) (f : Rgn → Rgn) : (s.modRgn g f).cal = s.cal := rfl
@[simp] theorem State.modRgn_mem (g : Nat) (f : Rgn → Rgn) : (s.modRgn g f).mem = s.mem := rfl
@[simp] theorem State.modRgn_boot (g : Nat) (f : Rgn → Rgn) : (s.modRgn g f).boot = s.boot := rfl
@[simp] theorem State.modRgn_retired (g : Nat) (f : Rgn → Rgn) : (s.modRgn g f).retired = s.retired := rfl
@[simp] theorem State.modRgn_pending (g : Nat) (f : Rgn → Rgn) : (s.modRgn g f).pending = s.pending := rfl
@[simp] theorem State.modRgn_rd (g : Nat) (f : Rgn → Rgn) : (s.modRgn g f).rd = s.rd := rfl
@[simp] theorem State.modRgn_ns (g : Nat) (f : Rgn → Rgn) : (s.modRgn g f).ns = s.ns := rfl

/-! ### modPort_ -/

@[simp] theorem State.modPort__cxlPort (p : Nat) (f : CxlPort → CxlPort) : (s.modPort_ p f).cxlPort p = f (s.cxlPort p) := by
  simp [State.modPort_, State.cxlPort]

theorem State.modPort__cxlPort_ne (p : Nat) (f : CxlPort → CxlPort) (j : Nat) (h : j ≠ p) : (s.modPort_ p f).cxlPort j = s.cxlPort j := by
  simp [State.modPort_, State.cxlPort, agetD_aset_ne _ _ _ _ _ h]

@[simp] theorem State.modPort__sys (p : Nat) (f : CxlPort → CxlPort) : (s.modPort_ p f).sys = s.sys := rfl
@[simp] theorem State.modPort__io (p : Nat) (f : CxlPort → CxlPort) : (s.modPort_ p f).io = s.io := rfl
@[simp] theorem State.modPort__regs (p : Nat) (f : CxlPort → CxlPort) : (s.modPort_ p f).regs = s.regs := rfl
@[simp] theorem State.modPort__chk (p : Nat) (f : CxlPort → CxlPort) : (s.modPort_ p f).chk = s.chk := rfl
@[simp] theorem State.modPort__sti (p : Nat) (f : CxlPort → CxlPort) : (s.modPort_ p f).sti = s.sti := rfl
@[simp] theorem State.modPort__carA (p : Nat) (f : CxlPort → CxlPort) : (s.modPort_ p f).carA = s.carA := rfl
@[simp] theorem State.modPort__carB (p : Nat) (f : CxlPort → CxlPort) : (s.modPort_ p f).carB = s.carB := rfl
@[simp] theorem State.modPort__ciph (p : Nat) (f : CxlPort → CxlPort) : (s.modPort_ p f).ciph = s.ciph := rfl
@[simp] theorem State.modPort__seam (p : Nat) (f : CxlPort → CxlPort) : (s.modPort_ p f).seam = s.seam := rfl
@[simp] theorem State.modPort__cli (p : Nat) (f : CxlPort → CxlPort) : (s.modPort_ p f).cli = s.cli := rfl
@[simp] theorem State.modPort__tim (p : Nat) (f : CxlPort → CxlPort) : (s.modPort_ p f).tim = s.tim := rfl
@[simp] theorem State.modPort__mon (p : Nat) (f : CxlPort → CxlPort) : (s.modPort_ p f).mon = s.mon := rfl
@[simp] theorem State.modPort__cal (p : Nat) (f : CxlPort → CxlPort) : (s.modPort_ p f).cal = s.cal := rfl
@[simp] theorem State.modPort__mem (p : Nat) (f : CxlPort → CxlPort) : (s.modPort_ p f).mem = s.mem := rfl
@[simp] theorem State.modPort__boot (p : Nat) (f : CxlPort → CxlPort) : (s.modPort_ p f).boot = s.boot := rfl
@[simp] theorem State.modPort__retired (p : Nat) (f : CxlPort → CxlPort) : (s.modPort_ p f).retired = s.retired := rfl
@[simp] theorem State.modPort__pending (p : Nat) (f : CxlPort → CxlPort) : (s.modPort_ p f).pending = s.pending := rfl
@[simp] theorem State.modPort__rd (p : Nat) (f : CxlPort → CxlPort) : (s.modPort_ p f).rd = s.rd := rfl
@[simp] theorem State.modPort__ns (p : Nat) (f : CxlPort → CxlPort) : (s.modPort_ p f).ns = s.ns := rfl

/-! ### modBias -/

@[simp] theorem State.modBias_bias (b : Nat) (f : Bias → Bias) : (s.modBias b f).bias b = f (s.bias b) := by
  simp [State.modBias, State.bias, State.modMon]

theorem State.modBias_bias_ne (b : Nat) (f : Bias → Bias) (j : Nat) (h : j ≠ b) : (s.modBias b f).bias j = s.bias j := by
  simp [State.modBias, State.bias, State.modMon, agetD_aset_ne _ _ _ _ _ h]

@[simp] theorem State.modBias_sys (b : Nat) (f : Bias → Bias) : (s.modBias b f).sys = s.sys := rfl
@[simp] theorem State.modBias_io (b : Nat) (f : Bias → Bias) : (s.modBias b f).io = s.io := rfl
@[simp] theorem State.modBias_regs (b : Nat) (f : Bias → Bias) : (s.modBias b f).regs = s.regs := rfl
@[simp] theorem State.modBias_chk (b : Nat) (f : Bias → Bias) : (s.modBias b f).chk = s.chk := rfl
@[simp] theorem State.modBias_sti (b : Nat) (f : Bias → Bias) : (s.modBias b f).sti = s.sti := rfl
@[simp] theorem State.modBias_carA (b : Nat) (f : Bias → Bias) : (s.modBias b f).carA = s.carA := rfl
@[simp] theorem State.modBias_carB (b : Nat) (f : Bias → Bias) : (s.modBias b f).carB = s.carB := rfl
@[simp] theorem State.modBias_ciph (b : Nat) (f : Bias → Bias) : (s.modBias b f).ciph = s.ciph := rfl
@[simp] theorem State.modBias_seam (b : Nat) (f : Bias → Bias) : (s.modBias b f).seam = s.seam := rfl
@[simp] theorem State.modBias_cli (b : Nat) (f : Bias → Bias) : (s.modBias b f).cli = s.cli := rfl
@[simp] theorem State.modBias_tim (b : Nat) (f : Bias → Bias) : (s.modBias b f).tim = s.tim := rfl
@[simp] theorem State.modBias_cal (b : Nat) (f : Bias → Bias) : (s.modBias b f).cal = s.cal := rfl
@[simp] theorem State.modBias_mem (b : Nat) (f : Bias → Bias) : (s.modBias b f).mem = s.mem := rfl
@[simp] theorem State.modBias_cxl (b : Nat) (f : Bias → Bias) : (s.modBias b f).cxl = s.cxl := rfl
@[simp] theorem State.modBias_boot (b : Nat) (f : Bias → Bias) : (s.modBias b f).boot = s.boot := rfl
@[simp] theorem State.modBias_retired (b : Nat) (f : Bias → Bias) : (s.modBias b f).retired = s.retired := rfl
@[simp] theorem State.modBias_pending (b : Nat) (f : Bias → Bias) : (s.modBias b f).pending = s.pending := rfl
@[simp] theorem State.modBias_rd (b : Nat) (f : Bias → Bias) : (s.modBias b f).rd = s.rd := rfl
@[simp] theorem State.modBias_ns (b : Nat) (f : Bias → Bias) : (s.modBias b f).ns = s.ns := rfl

/-! ### modCal -/

@[simp] theorem State.modCal_cali (i : Nat) (f : CalInst → CalInst) : (s.modCal i f).cali i = f (s.cali i) := by
  simp [State.modCal, State.cali]

theorem State.modCal_cali_ne (i : Nat) (f : CalInst → CalInst) (j : Nat) (h : j ≠ i) : (s.modCal i f).cali j = s.cali j := by
  simp [State.modCal, State.cali, agetD_aset_ne _ _ _ _ _ h]

@[simp] theorem State.modCal_sys (i : Nat) (f : CalInst → CalInst) : (s.modCal i f).sys = s.sys := rfl
@[simp] theorem State.modCal_io (i : Nat) (f : CalInst → CalInst) : (s.modCal i f).io = s.io := rfl
@[simp] theorem State.modCal_regs (i : Nat) (f : CalInst → CalInst) : (s.modCal i f).regs = s.regs := rfl
@[simp] theorem State.modCal_chk (i : Nat) (f : CalInst → CalInst) : (s.modCal i f).chk = s.chk := rfl
@[simp] theorem State.modCal_sti (i : Nat) (f : CalInst → CalInst) : (s.modCal i f).sti = s.sti := rfl
@[simp] theorem State.modCal_carA (i : Nat) (f : CalInst → CalInst) : (s.modCal i f).carA = s.carA := rfl
@[simp] theorem State.modCal_carB (i : Nat) (f : CalInst → CalInst) : (s.modCal i f).carB = s.carB := rfl
@[simp] theorem State.modCal_ciph (i : Nat) (f : CalInst → CalInst) : (s.modCal i f).ciph = s.ciph := rfl
@[simp] theorem State.modCal_seam (i : Nat) (f : CalInst → CalInst) : (s.modCal i f).seam = s.seam := rfl
@[simp] theorem State.modCal_cli (i : Nat) (f : CalInst → CalInst) : (s.modCal i f).cli = s.cli := rfl
@[simp] theorem State.modCal_tim (i : Nat) (f : CalInst → CalInst) : (s.modCal i f).tim = s.tim := rfl
@[simp] theorem State.modCal_mon (i : Nat) (f : CalInst → CalInst) : (s.modCal i f).mon = s.mon := rfl
@[simp] theorem State.modCal_mem (i : Nat) (f : CalInst → CalInst) : (s.modCal i f).mem = s.mem := rfl
@[simp] theorem State.modCal_cxl (i : Nat) (f : CalInst → CalInst) : (s.modCal i f).cxl = s.cxl := rfl
@[simp] theorem State.modCal_boot (i : Nat) (f : CalInst → CalInst) : (s.modCal i f).boot = s.boot := rfl
@[simp] theorem State.modCal_retired (i : Nat) (f : CalInst → CalInst) : (s.modCal i f).retired = s.retired := rfl
@[simp] theorem State.modCal_pending (i : Nat) (f : CalInst → CalInst) : (s.modCal i f).pending = s.pending := rfl
@[simp] theorem State.modCal_rd (i : Nat) (f : CalInst → CalInst) : (s.modCal i f).rd = s.rd := rfl
@[simp] theorem State.modCal_ns (i : Nat) (f : CalInst → CalInst) : (s.modCal i f).ns = s.ns := rfl

/-! ### modChk -/

@[simp] theorem State.modChk_chkUnit (u : Nat) (f : ChkUnit → ChkUnit) : (s.modChk u f).chkUnit u = f (s.chkUnit u) := by
  simp [State.modChk, State.chkUnit]

theorem State.modChk_chkUnit_ne (u : Nat) (f : ChkUnit → ChkUnit) (j : Nat) (h : j ≠ u) : (s.modChk u f).chkUnit j = s.chkUnit j := by
  simp [State.modChk, State.chkUnit, agetD_aset_ne _ _ _ _ _ h]

@[simp] theorem State.modChk_sys (u : Nat) (f : ChkUnit → ChkUnit) : (s.modChk u f).sys = s.sys := rfl
@[simp] theorem State.modChk_io (u : Nat) (f : ChkUnit → ChkUnit) : (s.modChk u f).io = s.io := rfl
@[simp] theorem State.modChk_regs (u : Nat) (f : ChkUnit → ChkUnit) : (s.modChk u f).regs = s.regs := rfl
@[simp] theorem State.modChk_sti (u : Nat) (f : ChkUnit → ChkUnit) : (s.modChk u f).sti = s.sti := rfl
@[simp] theorem State.modChk_carA (u : Nat) (f : ChkUnit → ChkUnit) : (s.modChk u f).carA = s.carA := rfl
@[simp] theorem State.modChk_carB (u : Nat) (f : ChkUnit → ChkUnit) : (s.modChk u f).carB = s.carB := rfl
@[simp] theorem State.modChk_ciph (u : Nat) (f : ChkUnit → ChkUnit) : (s.modChk u f).ciph = s.ciph := rfl
@[simp] theorem State.modChk_seam (u : Nat) (f : ChkUnit → ChkUnit) : (s.modChk u f).seam = s.seam := rfl
@[simp] theorem State.modChk_cli (u : Nat) (f : ChkUnit → ChkUnit) : (s.modChk u f).cli = s.cli := rfl
@[simp] theorem State.modChk_tim (u : Nat) (f : ChkUnit → ChkUnit) : (s.modChk u f).tim = s.tim := rfl
@[simp] theorem State.modChk_mon (u : Nat) (f : ChkUnit → ChkUnit) : (s.modChk u f).mon = s.mon := rfl
@[simp] theorem State.modChk_cal (u : Nat) (f : ChkUnit → ChkUnit) : (s.modChk u f).cal = s.cal := rfl
@[simp] theorem State.modChk_mem (u : Nat) (f : ChkUnit → ChkUnit) : (s.modChk u f).mem = s.mem := rfl
@[simp] theorem State.modChk_cxl (u : Nat) (f : ChkUnit → ChkUnit) : (s.modChk u f).cxl = s.cxl := rfl
@[simp] theorem State.modChk_boot (u : Nat) (f : ChkUnit → ChkUnit) : (s.modChk u f).boot = s.boot := rfl
@[simp] theorem State.modChk_retired (u : Nat) (f : ChkUnit → ChkUnit) : (s.modChk u f).retired = s.retired := rfl
@[simp] theorem State.modChk_pending (u : Nat) (f : ChkUnit → ChkUnit) : (s.modChk u f).pending = s.pending := rfl
@[simp] theorem State.modChk_rd (u : Nat) (f : ChkUnit → ChkUnit) : (s.modChk u f).rd = s.rd := rfl
@[simp] theorem State.modChk_ns (u : Nat) (f : ChkUnit → ChkUnit) : (s.modChk u f).ns = s.ns := rfl

/-! ### modSlot -/

@[simp] theorem State.modSlot_slot (n : Nat) (f : Slot → Slot) : (s.modSlot n f).slot n = f (s.slot n) := by
  simp [State.modSlot, State.slot]

theorem State.modSlot_slot_ne (n : Nat) (f : Slot → Slot) (j : Nat) (h : j ≠ n) : (s.modSlot n f).slot j = s.slot j := by
  simp [State.modSlot, State.slot, agetD_aset_ne _ _ _ _ _ h]

@[simp] theorem State.modSlot_sys (n : Nat) (f : Slot → Slot) : (s.modSlot n f).sys = s.sys := rfl
@[simp] theorem State.modSlot_io (n : Nat) (f : Slot → Slot) : (s.modSlot n f).io = s.io := rfl
@[simp] theorem State.modSlot_regs (n : Nat) (f : Slot → Slot) : (s.modSlot n f).regs = s.regs := rfl
@[simp] theorem State.modSlot_chk (n : Nat) (f : Slot → Slot) : (s.modSlot n f).chk = s.chk := rfl
@[simp] theorem State.modSlot_sti (n : Nat) (f : Slot → Slot) : (s.modSlot n f).sti = s.sti := rfl
@[simp] theorem State.modSlot_carA (n : Nat) (f : Slot → Slot) : (s.modSlot n f).carA = s.carA := rfl
@[simp] theorem State.modSlot_carB (n : Nat) (f : Slot → Slot) : (s.modSlot n f).carB = s.carB := rfl
@[simp] theorem State.modSlot_ciph (n : Nat) (f : Slot → Slot) : (s.modSlot n f).ciph = s.ciph := rfl
@[simp] theorem State.modSlot_seam (n : Nat) (f : Slot → Slot) : (s.modSlot n f).seam = s.seam := rfl
@[simp] theorem State.modSlot_cli (n : Nat) (f : Slot → Slot) : (s.modSlot n f).cli = s.cli := rfl
@[simp] theorem State.modSlot_mon (n : Nat) (f : Slot → Slot) : (s.modSlot n f).mon = s.mon := rfl
@[simp] theorem State.modSlot_cal (n : Nat) (f : Slot → Slot) : (s.modSlot n f).cal = s.cal := rfl
@[simp] theorem State.modSlot_mem (n : Nat) (f : Slot → Slot) : (s.modSlot n f).mem = s.mem := rfl
@[simp] theorem State.modSlot_cxl (n : Nat) (f : Slot → Slot) : (s.modSlot n f).cxl = s.cxl := rfl
@[simp] theorem State.modSlot_boot (n : Nat) (f : Slot → Slot) : (s.modSlot n f).boot = s.boot := rfl
@[simp] theorem State.modSlot_retired (n : Nat) (f : Slot → Slot) : (s.modSlot n f).retired = s.retired := rfl
@[simp] theorem State.modSlot_pending (n : Nat) (f : Slot → Slot) : (s.modSlot n f).pending = s.pending := rfl
@[simp] theorem State.modSlot_rd (n : Nat) (f : Slot → Slot) : (s.modSlot n f).rd = s.rd := rfl
@[simp] theorem State.modSlot_ns (n : Nat) (f : Slot → Slot) : (s.modSlot n f).ns = s.ns := rfl

/-! ### modDpll -/

@[simp] theorem State.modDpll_dpll (d : Nat) (f : Dpll → Dpll) : (s.modDpll d f).dpll d = f (s.dpll d) := by
  simp [State.modDpll, State.dpll]

theorem State.modDpll_dpll_ne (d : Nat) (f : Dpll → Dpll) (j : Nat) (h : j ≠ d) : (s.modDpll d f).dpll j = s.dpll j := by
  simp [State.modDpll, State.dpll, agetD_aset_ne _ _ _ _ _ h]

@[simp] theorem State.modDpll_sys (d : Nat) (f : Dpll → Dpll) : (s.modDpll d f).sys = s.sys := rfl
@[simp] theorem State.modDpll_io (d : Nat) (f : Dpll → Dpll) : (s.modDpll d f).io = s.io := rfl
@[simp] theorem State.modDpll_regs (d : Nat) (f : Dpll → Dpll) : (s.modDpll d f).regs = s.regs := rfl
@[simp] theorem State.modDpll_chk (d : Nat) (f : Dpll → Dpll) : (s.modDpll d f).chk = s.chk := rfl
@[simp] theorem State.modDpll_sti (d : Nat) (f : Dpll → Dpll) : (s.modDpll d f).sti = s.sti := rfl
@[simp] theorem State.modDpll_carA (d : Nat) (f : Dpll → Dpll) : (s.modDpll d f).carA = s.carA := rfl
@[simp] theorem State.modDpll_carB (d : Nat) (f : Dpll → Dpll) : (s.modDpll d f).carB = s.carB := rfl
@[simp] theorem State.modDpll_ciph (d : Nat) (f : Dpll → Dpll) : (s.modDpll d f).ciph = s.ciph := rfl
@[simp] theorem State.modDpll_seam (d : Nat) (f : Dpll → Dpll) : (s.modDpll d f).seam = s.seam := rfl
@[simp] theorem State.modDpll_cli (d : Nat) (f : Dpll → Dpll) : (s.modDpll d f).cli = s.cli := rfl
@[simp] theorem State.modDpll_mon (d : Nat) (f : Dpll → Dpll) : (s.modDpll d f).mon = s.mon := rfl
@[simp] theorem State.modDpll_cal (d : Nat) (f : Dpll → Dpll) : (s.modDpll d f).cal = s.cal := rfl
@[simp] theorem State.modDpll_mem (d : Nat) (f : Dpll → Dpll) : (s.modDpll d f).mem = s.mem := rfl
@[simp] theorem State.modDpll_cxl (d : Nat) (f : Dpll → Dpll) : (s.modDpll d f).cxl = s.cxl := rfl
@[simp] theorem State.modDpll_boot (d : Nat) (f : Dpll → Dpll) : (s.modDpll d f).boot = s.boot := rfl
@[simp] theorem State.modDpll_retired (d : Nat) (f : Dpll → Dpll) : (s.modDpll d f).retired = s.retired := rfl
@[simp] theorem State.modDpll_pending (d : Nat) (f : Dpll → Dpll) : (s.modDpll d f).pending = s.pending := rfl
@[simp] theorem State.modDpll_rd (d : Nat) (f : Dpll → Dpll) : (s.modDpll d f).rd = s.rd := rfl
@[simp] theorem State.modDpll_ns (d : Nat) (f : Dpll → Dpll) : (s.modDpll d f).ns = s.ns := rfl

/-! ### modOut -/

@[simp] theorem State.modOut_outSt (o : Nat) (f : OutSt → OutSt) : (s.modOut o f).outSt o = f (s.outSt o) := by
  simp [State.modOut, State.outSt]

theorem State.modOut_outSt_ne (o : Nat) (f : OutSt → OutSt) (j : Nat) (h : j ≠ o) : (s.modOut o f).outSt j = s.outSt j := by
  simp [State.modOut, State.outSt, agetD_aset_ne _ _ _ _ _ h]

@[simp] theorem State.modOut_sys (o : Nat) (f : OutSt → OutSt) : (s.modOut o f).sys = s.sys := rfl
@[simp] theorem State.modOut_io (o : Nat) (f : OutSt → OutSt) : (s.modOut o f).io = s.io := rfl
@[simp] theorem State.modOut_regs (o : Nat) (f : OutSt → OutSt) : (s.modOut o f).regs = s.regs := rfl
@[simp] theorem State.modOut_chk (o : Nat) (f : OutSt → OutSt) : (s.modOut o f).chk = s.chk := rfl
@[simp] theorem State.modOut_sti (o : Nat) (f : OutSt → OutSt) : (s.modOut o f).sti = s.sti := rfl
@[simp] theorem State.modOut_carA (o : Nat) (f : OutSt → OutSt) : (s.modOut o f).carA = s.carA := rfl
@[simp] theorem State.modOut_carB (o : Nat) (f : OutSt → OutSt) : (s.modOut o f).carB = s.carB := rfl
@[simp] theorem State.modOut_ciph (o : Nat) (f : OutSt → OutSt) : (s.modOut o f).ciph = s.ciph := rfl
@[simp] theorem State.modOut_seam (o : Nat) (f : OutSt → OutSt) : (s.modOut o f).seam = s.seam := rfl
@[simp] theorem State.modOut_cli (o : Nat) (f : OutSt → OutSt) : (s.modOut o f).cli = s.cli := rfl
@[simp] theorem State.modOut_mon (o : Nat) (f : OutSt → OutSt) : (s.modOut o f).mon = s.mon := rfl
@[simp] theorem State.modOut_cal (o : Nat) (f : OutSt → OutSt) : (s.modOut o f).cal = s.cal := rfl
@[simp] theorem State.modOut_mem (o : Nat) (f : OutSt → OutSt) : (s.modOut o f).mem = s.mem := rfl
@[simp] theorem State.modOut_cxl (o : Nat) (f : OutSt → OutSt) : (s.modOut o f).cxl = s.cxl := rfl
@[simp] theorem State.modOut_boot (o : Nat) (f : OutSt → OutSt) : (s.modOut o f).boot = s.boot := rfl
@[simp] theorem State.modOut_retired (o : Nat) (f : OutSt → OutSt) : (s.modOut o f).retired = s.retired := rfl
@[simp] theorem State.modOut_pending (o : Nat) (f : OutSt → OutSt) : (s.modOut o f).pending = s.pending := rfl
@[simp] theorem State.modOut_rd (o : Nat) (f : OutSt → OutSt) : (s.modOut o f).rd = s.rd := rfl
@[simp] theorem State.modOut_ns (o : Nat) (f : OutSt → OutSt) : (s.modOut o f).ns = s.ns := rfl

end Sys2Proof.Machine
end

