-- ==== Sys2Proof/Machine/Figures.lean ====
section
/-! DEFINITION. Figures that the spec computes from the state and that no register shows: latency and power of Press, power
of the decoders and of the package (R96, R97, R169, R548), and the capabilities of the PCI Express functions (R462). -/

namespace Sys2Proof.Machine

/-- Latency of a carrier's assigned steps in fs (R97): 2.5 × N / Fs each, at 5/4 samples a symbol. -/
def State.pressLatency (s : State) (x : Carrier) : Nat :=
  let kbd := s.cfx F.CAR_RXC_RATE_KBD x
  s.steps x * (2 * blockN kbd * 1000000000000 / max 1 kbd)

/-- Press power in µW of `a` active and `t` transparent steps at a symbol rate (R96). -/
def stepPower (a t kbd : Nat) : Nat := (1100000 * a + 200000 * t) * kbd / 256000000

/-- Press power in µW, both carriers summed (R96). -/
def State.pressPower (s : State) : Nat :=
  let one (x : Carrier) :=
    let a := (s.activeSteps x).length
    stepPower a (s.steps x - a) (s.cfx F.CAR_RXC_RATE_KBD x)
  one .A + one .B

/-- Coded bit rate of a carrier's receive side in Mb/s (R159). -/
def State.codedRate (s : State) (x : Carrier) : Nat :=
  codedBits (payloadP (s.cfx F.CAR_RXC_CTL_SC_LOG2 x) (s.car x).rxc.pilot) (recB (s.rxRecord s.rd x)) *
    s.cfx F.CAR_RXC_RATE_KBD x / 65536000

/-- Decoder power in µW at a coded bit rate in Mb/s and an average of passes per block in 1/256 (R169). -/
def decoderPower (pass mbs : Nat) : Nat := (256000000 + 800000 * pass) * mbs / (256 * 4000000)

/-- Power of a carrier's other processing in µW (R548). -/
def dspPower (kbd mbs : Nat) : Nat := 9000000 * kbd / 256000000 + 3 * mbs

/-- Rate in Gb/s of the clients that enabled channels carry (R39). -/
def State.clientRate (s : State) : Nat :=
  ((List.range 1024).filter fun c => s.cf F.CLI_CH_CFG_EN c == 1).foldl (fun a c => a + chRate s.rd c) 0

/-- Package power in µW (R548): a carrier counts while its receiver or its transmitter is enabled. -/
def State.packagePower (s : State) : Nat :=
  let dies := ([Die.RXA, .TXA, .RXB, .TXB].filter fun d => !(s.die d).fault).length
  let cars := [Carrier.A, .B].filter fun x => s.cfx F.CAR_RXC_CTL_RX_EN x == 1 || s.cfx F.CAR_TX_CTL_TX_EN x == 1
  let car (x : Carrier) := decoderPower (s.car x).fec.avgPass (s.codedRate x) +
    dspPower (s.cfx F.CAR_RXC_RATE_KBD x) (s.codedRate x)
  8500000 * dies + s.pressPower + (if s.steps .A + s.steps .B = 0 then 0 else 3200000) +
    (cars.map car).foldl (· + ·) 0 + 4375 * s.clientRate + 24800000

/-- Capability structures of a function's configuration space (R462). -/
inductive PcieCap where
  | powerManagement | pciExpress | msix | advancedErrors | serialNumber | secondary | dataLinkFeature
  | physical16 | physical32 | physical64 | laneMargining
deriving DecidableEq, Repr

/-- Where each structure lies; the serial number is PF0's alone (R462). -/
def pcieCaps (fn : Fn) : List (Nat × PcieCap) :=
  [(0x040, .powerManagement), (0x050, .pciExpress), (0x0B0, .msix), (0x100, .advancedErrors)] ++
    (if fn = .PF0 then [(0x148, .serialNumber)] else []) ++
    [(0x158, .secondary), (0x180, .dataLinkFeature), (0x190, .physical16), (0x1C0, .physical32), (0x200, .physical64),
     (0x230, .laneMargining)]

/-- PCI Express device ID of a function (R461). -/
def pcieDevice (fn : Fn) : Nat :=
  match fn with
  | .PF0 => 0x2432
  | .PF1 => 0x2433

/-- The device serial number: IDENT, zero while the identity is not ready (R462, R530). -/
def State.deviceSerial (s : State) : Bytes := if s.boot.idState = 1 then padTo 8 s.boot.ident else List.replicate 8 0

end Sys2Proof.Machine
end

