-- ==== Sys2Proof/Tests/Slice0.lean ====
section
/-! SUPPORT. Tests: ill-formed commands are refused; worked examples of the spec; for each obligation a witness, which
shows for each of its clauses a concrete state and operands that meet the clause's hypotheses. -/

namespace Sys2Proof.Machine

set_option Elab.async false

/-! ### Helpers -/

/-- A state out of reset that meets a condition. -/
abbrev At (s : State) (p : State → Prop) : Prop := s.sys.held = false ∧ p s

/-- Set fields of registers. -/
def State.put (s : State) (l : List (Fref × Nat × Nat)) : State := l.foldl (fun s e => s.setField e.1 e.2.1 e.2.2) s

/-- Set fields of carrier A's registers. -/
def State.putA (s : State) (l : List (Fref × Nat)) : State := l.foldl (fun s e => s.setFieldx e.1 .A 0 e.2) s

/-- Bytes with little-endian numbers put at offsets: offset, size, value. -/
def putBytes (b : Bytes) (l : List (Nat × Nat × Nat)) : Bytes :=
  l.foldl (fun b e => b.take e.1 ++ leBytes e.2.1 e.2.2 ++ b.drop (e.1 + e.2.1)) b

/-- A dispatched command: opcode and fields of its descriptor, data of its buffer. -/
def tCmd (op : Nat) (l : List (Nat × Nat × Nat)) (data : Option Bytes := none) : ExecCmd :=
  ⟨putBytes (List.replicate 64 0) ((0, 2, op) :: l), match data with | some d => .ready (d ++ [0, 0, 0, 0]) | none => .none,
   false⟩

/-- A command in execution on PF0's ring 0, with the management processor up. -/
def State.runs (s : State) (c : ExecCmd) : State :=
  (s.modBoot fun b => { b with mpUp := true }).modRing .PF0 0 fun g =>
    { g with st := .running, prod := 1, exec := some c }

/-- The four stitch links aligned, on locked clocks, without a fault. -/
def State.diesUp (s : State) : State :=
  [Die.RXA, .TXA, .RXB, .TXB].foldl (fun s d => s.modDie d fun _ => ⟨true, true, true, false⟩) s

/-- Carrier A's receiver has its input and is in a state. -/
def State.rxIn (s : State) (st : RxSt) : State :=
  ((s.diesUp.putA [(F.CAR_RXC_CTL_RX_EN, 1)]).modFe .A fun f => { f with cde := 2 }).modRxc .A fun c =>
    { c with st := st }

/-- Carrier A's output may send and is in a state. -/
def State.txIn (s : State) (st : TxSt) : State :=
  { ((s.diesUp.putA [(F.CAR_TX_CTL_TX_EN, 1), (F.CAR_TX_CTL_SQUELCH, 0)]).modTx .A fun t =>
      { t with st := st, resetForced := false }) with tim := { s.tim with root := true } }

/-- A channel with slots on both carriers, protected or bonded. -/
def State.placed2 (s : State) (c a b bond : Nat) : State :=
  s.put [(F.CLI_CH_SLOTS_SLOTS_A, c, a), (F.CLI_CH_SLOTS_SLOTS_B, c, b), (F.CLI_CH_SLOTS_BOND, c, bond),
         (F.CLI_CH_CFG_EN, c, 1)]

/-- The PCI Express link is up. -/
def State.withLink (s : State) : State := { s with io := { s.io with link := true } }

/-! ### Well-formedness: an ill-formed term for each check -/

theorem test_wf_refuses_registers :
    [Instr.registerWrite .pf0 2 [(15, 0)] false, .registerWrite .pf0 0x4000000 [(15, 0)] false,
     .registerWrite .pf0 0 [] false, .registerWrite .pf0 0 (List.replicate 1025 (15, 0)) false,
     .loCounterRead .pf0 1 4, .loCounterRead .pf0 0 0, .loCounterRead .pf0 0 4097, .counterWrite .pf0 3 0 false,
     .evtSeqClear .pf0 6 0, .tableWindowWrite 0x2100000 false 0, .tableWindowWrite 0x2000004 true 0,
     .hostWindowRead .pf0 0x2200000 false 0, .hostWindowRead .pf0 0x2400004 true 0,
     .bwWindowEnd []].all (fun i => !i.wf) = true := by decide +kernel

theorem test_wf_refuses_rings :
    [Instr.nop .PF0 64, .nop .PF1 8, .ringEnable .PF1 8 0 6 0, .doorbell .PF0 64 0, .ringDisable .PF1 8,
     .ringResume .PF1 8, .descriptorReread .PF1 8 .error, .descriptorArrive .PF0 64 [],
     .commandTimeout .PF1 8, .bufferReadDone .PF1 8 .error, .cancel .PF1 8, .snapshot .PF1 8, .commit .PF1 8,
     .stagedRead .PF1 8, .fwDownload .PF1 8, .fwActivate .PF1 8, .attest .PF1 8, .evrEnable .PF0 4 0,
     .evrEnable .PF1 2 0, .evrHeadWrite .PF1 2 0, .coalesceTimer .PF1 2].all (fun i => !i.wf) = true := by
  decide +kernel

theorem test_wf_refuses_commands :
    [Instr.tableLoad .PF1 8, .profileLoad .PF1 8, .capture .PF1 8, .captureStop .PF1 8, .planCompute .PF1 8,
     .planPropose .PF1 8, .planPush .PF1 8, .planLocal .PF1 8, .planApprove .PF1 8, .msgSend .PF1 8, .keyInstall .PF1 8,
     .peerLoad .PF1 8, .keyAgree .PF1 8, .seamSwitch .PF1 8, .calibrate .PF1 8 false].all (fun i => !i.wf) = true := by
  decide +kernel

theorem test_wf_refuses_measurements :
    [Instr.deviceFrameTick [(1024, [])] (0, 0), .symbolFrameBoundary .A .rx (some ⟨[0, 0, 0, 0, 0], [], 0, true, 0, 0, 0⟩),
     .symbolFrameBoundary .A .rx (some ⟨[], [(0, 0), (0, 0), (0, 0)], 0, true, 0, 0, 0⟩),
     .symbolFrameBoundary .A .rx (some ⟨[], [], 0, true, 257, 0, 0⟩), .engineTakeover .A 32,
     .snrWindowEnd .A (some (List.replicate 17 (0, 0, 0, 0))), .meanSnrInterval .A (some (List.replicate 17 (0, 0, 0, 0))),
     .captureTrigger .A 0x10000, .blockLock .A 0 [0], .codeBlockDecode .A .flush [] 256,
     .codeBlockDecode .A .flush (List.replicate 9 0) 0, .rxFrameReceived .A 0 (some ([], [(1, 0)])), .keyRollDue [1024], .seamPairMeasure (2 ^ 32) 0 0, .seamFrameOut (2 ^ 40) false [],
     .tackDetection .A [], .tackDetection .A (List.replicate 7 (.live, false, 0, 0)), .reassemblyTimeout .A 256,
     .integrationEnd .A ⟨10001, 0, [], [], [], []⟩, .integrationEnd .A ⟨0, 10001, [], [], [], []⟩,
     .integrationEnd .A ⟨0, 0, [], [(256, 0, 0)], [], []⟩,
     .calPass1End 0 (List.replicate 769 0), .calPass2End 0 (List.replicate 769 0)].all (fun i => !i.wf) = true := by
  decide +kernel

theorem test_wf_refuses_memories :
    [Instr.starchDone [(0, 2 ^ 19)] 0, .rinseRead 0 (2 ^ 23) 0 none false, .ueReread 0 (2 ^ 23) false none none,
     .rowPatchDone 0 (2 ^ 19), .goldenReloadDone 0 (2 ^ 23), .memInject 0 0 false (some (2 ^ 23)), .cxlPortUp 0 1 1 1025,
     .cxlRetrainTimer 0 (some (1, 1, 1025)), .powerOnReset 65, .supplyUndervoltage 0 65].all (fun i => !i.wf) = true := by
  decide +kernel

theorem test_wf_refuses_long_lists (l : List CapEnt) (g : List ReadOut) (h : 524288 < l.length)
    (hg : 65536 < g.length) :
    (Instr.captureFillEnd .A 0 l).wf = false ∧ (Instr.descriptorArrive .PF0 0 g).wf = false := by
  simp only [Instr.wf, ringOk, Bool.and_eq_false_iff, decide_eq_false_iff_not]
  omega

/-! ### The spec's own examples -/

/-- No row gives bits, so no word spells a command (spec/opcode_table.json). -/
theorem test_no_word_spells_a_command : ∀ n : Fin 64, Sys2Proof.decodeTableWord 16 n = none := fun _ => rfl

/-- The bytes "123456789". -/
def tDigits : Bytes := [0x31, 0x32, 0x33, 0x34, 0x35, 0x36, 0x37, 0x38, 0x39]

/-- Check values of the table of R516 (chapter 19). -/
theorem test_check_values : crc16 tDigits = 0x29B1 ∧ crc32c tDigits = 0xE3069283 := by decide +kernel

/-- Signed codes of chapter 0's worked example: 0x0473 is +1,139 and 0xFD80 is −640. -/
theorem test_signed_codes : sgn 16 0x0473 = 1139 ∧ sgn 16 0xFD80 = -640 := by decide

/-- STAGED_READ of offset 0x0115_0000 with TX_EN staged gives 0x000C_0801 (worked example of chapter 18). -/
theorem test_staged_read_tx_ctl :
    (State.reset.putA [(F.CAR_TX_CTL_TX_EN, 1), (F.CAR_TX_CTL_SQUELCH, 0), (F.CAR_TX_CTL_ROLLOFF, 1),
      (F.CAR_TX_CTL_SC_LOG2, 4), (F.CAR_TX_CTL_PILOT, 1)]).stagedAt .PF0 0x01150000 = 0x000C0801 := by decide +kernel

/-- A burst of a segment of L = 198 at SF 16 with ramps of 16 µs lasts 998.656 µs (worked example of chapter 12). -/
theorem test_tack_burst_length : tkAir 16 1 198 16 = 998656 := by decide

/-- DEC 6: the group delay is 729.69 µs (worked example of chapter 15). -/
theorem test_group_delay : (State.reset.put [(F.MON_CTL_DEC, 0, 6)]).groupDelay / 10 = 72968 := by decide +kernel

/-- AF is 1.792 at 105 °C, 0.540 at 85 °C and 1 at 95 °C (R553). -/
theorem test_life_factor : (1000 * lifeAF 105 + 2 ^ 95) / 2 ^ 96 = 1792 ∧ (1000 * lifeAF 85 + 2 ^ 95) / 2 ^ 96 = 540 ∧
    lifeAF 95 = 2 ^ 96 := by decide +kernel

/-- Halfway through its ramp XI is 100 + round(26 × 0.5) = 113 (worked example of chapter 16). -/
theorem test_calibration_values :
    roundDiv (120 + 131) 2 = 126 ∧ roundDiv (-64 + -70) 2 = -67 ∧ roundDiv (8 + 2) 2 = 5 ∧ roundDiv (300 + 309) 2 = 305 := by
  decide +kernel

/-- The deskewed load of the mixed configuration is 77 + 39 + 39 = 155 slots (worked example of chapter 1). -/
theorem test_deskewed_load :
    let s := ((State.reset.placed2 0 39 38 1).placed2 1 39 39 0).placed2 2 39 39 0
    deskewSlots s.rd 0 = 77 ∧ deskewSlots s.rd 1 = 39 ∧ deskewSlots s.rd 2 = 39 := by decide +kernel

/-- FEC_CORR just below 3 × 2³²: a read of LO returns 0xFFFF_FFFF; the count steps; HI then returns the latched 2 (worked
example of chapter 19). -/
theorem test_counter_pair_is_one_instant :
    let s := { State.reset with io := { State.reset.io with cnt := [(⟨.CAR_FEC_CORR_LO, 0⟩, 0x2FFFFFFFF)] } }
    let r1 := s.read32 .pf0 0x01140038
    let r2 := (r1.1.bump64 .CAR_FEC_CORR_LO 0).read32 .pf0 0x0114003C
    r1.2.1 = 0xFFFFFFFF ∧ r2.2.1 = 2 := by decide +kernel

/-- R548: decoders and other processing of both carriers at C = 2.964 Tb/s and 16 passes, in 10 mW; R96: 48 steps, in mW. -/
theorem test_power_figures : 2 * decoderPower 4096 2964000 / 10000 = 2045 ∧ 2 * dspPower 256000000 2964000 / 10000 = 3578 ∧
    stepPower 48 0 256000000 / 1000 = 52800 := by decide

theorem test_reset_cells : Memory.wf State.reset.mem.windows = true := by decide

/-! ### Witnesses: registers, reads and counters -/

theorem witness_RegisterWriteTakesEffect :
    At State.reset (fun s => regAt .pf0 0x700000 = some ⟨.MON_CTL, 0⟩ ∧ RegId.MON_CTL.actsOnWrite = false ∧
      (∀ f ∈ pinchSets .MON_CTL, bits (merge (s.rd ⟨.MON_CTL, 0⟩) 3 (beMask 15)) f.hi f.lo ≠ 0x8000) ∧
      (3 : Word) &&& stagedMask .MON_CTL ≠ 0) ∧
    At State.reset (fun _ => regAt .mp (RegKey.off ⟨.CAR_TX_LEVEL, 1⟩) = some ⟨.CAR_TX_LEVEL, 1⟩ ∧
      RegId.CAR_TX_LEVEL.actsOnWrite = false ∧
      pinchSets .CAR_TX_LEVEL = [F.CAR_TX_LEVEL_BACKOFF] ∧
      bits (0x8000 : Word) F.CAR_TX_LEVEL_BACKOFF.hi F.CAR_TX_LEVEL_BACKOFF.lo = 0x8000) := by decide +kernel

theorem witness_ReservedWordsReadZero :
    At State.reset fun _ => reservedAt .pf0 0x7C = true ∧ reservedAt .pf1 0x7FFFC = true := by decide +kernel

/-- The line code's counter of corrected bits of carrier A. -/
def tCorr : RegKey := ⟨.CAR_FEC_CORR_LO, 0⟩

theorem witness_CounterPairReads :
    At State.reset fun _ => tCorr.reg.isCnt = true ∧ hiOf tCorr.reg = [.CAR_FEC_CORR_HI] ∧
      regAt .pf0 tCorr.off = some tCorr ∧ regAt .pf0 (RegKey.off ⟨.CAR_FEC_CORR_HI, 0⟩) = some ⟨.CAR_FEC_CORR_HI, 0⟩ := by
  decide +kernel

theorem witness_DeviceTimeReads : At State.reset (fun _ => Agent.pf1 ≠ .page) ∧
    At (State.reset.put [(F.PRF_CTL_USER_EN, 0, 1)]) (fun s => s.cf F.PRF_CTL_USER_EN 0 = 1) := by decide +kernel

theorem witness_CounterWrites :
    At State.reset (fun _ => regAt .pf0 tCorr.off = some tCorr ∧ tCorr.reg.isCnt = true ∧ tCorr.reg.cntFixed = false ∧
      hiOf tCorr.reg = [.CAR_FEC_CORR_HI] ∧ regAt .pf0 (tCorr.off + 4) = some ⟨.CAR_FEC_CORR_HI, 0⟩ ∧
      RegId.CAR_FEC_CORR_HI.isCnt = true ∧ RegId.CAR_FEC_CORR_HI.cntFixed = false ∧
      loOf .CAR_FEC_CORR_HI = some .CAR_FEC_CORR_LO) ∧
    At State.reset (fun _ => regAt .pf0 (RegKey.off ⟨.CAR_RXC_SLIP, 1⟩) = some ⟨.CAR_RXC_SLIP, 1⟩ ∧
      RegId.CAR_RXC_SLIP.isCnt = true ∧ RegId.CAR_RXC_SLIP.cntFixed = false ∧ hiOf .CAR_RXC_SLIP = [] ∧
      loOf .CAR_RXC_SLIP = none) ∧
    At State.reset (fun _ => regAt .pf0 (RegKey.off ⟨.CAR_RXC_SFC_LO, 0⟩) = some ⟨.CAR_RXC_SFC_LO, 0⟩ ∧
      RegId.CAR_RXC_SFC_LO.isCnt = true ∧ RegId.CAR_RXC_SFC_LO.cntFixed = true) := by decide +kernel

/-- The line code's EVENTS register with two bits set and SEQ 0x80. -/
def tEvt : State := { State.reset with io := { ioReset with evtw := [(⟨.CAR_FEC_EVT, 0⟩, 0x80000003)] } }

theorem witness_EventRegisterClear :
    At tEvt fun s => regAt .pf0 (RegKey.off ⟨.CAR_FEC_EVT, 0⟩) = some ⟨.CAR_FEC_EVT, 0⟩ ∧ RegId.CAR_FEC_EVT.isSqc = true ∧
      bits (0x80000001 : Word) 31 24 = bits (agetD s.io.evtw ⟨.CAR_FEC_EVT, 0⟩ 0) 31 24 ∧
      bits (0x7F000001 : Word) 31 24 ≠ bits (agetD s.io.evtw ⟨.CAR_FEC_EVT, 0⟩ 0) 31 24 := by decide +kernel

theorem witness_SnapshotsAndBandwidth :
    At State.reset (fun _ => RegKey.block ⟨.CAR_FEC_BLK_LO, 0⟩ = 13 ∧ loOf .CAR_FEC_BLK_LO = none ∧
      RegId.CAR_FEC_BLK_LO.isCnt = true) ∧
    At (State.reset.put [(F.PRF_BW_CTL_EN, 0, 1)]) (fun s => s.cf F.PRF_BW_CTL_EN 0 = 1) := by decide +kernel

/-- A check unit with 15 writes queued. -/
def tChk : State := { State.reset with chk := [(0, ⟨0, List.replicate 15 [.byte 7]⟩)] }

theorem witness_CheckUnits : At tChk fun s => (s.chkUnit 0).queue.length < 16 ∧ (1 : BitVec 4) ≠ 0 := by decide +kernel

theorem witness_TableWindows :
    At (State.reset.putA [(F.CAR_CDE_CTL_TABLE_MODE, 1), (F.CAR_CDE_CTL_LOAD_EN, 1)]) (fun s =>
      s.cfx F.CAR_CDE_CTL_TABLE_MODE .A ≠ 0 ∧ s.cfx F.CAR_CDE_CTL_LOAD_EN .A ≠ 0 ∧ s.cf F.MEM_INJ_ARM 0 = 0) ∧
    At State.reset (fun s => s.cfx F.CAR_CDE_CTL_TABLE_MODE .A = 0 ∧ aget (s.memo 0).errs 65535 = none ∧
      s.poisoned 0 65535 = false) ∧
    At (State.reset.modMem 0 fun m => { m with poison := [(65535, 0)] }) (fun s => s.poisoned 0 65535 = true) := by
  decide +kernel

/-! ### Witnesses: stitch links -/

/-- State.reset with lane 0 of module 0 of die RXA changed. -/
def tLane (f : Lane → Lane) : State := State.reset.modLane .RXA 0 0 f
/-- With module 0 of die RXA changed. -/
def tMod (f : Module → Module) : State := State.reset.modSmod .RXA 0 f

theorem witness_StitchLaneStates :
    At (tLane fun l => { l with run := 64 }) (fun s => (s.lane .RXA 0 0).st = .hunt ∧ 64 ≤ (s.lane .RXA 0 0).run) ∧
    At (tLane fun l => { l with st := .locked, win := List.replicate 16 true }) (fun s =>
      (s.lane .RXA 0 0).st = .locked ∧ 16 ≤ ((s.lane .RXA 0 0).win.filter id).length) ∧
    At State.reset.diesUp (fun s => (s.die .TXB).clk = true ∧ (s.lane .TXB 25 17).st = .hunt ∧
      (s.lane .TXB 25 17).retr = false) := by decide +kernel

/-- Lane 2 moves to spare 16, one request sent. -/
def tDarn : Darn := ⟨2, 2, 16, 1⟩

theorem witness_StitchDarning :
    At (tMod fun m => { m with darns := [tDarn] }) (fun s =>
      sbGood (BitVec.ofNat 64 (sbMsg 1 0 2 16 0)) = true ∧ sbByte (BitVec.ofNat 64 (sbMsg 1 0 2 16 0)) 0 = 1 ∧
      sbByte (BitVec.ofNat 64 (sbMsg 1 0 2 16 0)) 1 = 0 ∧ sbByte (BitVec.ofNat 64 (sbMsg 1 0 2 16 0)) 3 = 16 ∧
      sbByte (BitVec.ofNat 64 (sbMsg 1 0 2 16 0)) 2 = (2 : Fin 16).val ∧
      (s.smod .RXA 0).darns.find? (·.logical == 2) = some tDarn ∧ tDarn.sends = 1 ∧
      (s.lane .RXA 0 tDarn.spare).markL = none) ∧
    At (tMod fun m => { m with sendOn := [(2, 17)] }) (fun s =>
      16 ≤ sbByte (BitVec.ofNat 64 (sbMsg 1 0 17 16 0)) 2 ∧
      (s.smod .RXA 0).sends (sbByte (BitVec.ofNat 64 (sbMsg 1 0 17 16 0)) 2) = some (2 : Fin 16).val) ∧
    At ((tMod fun m => { m with darns := [tDarn] }).modLane .RXA 0 16 fun l =>
        { l with st := .locked, mark := some 0, markL := some 2 }) (fun s =>
      (s.smod .RXA 0).darns.find? (·.spare == 16) = some tDarn ∧ (s.lane .RXA 0 16).st = .locked ∧
      (s.lane .RXA 0 16).markL = some tDarn.logical ∧ tDarn.fromL ≠ 16 ∧ (s.lane .RXA 0 tDarn.spare).markL.isSome = true ∧
      (s.smod .RXA 0).darns.find? (·.logical == 2) = some tDarn) := by decide +kernel

theorem witness_StitchSideband :
    At State.reset (fun _ => sbGood (BitVec.ofNat 64 (sbMsg 2 0 7 8 9)) = true ∧
      sbGood (BitVec.ofNat 64 (sbMsg 2 0 7 8 9 + 2 ^ 63)) = false ∧ sbByte (BitVec.ofNat 64 (sbMsg 2 0 7 8 9)) 0 = 2 ∧
      sbByte (BitVec.ofNat 64 (sbMsg 2 0 7 8 9)) 1 = 0 ∧ sbByte (BitVec.ofNat 64 (sbMsg 2 0 7 8 9)) 4 ≠ 31 ∧
      sbGood (BitVec.ofNat 64 (sbMsg 2 0 0 0 (31 * 65536 + 1))) = true ∧
      sbByte (BitVec.ofNat 64 (sbMsg 2 0 0 0 (31 * 65536 + 1))) 4 = 31) ∧
    At (tMod fun m => { m with sbGood := 8 }) (fun s => 8 ≤ (s.smod .RXA 0).sbGood ∧ (s.smod .RXA 0).sbLock = false) ∧
    At (tMod fun m => { m with sbBad := 4, sbLock := true }) (fun s =>
      4 ≤ (s.smod .RXA 0).sbBad ∧ (s.smod .RXA 0).sbLock = true) := by decide +kernel

/-- The test setting of lane 0: generator and checker on, an injection mode and rate. -/
def tCtl (mode rate : Nat) : Nat := 3 + 256 * mode + 1024 * rate

theorem witness_StitchLaneTests :
    At ((State.reset.put [(F.STI_LANE_CTL_GEN_EN, 0, 1), (F.STI_LANE_CTL_CHK_EN, 0, 1)]).modSend .RXA 0 0 fun q =>
        { q with ctl := tCtl 1 0 }) (fun s => laneIdx .RXA 0 0 = 0 ∧
      bit (s.sendCtl .RXA 0 0) 0 = true ∧ s.sendCtl .RXA 0 0 / 256 % 4 = 1) ∧
    At (State.reset.modSend .RXA 0 0 fun q => { q with ctl := tCtl 2 10 }) (fun s => bit (s.sendCtl .RXA 0 0) 0 = true ∧
      s.sendCtl .RXA 0 0 / 256 % 4 = 2 ∧ 10 ≤ s.sendCtl .RXA 0 0 / 1024 % 64 ∧ s.sendCtl .RXA 0 0 / 1024 % 64 ≤ 40) ∧
    At ((tLane fun l => { l with crun := 1024 }).put [(F.STI_LANE_CTL_CHK_EN, 0, 1)]) (fun s =>
      bit (s.recvCtl .RXA 0 0) 1 = true ∧ (s.lane .RXA 0 0).sync = false ∧ 1024 ≤ (s.lane .RXA 0 0).crun) ∧
    At ((tLane fun l => { l with sync := true, perr := 256 }).put [(F.STI_LANE_CTL_CHK_EN, 0, 1)]) (fun s =>
      bit (s.recvCtl .RXA 0 0) 1 = true ∧ (s.lane .RXA 0 0).sync = true ∧ 256 ≤ (s.lane .RXA 0 0).perr) ∧
    At State.reset (fun s => s.testAllowed .RXA 0 0 = false ∧ s.testAllowed .RXA 0 16 = true) := by decide +kernel

theorem witness_ConverterClocksAndPaths :
    At (State.reset.modDie .RXA fun _ => ⟨true, true, true, true⟩) fun s => (s.die .RXA).clk = true ∧
      (s.die .RXA).fault = true ∧ s.pathCause .RXA = false ∧ (s.die .RXA).aligned = true := by decide +kernel

theorem witness_StitchBlocks :
    At (tLane fun l => { l with st := .hunt }) (fun s => (s.lane .RXA 0 0).st = .hunt ∧
      bit (s.sendCtl .RXA 0 0) 0 = false ∧ Die.RXA.isRx = true ∧ (s.die .RXA).clk = false ∧
      blkByte (descramble (s.lane .RXA 0 0).scr 0) 0 ≠ 0x4D) ∧
    At { ((tLane fun l => { l with st := .locked, carries := some 0 }).diesUp.modSmod .RXA 0 fun m =>
          { m with deg := false }) with
        sti := { ((tLane fun l => { l with st := .locked, carries := some 0 }).diesUp.modSmod .RXA 0 fun m =>
          { m with deg := false }).sti with buf := [((.RXA, 0), List.replicate 16 (some (4, some 7)))] } }
      (fun s => (s.lane .RXA 0 0).st = .locked ∧ (s.lane .RXA 0 0).carries = some (0 : Fin 16).val ∧
      (s.lane .RXA 0 0).idle = false ∧ (s.die .RXA).clk = true ∧ (s.smod .RXA 0).deg = false ∧
      (agetD s.sti.buf (.RXA, 16 * 0 + 0) []).drop 15 = [some (4, some 7)]) ∧
    At ((State.reset.modLane .TXA 0 0 fun l => { l with st := .failed, carries := some 0 }).diesUp.modSmod .TXA 0 fun m =>
        { m with deg := true })
      (fun s => (s.lane .TXA 0 0).st = .failed ∧ (s.lane .TXA 0 0).carries = some (0 : Fin 16).val ∧
      (s.die .TXA).clk = true ∧ (s.smod .TXA 0).deg = true ∧ Die.TXA.isRx = false ∧ (s.car Die.TXA.car).tx.st = .forced) ∧
    At ((State.reset.diesUp.txIn .on).modSend .TXA 0 0 fun l => { l with sent := 0 }) (fun s =>
      (s.car Die.TXA.car).tx.st ≠ .forced ∧ (s.send .TXA 0 0).sent = 0 ∧ bit (s.sendCtl .TXA 0 0) 0 = false) ∧
    At (State.reset.diesUp.modSend .RXA 0 16 fun l => { l with sent := 7, extra := true }) (fun s =>
      (s.send .RXA 0 16).sent ≠ 0 ∧ (s.send .RXA 0 16).extra = true ∧ (s.die .RXA).clk = true) ∧
    At { State.reset.diesUp.modSend .RXA 0 0 fun l => { l with sent := 7, extra := false } with
        sti := { (State.reset.diesUp.modSend .RXA 0 0 fun l => { l with sent := 7, extra := false }).sti with
          words := [((.RXA, 0), [5])] } }
      (fun s => bit (s.sendCtl .RXA 0 0) 0 = false ∧ (s.die .RXA).clk = true ∧ (s.send .RXA 0 0).sent ≠ 0 ∧
      (s.send .RXA 0 0).extra = false ∧ (s.smod .RXA 0).sends 0 = some (0 : Fin 16).val ∧ Die.RXA.isRx = true ∧
      agetD s.sti.words (.RXA, 16 * 0 + 0) [] = [5]) := by decide +kernel

/-- The block of a marker of lane 3 of module 0 that carries logical lane 3, of count 9, before its scrambler. -/
def tMark : BitVec 256 := ctlBlock 0x4D 0 3 3 9
/-- The lanes of module 0 of die RXA are LOCKED, those but lane 3 one block after the marker of count 9. -/
def tMarks : State := (List.range 18).foldl (fun s i => s.modLane .RXA 0 i fun l =>
  { l with st := .locked, carries := if i < 16 then some i else none, mark := if i = 3 then none else some 9, since := 1 })
  State.reset
/-- The marker as lane 3 receives it. -/
def tMarkRx : BitVec 256 := BitVec.ofNat 256 (scrambleBits tMark 256 (tMarks.lane .RXA 0 3).scr).2

theorem witness_StitchMarkers :
    At tMarks fun s => (s.lane .RXA 0 3).st = .locked ∧ descramble (s.lane .RXA 0 3).scr tMarkRx = tMark ∧
      blkByte tMark 0 = 0x4D ∧ tMark.toNat / 256 ^ 24 % 2 ^ 32 = 9 ∧ ownMarker tMark 0 3 = true ∧
      (s.smod .RXA 0).darns = [] ∧ (∀ i : Fin 18, i ≠ 3 → (s.lane .RXA 0 i).busy = true →
        (s.lane .RXA 0 i).st = .locked ∧ (s.lane .RXA 0 i).mark = some 9 ∧
        near 8 ((s.lane .RXA 0 i).place.getD 0) (9 * 4096 % 2 ^ 44) = true) := by decide +kernel

/-! ### Witnesses: dispersion and Press -/

theorem witness_DispersionTable :
    At (State.reset.modFe .A fun f => { f with cde := 1 }) (fun s => s.carA.fe.cde = 1 ∧ s.cf F.MEM_INJ_ARM 0 = 0) ∧
    At ((State.reset.putA [(F.CAR_CDE_CTL_TABLE_MODE, 1)]).modFe .A fun f => { f with cde := 2 }) (fun s =>
      s.cfx F.CAR_CDE_CTL_TABLE_MODE .A ≠ 0 ∧ s.carA.fe.cde ≠ 0 ∧ s.cfx F.CAR_CDE_CTL_LOAD_EN .A ≠ b2n true) ∧
    At State.reset (fun s => s.cfx F.CAR_CDE_CTL_TABLE_MODE .A = 0) ∧
    At (State.reset.runs (tCmd 0x0201 [(17, 1, 3), (18, 1, 6)] (some ([1, 0, 3, 6] ++ List.replicate 492 0)))) (fun s =>
      ∃ c, s.running .PF0 0 0x0201 = some c ∧ byteAt c.desc 17 < 4 ∧ byteAt c.desc 18 < 7 ∧ leAt c.data 0 2 = 1 ∧
      byteAt c.data 2 = byteAt c.desc 17 ∧ byteAt c.data 3 = byteAt c.desc 18) := by
  refine ⟨?_, ?_, ?_, ?_, ⟨tCmd 0x0201 [(17, 1, 3), (18, 1, 6)] (some ([1, 0, 3, 6] ++ List.replicate 492 0)), ?_⟩⟩ <;>
    decide +kernel

theorem witness_BlindEstimation :
    At (State.reset.putA [(F.CAR_CDE_CTL_SOURCE, 2)] |>.modFe .A fun f => { f with cde := 2 }) (fun s =>
      s.cfx F.CAR_CDE_CTL_SOURCE .A = 2 ∧ s.carA.fe.est = none ∧ s.carA.fe.cde = 2) ∧
    At ((State.reset.putA [(F.CAR_CDE_CTL_SOURCE, 1), (F.CAR_RXC_CTL_RX_EN, 1)]).raise 0x0401 Carrier.A.ev 0) (fun s =>
      s.cfx F.CAR_CDE_CTL_SOURCE .A = 1 ∧ s.carA.rxc.st ≠ .locked ∧ s.stands 0x0401 Carrier.A.ev 0 = true ∧
      s.cfx F.CAR_RXC_CTL_RX_EN .A = 1 ∧ s.carA.fe.est ≠ some .acquisition) ∧
    At ((State.reset.putA [(F.CAR_CDE_CTL_SOURCE, 0)]).modFe .A fun f => { f with est := some .commanded }) (fun s =>
      s.carA.fe.est = some .commanded ∧ s.cfx F.CAR_CDE_CTL_SOURCE .A = 0 ∧ 96 ≤ (96 : Fin 256).val ∧
      s.carA.fe.estCut ≠ some s.sys.dtime) ∧
    At (State.reset.modFe .A fun f => { f with est := some .tracking, act := 100, tries := 2, estLo := 104, estN := 1 })
      (fun s => s.carA.fe.est = some .tracking ∧ s.carA.fe.estCut ≠ some s.sys.dtime ∧
      (s.carA.fe.estPoint 0 80 - (s.carA.fe.act + s.carA.fe.trim)).natAbs < 5 ∧
      (95 : Fin 256).val < 96 ∧ s.carA.fe.est.isSome = true ∧ 2 ≤ s.carA.fe.tries) ∧
    At ((State.reset.putA [(F.CAR_CDE_CTL_SOURCE, 1)]).modFe .A fun f =>
        { f with est := some .acquisition, act := 0, estLo := 400, estN := 2 }) (fun s =>
      s.carA.fe.est = some .acquisition ∧ s.cfx F.CAR_CDE_CTL_SOURCE .A ≠ 0 ∧
      (s.carA.fe.estPoint 0 80 - s.carA.fe.act).natAbs ≤ 400 ∧ s.carA.fe.tgtAt ≠ some s.sys.dtime ∧
      400 < (s.carA.fe.estPoint 1 80 - s.carA.fe.act).natAbs ∧ s.cfx F.CAR_CDE_CTL_TABLE_MODE .A = 0 ∧
      s.carA.fe.tries < 2) ∧
    At State.reset (fun s => -1535 ≤ s.cfxI F.CAR_FE_DC_VALUE .A 3 ∧ s.cfxI F.CAR_FE_DC_VALUE .A 3 ≤ 1535) := by
  decide +kernel

theorem witness_PressAdaptation :
    At ((State.reset.putA [(F.CAR_PRESS_GUARD_DROP, 5)]).modFe .A fun f =>
        { f with cmp := some ⟨.guard, 1, false, [6], [0]⟩, reverts := 2 })
      (fun s => s.carA.fe.compared .guard = some (1, 6, 0) ∧
        pinch (s.cfx F.CAR_PRESS_GUARD_DROP .A) * 1 < (6 : Int) - 0 ∧ 2 ≤ s.carA.fe.reverts) ∧
    At ((State.reset.putA [(F.CAR_PRESS_GUARD_DROP, 5)]).modFe .A fun f =>
        { f with cmp := some ⟨.guard, 1, false, [5], [0]⟩ })
      (fun s => s.carA.fe.compared .guard = some (1, 5, 0) ∧
        (5 : Int) - 0 ≤ pinch (s.cfx F.CAR_PRESS_GUARD_DROP .A) * 1) ∧
    At (State.reset.modFe .A fun f => { f with cmp := some ⟨.gain, 1, false, [5], [0]⟩ }) (fun s =>
      s.carA.fe.compared .gain = some (1, 5, 0)) ∧
    At ((State.reset.putA [(F.CAR_PRESS_CTL_ADAPT, 1), (F.CAR_PRESS_CTL_STEPS, 1)]).modFe .A fun f =>
        { f with xiSnr := 0x7FFF, set := ⟨[1], [0], [0], [0]⟩ })
      (fun s => s.cfx F.CAR_PRESS_CTL_ADAPT .A ≠ 0 ∧ s.activeSteps .A ≠ [] ∧ isMeas 0 = true ∧
        isMeas s.carA.fe.xiSnr = true) := by decide +kernel

/-! ### Witnesses: receive core, captures, line code, output -/

theorem witness_ReceiveLock :
    At (State.reset.modRxc .A fun r => { r with st := .hunt, det := [(0, 11)] }) (fun s => s.carA.rxc.st = .hunt ∧
      s.carA.rxc.det.any (detPair 81921 12) = true ∧ (12 : Int).natAbs ≤ 12 ∧ s.alignSeen .A 81921 12 = true ∧
      s.cfx F.CAR_RXC_CTL_EQ_MODE .A = 0) ∧
    At (State.reset.modRxc .A fun r => { r with st := .hunt }) (fun s => s.carA.rxc.st = .hunt ∧
      s.carA.rxc.det.any (detPair 5 0) = false ∧ s.alignSeen .A 5 0 = true) ∧
    At ((State.reset.rxIn .train).putA [(F.CAR_RXC_THR_LOCK_SNR, 0)] |>.modRxc .A fun r =>
        { r with good := 16, inTrain := 4096 }) (fun s =>
      s.cfx F.CAR_RXC_CTL_RX_EN .A ≠ 0 ∧ s.rxValid .A = true ∧ s.carA.rxc.st = .train ∧
      s.cfx F.CAR_RXC_THR_LOCK_SNR .A ≠ 0x8000 ∧ 16 ≤ s.carA.rxc.good ∧ 4096 ≤ s.carA.rxc.inTrain) ∧
    At ((State.reset.rxIn .locked).putA [(F.CAR_RXC_THR_LOCK_SNR, 0)] |>.modRxc .A fun r =>
        { r with missed := 8, low := 64, freq := -3500001 }) (fun s =>
      s.cfx F.CAR_RXC_CTL_RX_EN .A ≠ 0 ∧ s.rxValid .A = true ∧ s.carA.rxc.st = .locked ∧ 8 ≤ s.carA.rxc.missed ∧
      64 ≤ s.carA.rxc.low ∧ s.cfx F.CAR_RXC_THR_LOCK_SNR .A ≠ 0x8000 ∧ 3500000 < s.carA.rxc.freq.natAbs ∧ s.carA.fec.st ≠ .locked) ∧
    At ((State.reset.rxIn .locked).modFec .A fun f => { f with st := .locked }) (fun s => s.carA.fec.st = .locked ∧
      s.carA.fec.win = [] ∧ s.carA.fec.llrs = []) ∧
    At ((State.reset.rxIn .locked).modFec .A fun f => { f with st := .locked, win := [⟨0, 0, false, false, none⟩] })
      (fun s => s.carA.fec.st = .locked ∧ s.carA.fec.win ≠ []) := by
  decide +kernel

theorem witness_ReceiveQuality :
    At (State.reset.modRxc .A fun r => { r with st := .hunt, inHunt := 65536 }) (fun s =>
      s.carA.rxc.st = .hunt ∧ 65536 ≤ s.carA.rxc.inHunt) ∧
    At (State.reset.modRxc .A fun r => { r with st := .locked, clk := -90000 }) (fun s =>
      s.carA.rxc.st = .locked ∧ s.carA.rxc.clk.natAbs ≤ 90000) ∧
    At (State.reset.modRxc .A fun r => { r with st := .locked, clk := 100000 }) (fun s =>
      s.carA.rxc.st = .locked ∧ 90000 < s.carA.rxc.clk.natAbs ∧ s.carA.rxc.clk.natAbs ≤ 100000) ∧
    At (State.reset.modRxc .A fun r => { r with st := .locked, winOk := true, mean10ok := true, clk := 100001 }) (fun s =>
      s.carA.rxc.st = .locked ∧ s.carA.rxc.winOk = true ∧ s.carA.rxc.mean10ok = true ∧ 100000 < s.carA.rxc.clk.natAbs ∧
      15 < 16 * 1 ∧ 33 ≥ 16 * 1 ∧ 32 * 1 < 33 ∧
      (List.replicate (2 ^ s.cfx F.CAR_RXC_CTL_SC_LOG2 .A) (1, 2, 3, 4)).length = 2 ^ s.cfx F.CAR_RXC_CTL_SC_LOG2 .A) ∧
    At State.reset (fun s => s.carA.rxc.st ≠ .locked ∧ s.carA.rxc.winOk = false ∧ s.carA.rxc.mean10ok = false) := by
  decide +kernel

/-- A capture of 2 LLR-free entries into region 3. -/
def tCap : Capture := ⟨.armed, 0, 0, 2, 1, 5, 0, 3, 4096, 0, 0, 0, 0, 0, 0, 0, 0, 0, 0, true, []⟩
/-- A capture in a phase on carrier A. -/
def tCapIn (st : CapSt) (trig : Nat) (s : State) : State :=
  s.modRxc .A fun r => { r with st := .locked, cap := some { tCap with st := st, trigger := trig } }
/-- Region 3 is READY. -/
def State.rgn3 (s : State) : State := { s with cxl := { s.cxl with rgns := [(3, ⟨.ready, 0, 0, none⟩)] } }
/-- CAPTURE on carrier A, trigger 0 or 1, into region 3; CAPTURE_STOP. -/
def tCapCmd (trig : Nat) : ExecCmd := tCmd 0x0301 [(20, 4, 2), (24, 1, trig), (25, 1, 3), (36, 8, 4096)]
def tCapStop : ExecCmd := tCmd 0x0302 []

theorem witness_CaptureControl :
    At ((State.reset.rxIn .hunt).rgn3.runs (tCapCmd 0)) (fun s => s.running .PF0 0 0x0301 = some (tCapCmd 0) ∧
      carOf (byteAt (tCapCmd 0).desc 16) = .A ∧ s.carA.rxc.cap = none ∧ s.sys.shed.contains .aux = false ∧
      s.capRegion (byteAt (tCapCmd 0).desc 25) = true ∧ capReady s.carA.rxc (byteAt (tCapCmd 0).desc 17) = true) ∧
    At (State.reset.rgn3.runs (tCapCmd 1)) (fun s => s.running .PF0 0 0x0301 = some (tCapCmd 1) ∧
      s.capRegion (byteAt (tCapCmd 1).desc 25) = true ∧ byteAt (tCapCmd 1).desc 24 ≠ 0) ∧
    At ((tCapIn .armed 1 State.reset).runs (tCapCmd 1)) (fun s => s.running .PF0 0 0x0301 = some (tCapCmd 1) ∧
      s.carA.rxc.cap.isSome = true) ∧
    At (tCapIn .armed 1 State.reset) (fun s => s.carA.rxc.cap = some tCap ∧ tCap.st = .armed ∧ tCap.trigger = 1 ∧
      tCap.sfc ≤ s.carA.rxc.sfc ∧ capReady s.carA.rxc tCap.source = true) ∧
    At (tCapIn .armed 2 State.reset) (fun s => s.carA.rxc.cap = some { tCap with trigger := 2 } ∧ tCap.event = 5) ∧
    At ((tCapIn .armed 1 State.reset).runs tCapStop) (fun s => s.running .PF0 0 0x0302 = some tCapStop ∧
      carOf (byteAt tCapStop.desc 16) = .A ∧ s.carA.rxc.cap = some tCap) ∧
    At ((tCapIn .filling 1 State.reset).runs tCapStop) (fun s => s.carA.rxc.cap = some { tCap with st := .filling }) ∧
    At ((tCapIn .draining 1 State.reset).runs tCapStop) (fun s => s.carA.rxc.cap = some { tCap with st := .draining }) := by
  decide +kernel

theorem witness_CaptureDrain :
    At (tCapIn .filling 1 State.reset) (fun s => s.carA.rxc.cap = some { tCap with st := .filling } ∧
      tCap.source ≠ 3 ∧ tCap.snap = true ∧ tCap.got = [] ∧
      (List.replicate 2 (CapEnt.adc (List.replicate 4 (true, 7)))).all (·.fits tCap.source) = true ∧
      (List.replicate 2 (CapEnt.adc (List.replicate 4 (true, 7)))).length = tCap.count ∧
      Memory.wf s.mem.windows = true ∧ s.cf F.MEM_INJ_ARM 0 = 0) ∧
    At (State.reset.modRxc .A fun r => { r with cap := some { tCap with st := .filling, got := List.replicate 16 7 } }) (fun s =>
      s.carA.rxc.cap = some { tCap with st := .filling, got := List.replicate 16 7 } ∧
      (List.replicate 16 (7 : Byte)).length = capEntry tCap.source * tCap.count) ∧
    At (State.reset.modRxc .A fun r => { r with cap := some { tCap with st := .filling, source := 3 } }) (fun s =>
      s.carA.rxc.cap = some { tCap with st := .filling, source := 3 }) ∧
    At (tCapIn .draining 1 State.reset.rgn3) (fun s => s.carA.rxc.cap = some { tCap with st := .draining } ∧
      (agetD s.cxl.rgns 3 rgnReset).st = .ready) ∧
    At (tCapIn .draining 1 State.reset) (fun s => s.carA.rxc.cap = some { tCap with st := .draining } ∧
      (agetD s.cxl.rgns 3 rgnReset).st ≠ .ready) := by decide +kernel

theorem witness_BlockLock :
    At (State.reset.modFec .A fun f => { f with st := .hunt, huntN := 1024 }) (fun s => s.carA.fec.st = .hunt ∧
      1024 ≤ s.carA.fec.huntN ∧ lockRates [] = []) ∧ lockRates (List.replicate 6 0) ≠ [] ∧
    At ((State.reset.rxIn .locked).modFec .A fun f => { f with st := .locked, noneRun := 64 }) (fun s =>
      s.carA.fec.st = .locked ∧ 64 ≤ s.carA.fec.noneRun ∧ s.carA.fec.flush = none ∧
      s.cfx F.CAR_RXC_CTL_RX_EN .A ≠ 0 ∧ s.rxValid .A = true ∧ s.carA.rxc.st = .locked) := by
  refine ⟨?_, by rw [lockRates_zero]; decide, ?_⟩ <;> decide +kernel

/-- A decoder block of zeros, oldest in a window of seven. -/
def tBlk (ctx : Bool) : FecBlk := ⟨0, 4, false, ctx, none⟩
/-- LOCKED, with a window of `n` blocks. -/
def tDec (n : Nat) (ctx : Bool) : State :=
  State.reset.modFec .A fun f => { f with st := .locked, win := List.replicate n (tBlk ctx) }

theorem witness_BlockDecoding :
    At (tDec 6 false) (fun s => s.carA.fec.st = .locked ∧ s.carA.fec.watch = none ∧ s.carA.fec.flush = none ∧
      s.carA.fec.win.length < 7) ∧
    At (tDec 7 false) (fun s => s.carA.fec.win.length = 7 ∧ s.carA.fec.win.getLast? = some (tBlk false) ∧
      (tBlk false).context = false) ∧
    At (tDec 7 true) (fun s => s.carA.fec.win.getLast? = some (tBlk true) ∧ (tBlk true).context = true) ∧
    At ((tDec 0 false).modFec .A fun f => { f with left := [(0, 1), (0, 1)], seen := [4, 5] }) (fun s =>
      (indexed s.carA.fec.before).map (fun p => (p.2.1, s.carA.fec.seen.getD p.1 p.2.2)) = [(0, 4), (0, 5)]) ∧
    (∀ r, fecPass 0 r [(0, 4), (0, 5)] = true) ∧
    At ((tDec 0 false).modFec .A fun f => { f with actRate := 7 }) (fun s =>
      (indexed s.carA.fec.before).map (fun p => (p.2.1, s.carA.fec.seen.getD p.1 p.2.2)) = [] ∧ s.carA.fec.actRate = 7) ∧
    fecPass lateCols 7 [] = false ∧ fecPass lateCols 6 [] = true ∧ (∀ r, r < 8 → fecPass oddCols r [] = false) ∧
    ((tDec 0 false).modFec .A fun f => { f with llrs := List.replicate 40320 (1, 0) }).carA.fec.llrs.length = 40320 ∧
    At ((State.reset.rxIn .locked).modFec .A fun f => { f with st := .locked, win := [tBlk true], flush := some false })
      (fun s => s.carA.fec.st = .locked ∧ s.carA.fec.win = [tBlk true] ∧ s.carA.fec.flush.isSome = true ∧ s.carA.fec.llrs.length < 40320 ∧
      s.cfx F.CAR_RXC_CTL_RX_EN .A ≠ 0 ∧ s.rxValid .A = true ∧ s.carA.rxc.st ≠ .disabled ∧
      s.carA.rxc.st ≠ .waitInput) ∧
    At (State.reset.modFec .A fun f => { f with st := .hunt }) (fun s => s.carA.fec.st = .hunt) ∧
    At (State.reset.modFec .A fun f => { f with st := .locked, mis := [0, 0, 4] }) (fun s =>
      s.carA.fec.st = .locked ∧ s.carA.fec.misRate = some 2 ∧ s.carA.fec.detRate ≠ some 2 ∧ s.carA.plan.recov = none) ∧
    At (State.reset.modFec .A fun f => { f with st := .locked, actRun := 4 }) (fun s =>
      s.carA.fec.st = .locked ∧ s.carA.fec.misRate = none ∧ 4 ≤ s.carA.fec.actRun) ∧
    At ((State.reset.modFec .A fun f => { f with watch := some (2, 5) }).modTr .A fun t => { t with mfc := 6 }) (fun s =>
      s.carA.fec.watch = some (2, 5) ∧ 5 + 1 ≤ s.carA.tr.mfc) := by
  refine ⟨?_, ?_, ?_, ?_, fun r => fecPass_zero r 4 5, ?_, fecPass_lateCols 7 (by decide), fecPass_lateCols 6 (by decide),
    fecPass_oddCols, List.length_replicate, ?_, ?_, ?_, ?_, ?_⟩ <;> decide +kernel

theorem witness_LineCodeIntervals :
    At ((State.reset.putA [(F.CAR_FEC_THR_DEG_MARGIN, 0x7FFF)]).modFec .A fun f =>
        { f with st := .locked, whole := true, bitsDec := 1000000, bitsCor := 1, degLow := 2, uncRun := 2, unc10 := 255 })
      (fun s => s.carA.fec.st = .locked ∧ s.carA.fec.whole = true ∧ s.carA.fec.bitsDec ≠ 0 ∧ 2 ≤ s.carA.fec.degLow ∧
        s.cfx F.CAR_FEC_THR_DEG_MARGIN .A ≠ 0x8000 ∧ 2 ≤ s.carA.fec.uncRun ∧
        max 1 (s.cfx F.CAR_FEC_THR_UNC_N .A) ≤ s.carA.fec.unc10) ∧
    At (State.reset.modFec .A fun f => { f with okRun := 9 }) (fun s => s.carA.fec.whole = false ∧ s.carA.fec.unc10 = 0 ∧
      9 ≤ s.carA.fec.okRun) ∧
    At State.reset (fun s => s.carA.fec.unc10 = 0 ∧ s.carA.fec.okRun < 9) := by decide +kernel

theorem witness_TransmitOutputStates :
    At (State.reset.txIn .rampUp) (fun s => s.carA.tx.st = .rampUp ∧ s.txForced .A = false ∧ s.txSquelch .A = false ∧
      s.cfx F.CAR_TX_CTL_TX_EN .A = 1) ∧
    At ((State.reset.txIn .rampDown).putA [(F.CAR_TX_CTL_TX_EN, 0)]) (fun s => s.carA.tx.st = .rampDown ∧
      s.txForced .A = false ∧ s.cfx F.CAR_TX_CTL_TX_EN .A = 0) ∧
    At ((State.reset.txIn .rampDown).putA [(F.CAR_TX_CTL_SQUELCH, 1)]) (fun s => s.carA.tx.st = .rampDown ∧
      s.txForced .A = false ∧ s.cfx F.CAR_TX_CTL_TX_EN .A = 1 ∧ s.cfx F.CAR_TX_CTL_SQUELCH .A = 1) ∧
    At { State.reset.txIn .on with tim := ⟨[], [], [], false⟩ } (fun s => s.txForced .A = true ∧
      s.carA.tx.st ≠ .forced) ∧
    At (State.reset.txIn .forced) (fun s => s.carA.tx.st = .forced ∧ s.txForced .A = false ∧ s.sys.warm = false ∧
      s.carA.tk.gaspWait = false ∧ s.carA.tk.burst = none) := by decide +kernel

theorem witness_TransmitSquelchAndProbe :
    At (State.reset.txIn .on) (fun s => (∀ k ∈ s.carA.tk.waitVals, k.1.reg ≠ .CAR_TX_CTL) ∧ s.carA.tx.st = .on ∧
      s.txForced .A = false ∧ s.cfx F.CAR_TX_LEVEL_CLIP_THR .A * 5 * s.cfx F.CAR_TX_RATE_KBD .A ≤ 2 ^ 32 * 4 * 2 ^ 20) ∧
    At (((State.reset.txIn .squelched).putA [(F.CAR_TX_SQ_RESTART, 1), (F.CAR_TX_SQ_RX_LOL, 1)]).modTx .A fun t =>
        { t with rxLol := true }) (fun s => s.carA.tx.st = .squelched ∧ s.onlyRxLol .A = true ∧
      s.cfx F.CAR_TX_SQ_RESTART .A ≠ 0 ∧ s.cfx F.CAR_TX_CTL_TX_EN .A = 1 ∧ s.carA.tk.burst = none) ∧
    At (((State.reset.txIn .on).putA [(F.CAR_TX_SQ_RX_LOL, 1)]).modTx .A fun t =>
        { t with rxLol := true, probing := true }) (fun s => s.carA.tx.st = .on ∧ s.carA.tx.probing = true ∧
      s.onlyRxLol .A = true) := by decide +kernel

/-! ### Witnesses: commits and bit loading -/

/-- COMMIT of scope 7 at a transport frame, without and with a target; CANCEL of scope 7; PROFILE_LOAD of profile 1. -/
def tCommit : ExecCmd := tCmd 0x0101 [(16, 2, 0x80), (18, 1, 2)]
def tCommitAt : ExecCmd := tCmd 0x0101 [(16, 2, 0x80), (18, 1, 0), (19, 1, 1), (20, 7, 0)]
def tCancel : ExecCmd := tCmd 0x0002 [(16, 2, 0x80)]
def tProf : ExecCmd := tCmd 0x0103 [(16, 1, 1), (17, 1, 1)]
/-- Pending commits. -/
def State.pends (s : State) (l : List Pend) : State := { s with regs := { s.regs with pend := l } }

theorem witness_CommitCommands :
    At (State.reset.runs tCommit) (fun s => s.running .PF0 0 0x0101 = some tCommit ∧
      (([(1, s.carA.plan), (3, s.carB.plan)].filter fun q => (maskScopes (leAt tCommit.desc 16 2)).contains q.1).findSome?
        fun q => q.2.inFlight) = none ∧
      s.rejects (maskScopes (leAt tCommit.desc 16 2)) (kindOf (byteAt tCommit.desc 18)) none none = none) ∧
    At (State.reset.runs tCommitAt) (fun s => s.running .PF0 0 0x0101 = some tCommitAt ∧
      (s.rejects (maskScopes (leAt tCommitAt.desc 16 2)) (kindOf (byteAt tCommitAt.desc 18))
        (some (leAt tCommitAt.desc 20 7)) none).isSome = true) ∧
    At ((State.reset.pends [⟨[7], .tf, none, [], none⟩]).runs tCancel) (fun s => s.running .PF0 0 0x0002 = some tCancel ∧
      (∀ p ∈ s.regs.pend, p.scopes.any (bit (leAt tCancel.desc 16 2)) = true → p.plan = none) ∧
      (∃ p ∈ s.regs.pend, p.scopes.any (bit (leAt tCancel.desc 16 2)) = true)) ∧
    At ((State.reset.pends [⟨[1, 7], .mf, some 9, [], some (.A, .rx, 5)⟩]).runs tCancel) (fun s =>
      (s.regs.pend.filter fun p => p.scopes.any (bit (leAt tCancel.desc 16 2))).findSome? rxPlanOf = some 5) ∧
    At (State.reset.runs tCancel) (fun s => (s.regs.pend.filter fun p => p.scopes.any (bit (leAt tCancel.desc 16 2))) = []) ∧
    At (State.reset.runs tProf) (fun s => s.running .PF0 0 0x0103 = some tProf ∧
      byteAt tProf.desc 17 = 2 ^ Carrier.A.num ∧
      (profile (byteAt tProf.desc 16)).1 + F.CAR_PRESS_CTL_STEPS.at s.stagedWord (carIdx .CAR_PRESS_CTL .B 0) +
        s.retired.length ≤ 48) := by decide +kernel

/-- The epoch-0 record of carrier A's receive side at reset, with another epoch. -/
def tRec (e : Nat) : Bytes :=
  recSetEpoch (epoch0 0 (State.reset.cfx F.CAR_RXC_CTL_SC_LOG2 .A) (State.reset.cfx F.CAR_RXC_RATE_KBD .A)) e
/-- A plan of that record. -/
def tPlan (e target : Nat) : PlanMsg := ⟨tRec e, target, 0, List.replicate 128 0⟩
/-- Plan state of carrier A changed. -/
def tPl (f : Plan → Plan) : State := State.reset.modPlan .A f
def tPropose : ExecCmd := tCmd 0x0105 [(17, 1, 1)] (some (tRec 1))
def tCompute : ExecCmd := tCmd 0x0104 [(17, 1, 0xFF)]
/-- An SNR of 4,000 pinches on every subcarrier, in LOCKED. -/
def tSnr : State := (State.reset.putA [(F.CAR_PLAN_PARAM_MARGIN, 64), (F.CAR_PLAN_CTL_MODE, 2)]).modRxc .A fun r =>
  { r with st := .locked, noise := List.replicate 16 (BitVec.ofNat 32 (4000 * 65536)) }

theorem witness_PlanProposer :
    At (State.reset.runs tPropose) (fun s => s.running .PF0 0 0x0105 = some tPropose ∧
      carOf (byteAt tPropose.desc 16) = .A ∧ s.planSource .A tPropose.desc tPropose.data = some (tRec 1) ∧
      s.carA.plan.inFlight = none) ∧
    At ((tPl fun p => { p with prop := some (tRec 1), sends := 3 }).runs tPropose) (fun s =>
      s.carA.plan.inFlight = some 1 ∧ s.carA.plan.prop = some (tRec 1) ∧ s.tkSending .A 4 0x31 = false ∧
      3 ≤ s.carA.plan.sends) ∧
    At (tPl fun p => { p with prop := some (tRec 1), sends := 2 }) (fun s => s.carA.plan.prop = some (tRec 1) ∧
      s.tkSending .A 4 0x31 = false ∧ s.carA.plan.sends < 3) ∧
    At (State.reset.modTk .A fun t => { t with ids := [(256 * 5 + 0x31, 9)], queue := [⟨4, [9, 0, 1], false⟩] }) (fun s =>
      s.tkSending .A 4 0x31 = true) ∧
    At (tSnr.runs tCompute) (fun s => s.running .PF0 0 0x0104 = some tCompute ∧ carOf (byteAt tCompute.desc 16) = .A ∧
      s.cfx F.CAR_PLAN_CTL_MODE .A = 2 ∧ s.computeBusy .A = false ∧ (s.compute .A (s.cfx F.CAR_RXC_CTL_PILOT .A)).isSome = true) ∧
    At State.reset (fun s => s.compute .A (s.cfx F.CAR_RXC_CTL_PILOT .A) = none ∧ s.cfx F.CAR_PLAN_CTL_MODE .A ≠ 2) ∧
    At ((tPl fun p => { p with prop := some (tRec 1) }).runs tCompute) (fun s => s.computeBusy .A = true ∧
      s.running .PF0 0 0x0104 = some tCompute) ∧
    At State.reset (fun s => s.carA.plan.inbox.head? ≠ some (msgReject 1 2) ∧ byteAt (msgReject 1 2) 0 ≠ 0x34) ∧
    At (tPl fun p => { p with prop := some (tRec 1), inbox := [msgReject 1 2, msgAbort 1] }) (fun s =>
      s.carA.plan.inbox = msgReject 1 2 :: [msgAbort 1] ∧ byteAt (msgReject 1 2) 0 = 0x33 ∧
      s.carA.plan.prop = some (tRec 1) ∧ recEpoch (tRec 1) = beAt (msgReject 1 2) 4 2 ∧ s.carA.plan.query = none) ∧
    At (tPl fun p => { p with rxPend := some (tPlan 1 9), inbox := [msgAbort 1] }) (fun s =>
      s.carA.plan.inbox = msgAbort 1 :: [] ∧ byteAt (msgAbort 1) 0 = 0x34 ∧ s.carA.plan.rxPend = some (tPlan 1 9) ∧
      recEpoch (tPlan 1 9).body = beAt (msgAbort 1) 4 2 ∧ s.carA.plan.sideUndo = []) := by decide +kernel

/-- PLAN_APPROVE with verdict `v`; PLAN_PUSH; PLAN_LOCAL of a side at a target. -/
def tApprove (v : Nat) : ExecCmd := tCmd 0x0005 [(17, 1, v), (18, 2, 1)]
def tPush : ExecCmd := tCmd 0x0106 [(17, 1, 1)] (some (tRec 1))
def tLocal (side : Nat) : ExecCmd := tCmd 0x0107 [(17, 1, 1), (18, 1, side), (32, 7, 65536)] (some (tRec 1))

theorem witness_PlanLoadedEnd :
    At (tPl fun p => { p with inbox := [msgPropose 1 (tRec 1)] }) (fun s =>
      s.carA.plan.inbox = msgPropose 1 (tRec 1) :: [] ∧ byteAt (msgPropose 1 (tRec 1)) 0 = 0x31 ∧
      recClean (recSwap ((msgPropose 1 (tRec 1)).drop 4)) = tRec 1 ∧ sameEpoch s.carA.plan.lastCommit 1 = none ∧
      s.carA.plan.awaiting = none ∧ s.carA.plan.txPend = none ∧ s.proposeCheck .A (tRec 1) = 0 ∧
      s.cfx F.CAR_PLAN_CTL_APPROVE .A ≠ 1 ∧
      ((s.modPlan .A fun p => { p with inbox := [] }).planGo .A (tRec 1) none true (s.ctlNow .A)).isOk = true) ∧
    At (tPl fun p => { p with inbox := [msgPropose 1 (tRec 2)] }) (fun s =>
      s.carA.plan.inbox = msgPropose 1 (tRec 2) :: [] ∧ recClean (recSwap ((msgPropose 1 (tRec 2)).drop 4)) = tRec 2 ∧
      s.proposeCheck .A (tRec 2) = 2) ∧
    At ((tPl fun p => { p with inbox := [msgPropose 1 (tRec 1)] }).putA [(F.CAR_PLAN_CTL_APPROVE, 1)]) (fun s =>
      s.proposeCheck .A (tRec 1) = 0 ∧ s.cfx F.CAR_PLAN_CTL_APPROVE .A = 1) ∧
    At (tPl fun p => { p with txPend := some (tPlan 1 9), inbox := [msgPropose 2 (tRec 1)] }) (fun s =>
      s.carA.plan.txPend = some (tPlan 1 9) ∧ recEpoch (tPlan 1 9).body = recEpoch (tRec 1) ∧
      recClean (recSwap ((msgPropose 2 (tRec 1)).drop 4)) = tRec 1) ∧
    At State.reset (fun s => s.carA.plan.inbox.head? ≠ some (msgPropose 1 (tRec 1))) ∧
    At ((tPl fun p => { p with awaiting := some (tRec 1) }).runs (tApprove 2)) (fun s =>
      s.running .PF0 0 0x0005 = some (tApprove 2) ∧ carOf (byteAt (tApprove 2).desc 16) = .A ∧
      s.carA.plan.awaiting = some (tRec 1) ∧ recEpoch (tRec 1) = leAt (tApprove 2).desc 18 2 ∧
      byteAt (tApprove 1).desc 17 ≠ 2) ∧
    At (State.reset.runs tPush) (fun s => s.running .PF0 0 0x0106 = some tPush ∧
      s.planSource .A tPush.desc tPush.data = some (tRec 1) ∧ s.pushCheck .A (tRec 1) = none ∧
      recSetEpoch (tRec 1) ((s.txAct .A + 1) % 65536) = tRec 1 ∧
      (s.planGo .A (tRec 1) none true (s.ctlNow .A)).isOk = true ∧
      ((s.finish .PF0 0 0 1).planGo .A (tRec 1) none true ((s.finish .PF0 0 0 1).ctlNow .A)).isOk = true) ∧
    At (State.reset.runs (tLocal 3)) (fun s => s.running .PF0 0 0x0107 = some (tLocal 3) ∧
      byteAt (tLocal 3).desc 18 = 3 ∧ s.planSource .A (tLocal 3).desc (tLocal 3).data = some (tRec 1) ∧
      recSetEpoch (tRec 1) ((s.txAct .A + 1) % 65536) = tRec 1 ∧ recSetEpoch (tRec 1) ((s.rxAct .A + 1) % 65536) = tRec 1 ∧
      s.pushCheck .A (tRec 1) = none ∧ s.carA.plan.inFlight = none ∧
      recValid (tRec 1) (s.cfx F.CAR_RXC_CTL_SC_LOG2 .A) (s.cfx F.CAR_RXC_RATE_KBD .A) = true ∧
      leAt (tLocal 3).desc 32 7 = 65536 ∧
      ∀ n ∈ [1, 2, 3], (s.planLocal .A n 65536 (tRec 1) (tRec 1)).isOk = true ∧
        ((s.finish .PF0 0 0 1).planLocal .A n 65536 (tRec 1) (tRec 1)).isOk = true) ∧
    At (tPl fun p => { p with txRec := tRec 1, lastCommit := some (tPlan 1 9), inbox := [msgQuery 1 1] }) (fun s =>
      s.carA.plan.inbox.head? = some (msgQuery 1 1) ∧ byteAt (msgQuery 1 1) 0 = 0x35 ∧ s.carA.plan.txPend = none ∧
      s.carA.plan.lastCommit = some (tPlan 1 9) ∧ beAt (msgQuery 1 1) 4 2 = s.txAct .A) ∧
    At (tPl fun p => { p with inbox := [msgQuery 1 2] }) (fun s => s.carA.plan.inbox.head? = some (msgQuery 1 2) ∧
      beAt (msgQuery 1 2) 4 2 ≠ s.txAct .A) := by
  refine ⟨?_, ?_, ?_, ?_, ?_, ?_, ?_, ?_, ?_, ?_⟩ <;> decide +kernel

/-- An announcement: active epoch, pending epoch, low bits of its target, whether one is pending. -/
def tAnn (a b t f : Nat) : Bytes := beBytes 2 a ++ beBytes 2 b ++ beBytes 2 t ++ [BitVec.ofNat 8 f]
/-- A COMMIT of carrier A's record. -/
def tCm (e : Nat) : Bytes := msgCommit (tRec e) 9 0 (List.replicate 128 0)

/-- A recovery on the new of two candidates, with some swaps made. -/
def tRecov (n : Nat) : Recov := ⟨tPlan 0 1, tPlan 1 9, true, n, [], false, false⟩

theorem witness_PlanRecovery :
    At (tPl fun p => { p with inbox := [tCm 0] }) (fun s => s.carA.plan.inbox = tCm 0 :: [] ∧ byteAt (tCm 0) 0 = 0x32 ∧
      recClean (recSwap (sub (tCm 0) 4 48)) = tRec 0 ∧ s.carA.plan.query = none ∧ recEpoch (tRec 0) = s.rxAct .A) ∧
    At (tPl fun p => { p with inbox := [tCm 1] }) (fun s => s.carA.plan.inbox = tCm 1 :: [] ∧
      recClean (recSwap (sub (tCm 1) 4 48)) = tRec 1 ∧ recEpoch (tRec 1) ≠ s.rxAct .A ∧ byteAt (tCm 1) 59 % 16 < 4 ∧
      s.carA.plan.rxPend = none ∧ s.carA.plan.side = none ∧ s.carA.plan.sideUndo = [] ∧ s.carA.plan.recov = none ∧
      s.carA.plan.inbox.head? ≠ some (tCm 0) ∧ s.carA.plan.annRun < 4) ∧
    At ((tPl fun p => { p with annRun := 4, ann := tAnn 0 1 1 1, valid := [tPlan 1 9] }).modTr .A fun t =>
        { t with st := .frame }) (fun s => 4 ≤ s.carA.plan.annRun ∧ s.carA.tr.st ≠ .hunt ∧
      annPend s.carA.plan.ann = true ∧ beAt s.carA.plan.ann 2 2 ≠ s.rxAct .A ∧
      s.carA.plan.valid.find? (fun q => recEpoch q.body == beAt s.carA.plan.ann 2 2) = some (tPlan 1 9) ∧
      beAt s.carA.plan.ann 4 2 = (s.carA.tr.mfc + 1) % 65536 ∧ s.carA.plan.recov = none ∧ s.carA.plan.rxPend = none ∧
      s.carA.plan.side = none) ∧
    At ((tPl fun p => { p with annRun := 4, ann := tAnn 1 0 0 0 }).modTr .A fun t => { t with st := .frame }) (fun s =>
      annPend s.carA.plan.ann = false ∧ beAt s.carA.plan.ann 0 2 ≠ s.rxAct .A ∧ s.carA.plan.valid = [] ∧ 4 ≤ s.carA.plan.annRun ∧ s.carA.tr.st ≠ .hunt ∧
      s.carA.plan.recov = none ∧ s.carA.plan.rxPend = none ∧ s.carA.plan.query = none) ∧
    At (tPl fun p => { p with recov := some (tRecov 0) }) (fun s => s.carA.plan.recov = some (tRecov 0) ∧
      (tRecov 0).swaps = 0) ∧
    At (tPl fun p => { p with recov := some (tRecov 8) }) (fun s => s.carA.plan.recov = some (tRecov 8) ∧
      s.carA.tr.st = .hunt ∧ 8 ≤ (tRecov 8).swaps) ∧
    At ((tPl fun p => { p with recov := some (tRecov 1), annRun := 1, ann := tAnn 1 0 0 0, lost := true }).modTr .A fun t =>
        { t with st := .frame }) (fun s => s.carA.plan.recov = some (tRecov 1) ∧ (tRecov 1).swaps ≠ 0 ∧
      s.carA.tr.st ≠ .hunt ∧ 1 ≤ s.carA.plan.annRun ∧
      beAt s.carA.plan.ann 0 2 = recEpoch (if (tRecov 1).onNew then (tRecov 1).next else (tRecov 1).prev).body ∧
      s.carA.plan.lost = true) ∧
    At (tPl fun p => { p with query := some (1, 3) }) (fun s => s.carA.plan.query = some (1, 3) ∧
      s.carA.plan.lost = false) ∧
    At (tPl fun p => { p with query := some (1, 2), lost := true }) (fun s => s.carA.plan.lost = true ∧
      s.carA.plan.query = some (1, 2)) ∧
    At (tPl fun p => { p with mismRun := 64 }) (fun s => 64 ≤ s.carA.plan.mismRun) ∧
    At (tPl fun p => { p with mismRun := 63, eqRun := 64 }) (fun s => s.carA.plan.mismRun < 64 ∧
      64 ≤ s.carA.plan.eqRun) := by and_intros <;> decide +kernel

/-! ### Witnesses: frames, overhead, cipher -/

/-- A commit of MON_CTL that waits for a transport-frame boundary. -/
def tWait : Pend := ⟨[7], .tf, none, [(⟨.MON_CTL, 0⟩, (3, 15))], none⟩

theorem witness_FrameBoundaries :
    At (State.reset.txIn .on |>.modTx .A fun t => { t with chain := true }) (fun s => s.regs.pend = [] ∧
      s.carA.tx.chain = true) ∧
    At (State.reset.modTr .A fun t => { t with cur := some (0, []) }) (fun s => s.carA.tr.cur.isSome = true) ∧
    At (State.reset.pends [tWait]) (fun s => s.regs.pend = [tWait] ∧ s.carA.tk.waitVals = [] ∧ s.carB.tk.waitVals = []) ∧
    At State.reset (fun s => (∀ p ∈ s.regs.pend, p.kind = .sf) ∧ ∀ p ∈ s.regs.pend, p.kind ≠ .sf) ∧
    At (((State.reset.rxIn .locked).putA [(F.CAR_FE_CTL_DC_MODE, 0), (F.CAR_FE_CTL_IQ_MODE, 0)]).modFe .A fun f =>
        { f with waitSet := some ⟨[1], [0], [0], [0]⟩ }) (fun s => s.regs.pend = [] ∧
      (s.cfx F.CAR_RXC_CTL_RX_EN .A ≠ 0 ∧ s.rxValid .A = true ∧ s.carA.rxc.st ≠ .disabled ∧
        s.carA.rxc.st ≠ .waitInput) ∧ s.carA.plan.recov = none ∧ s.carA.plan.cold = none ∧
      s.carA.plan.alignLost = false ∧ s.carA.plan.rxPend = none ∧ s.carB.plan.side = none ∧ s.carA.tk.waitVals = [] ∧
      s.carA.fe.cde ≠ 0 ∧ s.carA.fe.cde ≠ 1 ∧ s.carA.rxc.st = .locked ∧ (0 : Nat) < 1 ∧
      s.carA.fe.waitSet = some ⟨[1], [0], [0], [0]⟩ ∧ s.carA.fe.restore = false ∧ s.carA.fe.cmp = none ∧ s.stepsShed = false ∧
      s.cfx F.CAR_FE_CTL_DC_MODE .A = 0 ∧ [(0 : Int), 0, 0, -5000][(3 : Fin 4).val]? = some (-5000) ∧
      s.cfx F.CAR_FE_CTL_IQ_MODE .A = 0 ∧ [((1 : Int), (2 : Int)), (20000, -20000)][(1 : Fin 2).val]? =
        some (20000, -20000)) := by decide +kernel

/-- The first bytes of a frame: alignment word, FN, MFC byte 0, NEXT, header check, one bit late. -/
def tHead (fn : Nat) : Bytes :=
  let b := beBytes 4 faw ++ [BitVec.ofNat 8 fn, 0] ++ beBytes 3 4096 ++ [0]
  let l := b.set 9 (BitVec.ofNat 8 (hcrc b))
  (List.range 11).map fun i => (if i = 0 then 0 else l.getD (i - 1) 0) <<< 7 ||| l.getD i 0 >>> 1
/-- A hunt candidate with `n` matches, whose last header had FN 7. -/
def tCand (n : Nat) : Cand := ⟨100000, n, 4096, 7, none, ⟨[], []⟩⟩
/-- Receiving, block aligner LOCKED, framer changed. -/
def tFramer (f : Tr → Tr) : State :=
  ((State.reset.rxIn .locked).modFec .A fun c => { c with st := .locked }).modTr .A f

theorem witness_FramerStates :
    At (tFramer fun t => { t with cands := [tCand 2] }) (fun s => s.carA.fec.st = .locked ∧ s.carA.tr.st = .hunt ∧
      beAt (shiftBits 1 (tHead 8)) 0 4 = faw ∧ hdrGood (shiftBits 1 (tHead 8)) = true ∧ s.carA.tr.cands = [tCand 2] ∧
      (tCand 2).matched < 3 ∧ (tCand 2).pos + (tCand 2).next = 104096 ∧
      byteAt (shiftBits 1 (tHead 8)) 4 = ((tCand 2).fn + 1) % 256) ∧
    At (tFramer id) (fun s => s.carA.tr.cands = []) ∧
    At (tFramer fun t => { t with st := .frame, fails := 5, ready := some 9, shortRun := 3 })
      (fun s => s.carA.tr.st = .frame ∧ s.regs.pend = [] ∧
        (∀ d ∈ [1, 0, 2], 2 < popcount 32 (beAt (shiftBits d []) 0 4 ^^^ faw)) ∧
        popcount 32 (beAt (shiftBits 1 (tHead 8)) 0 4 ^^^ faw) ≤ 2 ∧ hdrGood (shiftBits 1 ((tHead 8).take 16)) = true ∧
        s.cfx F.CAR_RXC_CTL_RX_EN .A ≠ 0 ∧ s.rxValid .A = true ∧ s.carA.rxc.st = .locked ∧ s.carA.tr.ready = some 9 ∧
        5 ≤ s.carA.tr.fails ∧ s.carA.fec.st = .locked ∧ 3 ≤ s.carA.tr.shortRun) ∧
    At (tFramer fun t => { t with cands := [tCand 3], longRun := 3 }) (fun s =>
      (s.carA.tr.cands.filter fun c => decide (3 ≤ c.matched)) = [tCand 3] ∧ s.carA.tr.shortRun < 3 ∧
      3 ≤ s.carA.tr.longRun) ∧
    At (tFramer fun t => { t with st := .aligned }) (fun s => s.carA.tr.st = .aligned ∧ s.regs.pend = [] ∧
      s.carA.plan.recov = none ∧ s.carA.plan.rxPend = none ∧ s.carB.plan.side = none) ∧
    At (tFramer fun t => { t with st := .aligned, fnBad := 3 }) (fun s => s.carA.tr.st = .aligned ∧
      3 ≤ s.carA.tr.fnBad ∧ s.stands 0x0801 Carrier.A.ev 0 = false) ∧
    At (tFramer fun t => { t with st := .aligned, grpBad := 2 }) (fun s => 2 ≤ s.carA.tr.grpBad) ∧
    At (State.reset.raise 0x0801 Carrier.A.ev 0) (fun s => s.stands 0x0801 Carrier.A.ev 0 = true) := by decide +kernel

/-- MSG_SEND of five bytes, the first a type of yours. -/
def tSend : ExecCmd := tCmd 0x0108 [(18, 2, 5)] (some [0x80, 1, 2, 3, 4])

theorem witness_FrameOverhead :
    At (State.reset.modTr .A fun t => { t with rdiRun := 5 }) (fun s => 5 ≤ s.carA.tr.rdiRun) ∧
    At (State.reset.modTr .A fun t => { t with rdiRun := 4, noRdi := 5 }) (fun s => s.carA.tr.rdiRun < 5 ∧
      5 ≤ s.carA.tr.noRdi) ∧
    At (State.reset.modPath .A 1023 fun p => { p with rdiRun := 5 }) (fun s => 5 ≤ (s.path .A 1023).rdiRun) ∧
    At (State.reset.modPath .A 0 fun p => { p with noRdi := 5 }) (fun s => (s.path .A 0).rdiRun < 5 ∧
      5 ≤ (s.path .A 0).noRdi) ∧
    At (tFramer fun t => { t with trace := { t.trace with same := 3 } }) (fun s => 3 ≤ s.carA.tr.trace.same ∧
      s.cfx F.CAR_RXC_CTL_RX_EN .A ≠ 0 ∧ s.rxValid .A = true ∧ s.carA.rxc.st = .locked) ∧
    At ((State.reset.putA [(F.CAR_TR_RX_CTL_DEG_N, 1), (F.CAR_TR_RX_DEG_SDEG_THR, 5)]).modTr .A fun t =>
        { t with whole := true, bip10 := 5 }) (fun s =>
      max 1 (s.cfx F.CAR_TR_RX_CTL_DEG_N .A) ≤
        (degRuns s.carA.tr.whole (s.cfx F.CAR_TR_RX_DEG_SDEG_THR .A) s.carA.tr.bip10 (0, 0)).1 ∧
      max 1 (s.cfx F.CAR_TR_RX_CTL_DEG_N .A) ≤
        (degRuns s.carA.tr.whole (s.cfx F.CAR_TR_RX_DEG_SDEG_THR .A) 4 (0, 0)).2) ∧
    At ((State.reset.modTr .A fun t => { t with yours := List.replicate 14 [] }).runs tSend) (fun s =>
      s.running .PF0 0 0x0108 = some tSend ∧ carOf (byteAt tSend.desc 16) = .A ∧
      0x80 ≤ byteAt (padTo (leAt tSend.desc 18 2) tSend.data) 0 ∧ s.carA.tr.yours.length < 15) ∧
    At ((State.reset.modTr .A fun t => { t with yours := List.replicate 16 [] }).runs tSend) (fun s =>
      16 ≤ s.carA.tr.yours.length) ∧
    At (State.reset.modTr .A fun t => { t with whole1 := [wire (msgAbort 1), [1, 2]] }) (fun s =>
      s.carA.tr.whole1 = wire (msgAbort 1) :: [[1, 2]] ∧
      (msgCheck (wire (msgAbort 1))).1 = 0 ∧ (msgCheck (wire (msgAbort 1))).2.1 < 0x40 ∧
      (msgCheck (wire (kaHdr 0x44 7 ++ [3, 0, 0, 0]))).1 = 0 ∧
      0x40 ≤ (msgCheck (wire (kaHdr 0x44 7 ++ [3, 0, 0, 0]))).2.1 ∧
      (msgCheck (wire (kaHdr 0x44 7 ++ [3, 0, 0, 0]))).2.1 < 0x80 ∧ (msgCheck [1, 2]).1 ≠ 0) := by decide +kernel

/-- A key of epoch 3 with known targets. -/
def tKey (waits : Bool) : KeyEnt := ⟨3, [1], [2], some 5, some 6, waits, waits, waits, false, false⟩
/-- Both places of channel 1 hold keys; transmit uses the first. -/
def tFull : State := State.reset.modCiph 1 fun h => { h with p0 := some (tKey false), p1 := some (tKey true), tx := some 0 }
/-- A peer key, the identity ready. -/
def tPeer : State := (State.reset.modKa .A fun k => { k with peer := [1], session := 7 }).modBoot fun b => { b with idState := 1 }
def tInstall : ExecCmd := tCmd 0x0401 [(16, 2, 1), (18, 3, 4), (32, 7, 9), (39, 7, 9)] (some (List.replicate 64 7))
def tPeerLoad : ExecCmd := tCmd 0x0402 [] (some (List.replicate 2592 7))
/-- KEY_AGREE for channel 1. -/
def tAgree : ExecCmd := tCmd 0x0109 [] (some (0x40 :: List.replicate 127 0))

theorem witness_CipherKeys :
    At { (State.reset.modCiph 1 fun h => { h with tx := some 0, p0 := some (tKey false) }) with
          io := { ioReset with cnt := [(⟨.SEC_CIPH_USE, 1⟩, 0xC0000000)] } } (fun s =>
      (s.ciphCh 1).tx.isSome = true ∧ (s.ciphCh 1).soft = false ∧ 0xC0000000 ≤ s.cnt .SEC_CIPH_USE 1) ∧
    At { (State.reset.modCiph 1 fun h => { h with tx := some 0, p0 := some (tKey false) }) with
          io := { ioReset with cnt := [(⟨.SEC_CIPH_USE, 1⟩, 0xFFFFFFFF)] } } (fun s =>
      0xFFFFFFFF ≤ s.cnt .SEC_CIPH_USE 1) ∧
    At (tFull.runs tInstall) (fun s => s.running .PF0 0 0x0401 = some tInstall ∧
      (s.ciphCh (leAt tInstall.desc 16 2)).free (s.keyCars (leAt tInstall.desc 16 2)) = none) ∧
    At (State.reset.runs tInstall) (fun s => (s.ciphCh (leAt tInstall.desc 16 2)).free (s.keyCars (leAt tInstall.desc 16 2)) = some 0) ∧
    At (State.reset.runs tPeerLoad) (fun s => s.running .PF0 0 0x0402 = some tPeerLoad) ∧
    At (State.reset.runs tAgree) (fun s => s.running .PF0 0 0x0109 = some tAgree ∧ carOf (byteAt tAgree.desc 16) = .A ∧
      s.kaReady .A = false) ∧
    At (tPeer.runs tAgree) (fun s => mapChans (tAgree.data.take 128) = [1] ∧ s.kaReady .A = true ∧ (s.ka .A).idle = true ∧
      (s.ka .A).due = [] ∧ ((s.ciphCh 1).free (s.keyCars 1)).isSome = true ∧ (s.ciphCh 1).topEpoch < 0xFFFFFF) ∧
    At (tFull.put [(F.SEC_CIPH_CH_CTL_EN, 1, 1)]) (fun s => s.cf F.SEC_CIPH_CH_CTL_EN 1 = 1 ∧
      (s.ciphCh 1).used (s.keyCars 1) 1 = false ∧ (s.ciphCh 1).tx = some 0) ∧
    At (State.reset.modCiph 1 fun h => { h with p0 := some (tKey false), p1 := some (tKey true), tx := some 1 }) (fun s =>
      (s.ciphCh 1).used (s.keyCars 1) 0 = false ∧ (s.ciphCh 1).tx = some 1) ∧
    At ((tPeer.putA [(F.CAR_TR_SLOT_TX_USED, 1), (F.CAR_TR_SLOT_TX_CHANNEL, 1)]).put [(F.SEC_CIPH_CH_CTL_EN, 1, 1),
          (F.SEC_CIPH_CH_CTL_AGREE, 1, 1), (F.SEC_CIPH_CH_CTL_INIT, 1, 1), (F.SEC_CIPH_CH_CTL_ROLL_MIN, 1, 1)]) (fun s =>
      s.cf F.SEC_CIPH_CH_CTL_EN 1 = 1 ∧ s.cf F.SEC_CIPH_CH_CTL_AGREE 1 = 1 ∧ s.cf F.SEC_CIPH_CH_CTL_INIT 1 = 1 ∧
      s.cf F.SEC_CIPH_CH_CTL_ROLL_MIN 1 ≠ 0 ∧ s.kaCar 1 = some .A ∧ s.kaReady .A = true ∧ (s.ka .A).idle = true ∧
      (s.ka .A).due = [] ∧ ((s.ciphCh 1).free (s.keyCars 1)).isSome = true ∧ (s.ciphCh 1).topEpoch < 0xFFFFFF ∧
      (s.ka .B).due = []) ∧
    At (tPeer.modKa .A fun k => { k with retry := [1] }) (fun s => s.kaReady .A = true ∧ (s.ka .A).idle = true ∧ (s.ka .A).due = [] ∧
      (s.ka .A).retry = [1] ∧ ((s.ciphCh 1).free (s.keyCars 1)).isSome = true ∧ (s.ciphCh 1).topEpoch < 0xFFFFFF) ∧
    At State.reset (fun s => (s.ka .A).retry = []) := by decide +kernel

/-- Bodies of INIT, RESP, CONFIRM and ERROR of session 7. -/
def tInit : Bytes := kaHdr 0x41 7 ++ List.replicate 6359 0
def tResp : Bytes := kaHdr 0x42 7 ++ List.replicate 6363 0
def tConf : Bytes := kaHdr 0x43 7 ++ List.replicate 40 0
def tErr : Bytes := kaHdr 0x44 7 ++ [3, 0, 0, 0]
/-- An exchange of session 7 in a state. -/
def tKa (f : Ka → Ka) : State := tPeer.modKa .A f

theorem test_eraseQuiet (s : State) (x : Carrier) (h : s.ciph.ch = []) : s.eraseQuiet x := by
  intro c _
  have e : s.ciphCh c = ciphChReset := by simp [State.ciphCh, h, agetD, aget]
  rw [e]
  refine ⟨rfl, fun y => by cases y <;> rfl, fun p e h => ?_⟩
  match p, h with
  | 0, h => cases h
  | _ + 1, h => cases h

theorem witness_KeyExchange :
    At (tKa fun k => { k with step := 1 }) (fun s => (s.ka .A).due = [] ∧ (s.ka .A).step = 1) ∧
    At (tKa fun k => { k with step := 2 }) (fun s => (s.ka .A).step = 2) ∧
    At (tKa fun k => { k with step := 3 }) (fun s => (s.ka .A).step = 3) ∧
    At (tKa fun k => { k with state := 2, inbox := [tInit], respB := [1] }) (fun s => (s.ka .A).inbox = tInit :: [] ∧
      byteAt tInit 0 = 0x41 ∧ s.boot.idState = 1 ∧ (s.ka .A).session = beAt tInit 2 2 ∧ (s.ka .A).respB ≠ [] ∧
      (s.ka .A).state = 2) ∧
    At (tKa fun k => { k with inbox := [tInit], initB := tInit, respB := [1] }) (fun s => (s.ka .A).state = 0 ∧
      (s.ka .A).init = false ∧ (s.ka .A).initB = tInit) ∧
    At (tKa fun k => { k with inbox := [tInit] }) (fun s => (s.ka .A).inbox.head? = some tInit ∧ byteAt tInit 0 = 0x41 ∧
      s.boot.idState = 1 ∧ (s.ka .A).state = 0 ∧ (s.ka .A).initB ≠ tInit) ∧
    At (tKa fun k => { k with state := 1, init := true, initB := [1], sends := 3, inbox := [tResp] }) (fun s =>
      (s.ka .A).inbox.head? = some tResp ∧ byteAt tResp 0 = 0x42 ∧ (s.ka .A).session = beAt tResp 2 2 ∧
      s.ciph.ch = [] ∧ (s.ka .A).init = true ∧ (s.ka .A).state = 1 ∧ (s.ka .A).initB ≠ [] ∧ (s.ka .A).respB = [] ∧
      s.tkSending .A 5 0x41 = false ∧ 3 ≤ (s.ka .A).sends) ∧
    At (tKa fun k => { k with state := 2, respB := [1], sends := 2, inbox := [tConf] }) (fun s =>
      (s.ka .A).inbox.head? = some tConf ∧ byteAt tConf 0 = 0x43 ∧ (s.ka .A).session = beAt tConf 2 2 ∧
      (s.ka .A).state = 2 ∧ s.ciph.ch = [] ∧ (s.ka .A).respB ≠ [] ∧ s.tkSending .A 5 0x42 = false ∧ (s.ka .A).sends < 3) ∧
    At (tKa fun k => { k with state := 2, inbox := [tErr] }) (fun s => (s.ka .A).inbox.head? = some tErr ∧
      byteAt tErr 0 = 0x44 ∧ (s.ka .A).session = beAt tErr 2 2 ∧ (s.ka .A).state ≠ 0 ∧ s.ciph.ch = [] ∧ byteAt tErr 4 ≠ 0) ∧
    At (tKa fun k => { k with inbox := [tErr] }) (fun s => (s.ka .A).inbox = tErr :: [] ∧ (s.ka .A).state = 0 ∧
      (s.ka .A).state ≠ 1 ∧ (s.ka .A).inbox.head? ≠ some tInit) ∧
    At (tPeer.modTk .A fun t =>
        { t with ids := [(256 * 6 + 0x41, 9), (256 * 6 + 0x42, 8)], queue := [⟨5, [9, 0], false⟩, ⟨5, [8, 0], false⟩] }) (fun s =>
      s.tkSending .A 5 0x41 = true ∧ s.tkSending .A 5 0x42 = true) := by
  unfold At
  and_intros <;> first | rfl | decide +kernel

/-- An invocation of channel 1 under a key, which waits for its check against a tag. -/
def tInv : Inv := ⟨[1], 3, 5, [], [], false, 0⟩
def tTag (v : Option Bytes) : State := State.reset.modIn .A 1 fun i => { i with done := some tInv, tag := some v }

theorem witness_TagChecks :
    At (tTag none) (fun s => ((s.ciphCh 1).inp .A).done = some tInv ∧ ((s.ciphCh 1).inp .A).tag = some none ∧
      (s.ciphCh 1).rxLost .A = false) ∧
    At (tTag (some [9])) (fun s => ((s.ciphCh 1).inp .A).tag = some (some [9]) ∧ tInv.bad = false ∧ tInv.key ≠ [] ∧
      (s.ciphCh 1).otherOf .A tInv = none ∧ (s.ciphCh 1).rxLost .A = false) := by decide +kernel

/-! ### Witnesses: Seam, clients, Tack, crease map, timing -/

/-- A channel's Seam state changed; Seam changed. -/
def State.sch0 (s : State) (f : SeamCh → SeamCh) : State := s.modSch 0 f
/-- Both framers aligned. -/
def State.aligned2 (s : State) : State := (s.modTr .A fun t => { t with st := .aligned }).modTr .B fun t => { t with st := .aligned }
/-- SEAM_SWITCH of a channel. -/
def tSwitch (c cmd : Nat) : ExecCmd := tCmd 0x0003 [(16, 2, c), (19, 1, cmd)]
/-- SEAM_SWITCH of a group. -/
def tSwitchG (g cmd : Nat) : ExecCmd := tCmd 0x0003 [(16, 2, g), (18, 1, 1), (19, 1, cmd)]
/-- A part in the store. -/
def tPart (n : Nat) (x : Carrier) (bad : Bool) : Part := ⟨n, x, 0, [1, 2, 3], bad, 9, false, false⟩

theorem witness_SeamOperation :
    At (State.reset.modSeam fun m =>
        { m with rxA := ⟨true, false, [(0, 5)]⟩, rxB := ⟨true, false, [(2, 7)]⟩, overRun := 15, driftRun := 15 }) (fun s =>
      s.seam.rxA.has 5 = true ∧ s.seam.rxB.has 5 = true ∧ (s.seam.rxA.last 5 || s.seam.rxB.last 5) = true ∧
      s.stands 0x0A05 0 0 = false ∧ s.cf F.SEAM_CTL_WINDOW_MS 0 * 1000000 < ((700000000 : Int) - 0).natAbs ∧
      15 ≤ s.seam.overRun ∧ ((50000 : Int) - 0).natAbs ≤ s.cf F.SEAM_CTL_WINDOW_MS 0 * 1000000 ∧
      s.guardNs < ((50000 : Int) - 0 - s.seam.deltaUse).natAbs * 2 ∧ 15 ≤ s.seam.driftRun ∧
      s.cf F.SEAM_CTL_REALIGN_AUTO 0 = 1 ∧ s.seam.rxB.has 1 = false ∧ s.seam.failAt ≠ some s.sys.dtime) ∧
    At (State.reset.put [(F.SEAM_CTL_REALIGN_AUTO, 0, 0)]) (fun s => s.cf F.SEAM_CTL_REALIGN_AUTO 0 ≠ 1 ∧
      s.seam.rxA.has 5 = false) ∧
    At (State.reset.modSeam fun m => { m with arr := some (3, 9), due := some 0 }) (fun s =>
      Carrier.B = s.lead.other ∧ s.seam.due ≠ none ∧ s.seam.arr = some (3, 9)) ∧
    At (State.reset.placed2 0 3 3 0) (fun s => placeOf s.rd (0 : Fin 1024) = .prot) ∧
    At (State.reset.placed2 1 3 3 1) (fun s => placeOf s.rd (1 : Fin 1024) = .bonded) ∧
    At ((State.reset.placed2 0 3 3 0).modSch 0 fun h => { h with hold := true, b := { h.b with psf := true, psfD := true } })
      (fun s => placeOf s.rd (0 : Fin 1024) = .prot ∧ (s.sch 0).hold = true ∧
      seamRequest (s.sch 0).cmd (s.copyCond 0 .A) (s.copyCond 0 .B) = some (5, .A)) ∧
    At (((State.reset.placed2 0 3 3 0).put [(F.SEAM_GRP_CTL_REVERT, 0, 1)]).modSch 0 fun h =>
        { h with wtr := true, prefOk := true, sel := .B }) (fun s => placeOf s.rd (0 : Fin 1024) = .prot ∧
      (s.sch 0).wtr = true ∧ (s.sch 0).prefOk = true ∧ s.cf F.SEAM_GRP_CTL_REVERT (s.grpOf 0) = 1 ∧
      s.copyCond 0 (carOf (s.cf F.SEAM_GRP_CTL_PREF (s.grpOf 0))) = 0 ∧
      seamRequest (s.sch 0).cmd (s.copyCond 0 .A) (s.copyCond 0 .B) = none) := by and_intros <;> decide +kernel

theorem witness_SeamOperation_more :
    At ((State.reset.placed2 0 3 3 0).runs (tSwitch 0 2)) (fun s => s.running .PF0 0 0x0003 = some (tSwitch 0 2) ∧
      byteAt (tSwitch 0 2).desc 18 = 0 ∧ leAt (tSwitch 0 2).desc 16 2 ∈ s.seamChans ∧
      placeOf s.rd (leAt (tSwitch 0 2).desc 16 2) = .prot ∧ byteAt (tSwitch 0 1).desc 19 = 1 ∧
      byteAt (tSwitch 0 2).desc 19 = 2) ∧
    At ((State.reset.placed2 0 3 3 0).runs (tSwitchG 0 2)) (fun s => s.running .PF0 0 0x0003 = some (tSwitchG 0 2) ∧
      byteAt (tSwitchG 0 2).desc 18 ≠ 0 ∧ 0 ∈ s.seamChans ∧ placeOf s.rd 0 = .prot ∧
      s.grpOf 0 = leAt (tSwitchG 0 2).desc 16 2) ∧
    At (State.reset.runs (tSwitch 0 2)) (fun s => s.running .PF0 0 0x0003 = some (tSwitch 0 2) ∧ leAt (tSwitch 0 2).desc 16 2 ∉ s.seamChans) ∧
    At (State.reset.modSeam fun m => { m with failAt := some 0 }) (fun s => s.seam.failAt = some s.sys.dtime) ∧
    At ((State.reset.placed2 0 3 3 0).modTr .A (fun t => { t with st := .aligned }) |>.modSeam fun m =>
        { m with store := [tPart 1 .A true, tPart 2 .A false] }) (fun s =>
      s.seamDead = false ∧ (tPart 2 .A false).bad = false ∧ (s.sch 0).sel = .A ∧ 0 ∈ s.ringChans ∧ placeOf s.rd 0 = .prot ∧ s.seam.store.find? (fun q => q.frame == 2 && q.car == .A && q.ch == 0) =
        some (tPart 2 .A false)) := by decide +kernel

/-- A part at the demapper. -/
def tRx (fn : Nat) : RxPart := ⟨fn, List.replicate 100 7, false, 9, false, false⟩

theorem witness_ClientPortsAndChannels :
    At (State.reset.put [(F.CLI_PORT_CTL_MODE, 1, 3), (F.CLI_PORT_CTL_UNC_THR, 1, 5)] |>.modPort 1 fun p =>
        { p with uncRun := 2, okRun := 9 }) (fun s => s.portMode (1 : Fin 16) ≠ 0 ∧
      s.cf F.CLI_PORT_CTL_UNC_THR 1 ≠ 0 ∧ s.cf F.CLI_PORT_CTL_UNC_THR 1 ≤ 5 ∧ 4 < s.cf F.CLI_PORT_CTL_UNC_THR 1 ∧
      2 ≤ (s.port 1).uncRun ∧ 9 ≤ (s.port 1).okRun) ∧
    At State.reset (fun s => s.portMode (1 : Fin 16) = 0) ∧
    At ((State.reset.placed2 0 3 0 0).put [(F.CLI_CH_CFG_PORT, 0, 1), (F.CLI_CH_CFG_TYPE, 0, 6)]) (fun s =>
      0 ∈ s.onChans ∧ s.cf F.CLI_CH_CFG_PORT 0 % 8 = (1 : Fin 8) ∧ s.cf F.CLI_CH_CFG_TYPE 0 = 6 ∧
      s.cf F.CLI_FLX_CTL_CAL_TX (1 : Fin 8) = (0 : Fin 2) ∧ s.cf F.CLI_FLX_CTL_CAL_TX (1 : Fin 8) ≠ (1 : Fin 2)) ∧
    At (State.reset.put [(F.CLI_PORT_CTL_MODE, 0, 6), (F.CLI_PORT_CTL_FLX_GRP, 0, 1), (F.CLI_FLX_CTL_GROUP_NUM, 1, 77)]) (fun s =>
      s.flxPhys (1 : Fin 8) = [0] ∧ s.flxMatch (1 : Fin 8) (77, 1) = true ∧
      2 ≠ (s.flxPhys (1 : Fin 8)).length) ∧
    At ((State.reset.placed2 0 3 0 0).modChan 0 fun c => { c with rxq := [tRx 255] }) (fun s =>
      (s.chan 0).rxq = tRx 255 :: [] ∧ s.cf F.CLI_CH_CFG_EN 0 = 1 ∧ placeOf s.rd 0 ≠ .none ∧ (s.chan 0).shed = false ∧
      (s.chan 0).mapIn = false ∧ (tRx 255).noMap = false ∧ (tRx 255).frame % 256 = 255) ∧
    At ((State.reset.placed2 0 3 0 0).modChan 0 fun c =>
        { c with rxq := [tRx 2, tRx 3], mapIn := true, refM := some 3, last := some 1, egress := List.replicate 256 none }) (fun s =>
      (s.chan 0).rxq = tRx 2 :: [tRx 3] ∧ s.cf F.CLI_CH_CFG_EN 0 = 1 ∧ placeOf s.rd 0 ≠ .none ∧
      (s.chan 0).shed = false ∧ (s.chan 0).mapIn = true ∧ (s.chan 0).last = some 1 ∧ 1 + 1 = (tRx 2).frame ∧
      1 < (tRx 2).frame % 256 ∧ (tRx 2).noMap = false ∧ (s.chan 0).repl = false ∧
      257 ≤ 256 + (takeBytes 100 (mapDiff (mapB s.rd 0) 9 3) 0 (tRx 2).body).length ∧
      (takeBytes 100 (mapDiff (mapB s.rd 0) 9 3) 0 (tRx 2).body).length < 257) ∧
    At ((State.reset.placed2 0 3 0 0).modChan 0 fun c => { c with repl := true }) (fun s => (s.chan 0).repl = true) ∧
    At ((State.reset.placed2 0 3 0 0).modChan 0 fun c => { c with mapIn := true, noZero := 3, csfRun := 3 }) (fun s =>
      (s.chan 0).mapIn = true ∧ 3 ≤ (s.chan 0).noZero ∧ s.cf F.CLI_CH_CFG_EN 0 = 1 ∧ 3 ≤ (s.chan 0).csfRun) ∧
    At ((State.reset.placed2 0 3 0 0).modChan 0 fun c => { c with noCsf := 3 }) (fun s => s.cf F.CLI_CH_CFG_EN 0 = 1 ∧
      (s.chan 0).csfRun < 3 ∧ 3 ≤ (s.chan 0).noCsf) := by decide +kernel

/-- Carrier A's Tack changed. -/
def tTk (f : Tack → Tack) (s : State) : State := s.modTk .A f
/-- Carrier A's output may send Tack, and its framer hunts with RDI to send. -/
def tTkOn : State := ((State.reset.txIn .on).putA [(F.CAR_TK_TX_CTL_EN, 1), (F.CAR_TK_RX_CTL_EN, 1),
  (F.CAR_TK_TX_CTL_HELLO_EN, 1), (F.CAR_TK_TX_CTL_RDI_EN, 1)]).modTr .A fun t => { t with st := .hunt, rdiTx := true }
/-- A burst in progress. -/
def tBurst : Burst := ⟨⟨4, [1, 2, 3], false⟩, false, 9, 0, 10, 0, 1000, false, []⟩

theorem witness_TackSending :
    At tTkOn (fun s => s.carA.tk.burst = none ∧ s.carA.tk.gasp = none ∧ s.carA.tk.lock = false ∧ s.tkNext .A = none ∧
      s.carA.tk.queue.length < 15 ∧ s.cfx F.CAR_TK_TX_CTL_HELLO_EN .A = 1 ∧ s.carA.tr.st ≠ .aligned ∧
      s.cfx F.CAR_TK_TX_CTL_RDI_EN .A = 1 ∧ s.carA.tr.rdiTx = true ∧ s.tkCan .A 3 = true ∧ s.sys.warm = false) ∧
    At (tTk (fun t => { t with queue := [⟨4, [1], false⟩, ⟨6, [1, 2, 3], true⟩] }) tTkOn) (fun s =>
      s.carA.tk.burst = none ∧ s.carA.tk.gasp = none ∧ s.carA.tk.lock = false ∧ s.tkNext .A = some ⟨4, [1], false⟩ ∧
      s.carA.tk.wait = []) ∧
    At (tTk (fun t => { t with burst := some tBurst }) tTkOn) (fun s => s.carA.tk.burst = some tBurst ∧
      tBurst.cut = false ∧ s.carA.tk.gasp = none ∧ s.tkCan .A 3 = true ∧ s.carA.tk.lock = false) ∧
    At (tTk (fun t => { t with queue := [⟨1, [], false⟩] }) tTkOn) (fun s => s.tkNext .A = some ⟨1, [], false⟩) ∧
    At (tTk (fun t => { t with burst := some { tBurst with cut := true }, gasp := some 2 }) tTkOn) (fun s =>
      s.carA.tk.burst = some { tBurst with cut := true } ∧ s.carA.tk.gasp = some 2) ∧
    At { State.reset with sys := { State.reset.sys with warm := true } } (fun s => s.sys.warm = true) := by decide +kernel

/-- A Tack header of a type and length; a frame's payload with its CRC. -/
def tHdr (typ len : Nat) : Bytes :=
  let h : Bytes := [BitVec.ofNat 8 typ, BitVec.ofNat 8 len, 3, 0]
  h ++ beBytes 2 (crc16 h)
def tPay (h b : Bytes) : Bytes := b ++ beBytes 4 (crc32c (h ++ b))
/-- A received frame waits for its user. -/
def tUser (typ : Nat) (b : Bytes) : State := tTk (fun t => { t with users := [(typ, b), (2, [1])] }) tTkOn

/-- Spectra of both polarisations with a peak of power 100 in bin 5 and some power in bin 6. -/
def tSpec : List TkSpec := [⟨[(5, 60, 40), (6, 1, 0)]⟩]

theorem witness_TackReceiving :
    At (State.reset.putA [(F.CAR_TK_RX_CTL_EN, 0)]) (fun s => s.tkRuns .A .live = false) ∧
    At tTkOn (fun s => s.tkRuns .A .live = true ∧ s.carA.tk.frame = none ∧ s.tkSf .A .live = 14 ∧
      isMeas (s.cfx F.CAR_TK_RX_THR_DET_THR .A) = true ∧ tkPeak 16384 none (tkPower 16384 tSpec) = (5, 100) ∧
      (tkExcess 16384 (tkPower 16384 tSpec) 100).any (fun e => decide (sgn 16 (s.cfx F.CAR_TK_RX_THR_DET_THR .A) ≤ e)) = true) ∧
    At (tTk (fun t => { t with dets := [((.live, false), ⟨3, 6, 4⟩)] }) tTkOn) (fun s => s.tkRuns .A .live = true ∧
      (s.carA.tk.pre .live false).done = true ∧ s.carA.tk.frame = none) ∧
    At (tTk (fun t => { t with frame := some ⟨.live, 3, 4, 5⟩ }) tTkOn) (fun s =>
      s.carA.tk.frame = some ⟨.live, 3, 4, 5⟩ ∧ s.tkRuns .A .live = true ∧
      s.carA.tk.inPay = false ∧ s.tkTaken .A ⟨.live, 3, 4, 5⟩ 6 (some (tHdr 4 9)) = some (tHdr 4 9, 0) ∧
      tkHeaderOk .live (tHdr 4 9) = true ∧ s.carA.tk.held = none ∧ tkHeaderOk .live (tHdr 4 9 |>.set 3 0x55) = false) ∧
    At (tTk (fun t => { t with frame := some ⟨.live, 3, 4, 5⟩, got := List.replicate 4 16383 }) tTkOn) (fun s =>
      s.tkTaken .A ⟨.live, 3, 4, 5⟩ 6 none = some (List.replicate 6 255, 4)) ∧
    At (tTk (fun t => { t with frame := some ⟨.live, 3, 4, 5⟩, inPay := true, hdr := tHdr 4 3 }) tTkOn) (fun s =>
      s.carA.tk.frame = some ⟨.live, 3, 4, 5⟩ ∧ s.carA.tk.inPay = true ∧ s.carA.tk.psn = false ∧
      s.tkTaken .A ⟨.live, 3, 4, 5⟩ (byteAt s.carA.tk.hdr 1 + 4) (some (tPay (tHdr 4 3) [1, 2, 3])) =
        some (tPay (tHdr 4 3) [1, 2, 3], 0) ∧
      (tPay (tHdr 4 3) [1, 2, 3]).length = byteAt s.carA.tk.hdr 1 + 4 ∧
      crc32c (s.carA.tk.hdr ++ (tPay (tHdr 4 3) [1, 2, 3]).take (byteAt s.carA.tk.hdr 1)) =
        beAt (tPay (tHdr 4 3) [1, 2, 3]) (byteAt s.carA.tk.hdr 1) 4 ∧ ([1, 2, 3] : Bytes).length ≠ byteAt s.carA.tk.hdr 1 + 4) ∧
    At (tUser 1 [3]) (fun s => s.carA.tk.users = (1, [3]) :: [(2, [1])]) ∧
    At (tUser 2 [3]) (fun s => s.carA.tk.users = (2, [3]) :: [(2, [1])]) ∧
    At (tUser 3 [3]) (fun s => s.carA.tk.users = (3, [3]) :: [(2, [1])]) ∧
    At (tUser 4 [1, 0, 3, 0, 9]) (fun s => s.carA.tk.users = (4, [1, 0, 3, 0, 9]) :: [(2, [1])] ∧
      1 < byteAt [1, 0, 3, 0, 9] 2 ∧ byteAt [1, 0, 3, 0, 9] 2 ≤ 33 ∧ byteAt [1, 0, 3, 0, 9] 1 < byteAt [1, 0, 3, 0, 9] 2 ∧
      aget s.carA.tk.reasm 4 = none) ∧
    At (tUser 4 ([1, 0, 1, 0] ++ wire (msgAbort 1))) (fun s =>
      s.carA.tk.users = (4, [1, 0, 1, 0] ++ wire (msgAbort 1)) :: [(2, [1])] ∧
      byteAt ([1, 0, 1, 0] ++ wire (msgAbort 1)) 2 = 1 ∧ byteAt ([1, 0, 1, 0] ++ wire (msgAbort 1)) 1 = 0 ∧
      aget s.carA.tk.reasm 4 = none ∧ (msgCheck (([1, 0, 1, 0] ++ wire (msgAbort 1)).drop 4)).1 = 0 ∧
      tkBelongs 4 (msgCheck (([1, 0, 1, 0] ++ wire (msgAbort 1)).drop 4)).2.1 = true) ∧
    At (tTk (fun t => { t with reasm := [(4, ⟨1, 3, [(0, [1])]⟩)] }) tTkOn) (fun s =>
      aget s.carA.tk.reasm 4 = some ⟨1, 3, [(0, [1])]⟩) := by and_intros <;> decide +kernel

/-- Carrier A's crease map changed; its history region is READY or not. -/
def tCrease (f : Crease → Crease) (ok : Bool) : State :=
  (({ State.reset with cxl := { State.reset.cxl with rgns := if ok then [(3, ⟨.ready, 0, 0, none⟩)] else [] } }.put
    [(F.CXL_RGN_SIZE_SIZE, 3, 8)]).putA [(F.CAR_CM_HIST_REGION, 3), (F.CAR_CM_CTL_HIST_EN, 1)]).modCm .A f
/-- A measurement with a cover of 100 %. -/
def tMeas (cover : Nat) : CmMeas := ⟨cover, 9000, [some (3, 4), none], [(0, 5, 6)], [(0, 3, 300)], [(1000, 5)]⟩

theorem witness_CreaseIntegrations :
    At State.reset (fun s => s.carA.cm.run = false ∧ s.carA.cm.hist = none) ∧
    At (tCrease (fun c => { c with run := true }) true) (fun s => s.carA.cm.run = true ∧ (tMeas 4999).cover < 5000 ∧
      5000 ≤ (tMeas 10000).cover ∧ s.cfx F.CAR_CM_CTL_HIST_EN .A = 1 ∧ s.cmHistOk .A = true) ∧
    At (tCrease (fun c => { c with run := true }) false) (fun s => s.carA.cm.run = true ∧ s.cfx F.CAR_CM_CTL_HIST_EN .A = 1 ∧
      s.cmHistOk .A = false) ∧
    At (tCrease (fun c => { c with hist := some (1, 2, 3) }) true) (fun s => s.carA.cm.hist = some (1, 2, 3) ∧
      s.cmHistOk .A = true) ∧
    At (tCrease (fun c => { c with hist := some (1, 2, 3) }) false) (fun s => s.carA.cm.hist = some (1, 2, 3) ∧
      s.cmHistOk .A = false) := by decide +kernel

/-- Slot 1 changed. -/
def tSlot (f : Slot → Slot) : State := State.reset.modSlot 1 f
/-- Output 1 changed, bleeding at 50 ps a second. -/
def tOut (f : OutSt → OutSt) : State :=
  (State.reset.put [(F.TIM_OUT_CTL_BLEED, 1, 1), (F.TIM_OUT_CTL_SLOPE_PS, 1, 50)]).modOut 1 f

theorem witness_TimingUnit :
    At State.reset (fun s => (s.slot (1 : Fin 8)).st = .empty ∧ s.pulseSlot 1 = false) ∧
    At (tSlot fun t => { t with st := .failed }) (fun s => (s.slot (1 : Fin 8)).st ≠ .empty ∧ (s.slot 1).st ≠ .valid ∧
      s.slotSignal 1 = true ∧ s.slotMeas 1 3 = 3 ∧ inLimit 3 (s.cf F.TIM_SLOT_LIM_HARD_LIM 1) = true) ∧
    At (State.reset.put [(F.TIM_SLOT_CFG_SOURCE, 1, 32)]) (fun s => s.slotSignal (1 : Fin 8) = false) ∧
    At (tSlot fun t => { t with st := .qualifying, freq := some 3 }) (fun s => (s.slot (1 : Fin 8)).st = .qualifying ∧
      s.slotIn 1 = true ∧ s.slotSignal 1 = true) ∧
    At (tSlot fun t => { t with st := .valid, freq := some 250000 }) (fun s => (s.slot (1 : Fin 8)).st = .valid ∧
      s.slotIn 1 = false) ∧
    At ((tSlot fun t => { t with st := .valid }).put [(F.TIM_SLOT_CFG_TYPE, 1, 1), (F.TIM_SLOT_CFG_SOURCE, 1, 2)]) (fun s =>
      s.pulseSlot (1 : Fin 8) = true) ∧
    At (((State.reset.put [(F.TIM_SLOT_CFG_TYPE, 1, 1), (F.TIM_SLOT_CFG_SOURCE, 1, 2)]).modSlot 1 fun t =>
        { t with st := .valid }).modDpll 1 fun d => { d with sel := some 1 }) (fun s => (s.dpll 1).sel = some 1 ∧
      s.pulseSlot 1 = true) ∧
    At State.reset (fun s => (s.dpll 1).sel = none) ∧
    At (State.reset.modDpll 1 fun d => { d with st := .acquire }) (fun s => (s.dpll (1 : Fin 2)).st = .acquire) ∧
    At (State.reset.modDpll 1 fun d => { d with st := .locked }) (fun s => (s.dpll (1 : Fin 2)).st = .locked) ∧
    At (State.reset.modDpll 1 fun d => { d with st := .lockedNew }) (fun s => (s.dpll (1 : Fin 2)).st = .lockedNew) ∧
    At (tOut fun o => { o with phase := 100000 }) (fun s => s.cf F.TIM_OUT_CTL_BLEED (1 : Fin 4) = 1 ∧
      (max 1 (s.cf F.TIM_OUT_CTL_SLOPE_PS 1) : Nat) < (s.outSt 1).phase ∧ (s.outSt 1).phase ≠ 0) ∧
    At (tOut fun o => { o with realign := some 1 }) (fun s => (s.outSt (1 : Fin 4)).realign = some 1) ∧
    At { State.reset with tim := { State.reset.tim with root := true } } (fun s => s.tim.root = true) := by decide +kernel

/-! ### Witnesses: monitor, calibration, memories, CXL, rings -/

/-- A conversion of input 1. -/
def tConv : Conv := ⟨1, true, false, false, false, false, 0, [], false, false, false⟩
/-- The monitor converter changed, its references settled. -/
def tMon (f : Mon → Mon) : State := State.reset.modMon fun m => f { m with intSet := true, extSet := true, supSet := true }

theorem witness_MonitorAndBias :
    At (tMon fun m => { m with conv := some { tConv with words := 36 } }) (fun s =>
      s.mon.conv = some { tConv with words := 36 } ∧ s.mon.abort = false ∧ s.refSet tConv.input = true ∧
      tConv.unset = false ∧ tConv.vals.length < s.convRepeat tConv) ∧
    At (tMon fun m => { m with conv := some tConv }) (fun s => s.mon.conv = some tConv ∧ s.mon.abort = false ∧
      tConv.words < 36 ∧ tConv.input = (1 : Fin 32) ∧ tConv.check = false ∧ s.calShort tConv = false) ∧
    At ((tMon id).put [(F.MON_IN_CFG_EN, 1, 1), (F.MON_CTL_EN, 0, 1)]) (fun s => s.mon.conv = none ∧ s.mon.after = none ∧
      s.mon.urg = [] ∧ s.calConv = none ∧ s.cf F.MON_CTL_EN 0 = 1 ∧ s.scanFrom 0 = some 1) ∧
    At (tMon fun m => { m with conv := some { tConv with vals := List.replicate 64 (-5, 1) } }) (fun s =>
      s.mon.conv = some { tConv with vals := List.replicate 64 (-5, 1) } ∧
      s.convRepeat { tConv with vals := List.replicate 64 (-5, 1) } ≤ 64) ∧
    At (tMon fun m => { m with conv := some { tConv with check := true, vals := [(-5, 1)] } }) (fun s =>
      s.mon.conv = some { tConv with check := true, vals := [(-5, 1)] }) ∧
    At State.reset (fun s => s.mon.conv = none ∧ (s.mon.urg.any fun u => u.1 == (1 : Fin 32).val) = false ∧
      s.mon.urg.length < 4 ∧ s.cf F.MON_BIAS_CTL_LOOP_EN (3 : Fin 16) ≠ 1) ∧
    At (tMon fun m => { m with urg := [(5, false), (6, false), (7, true), (8, false)] }) (fun s => s.mon.conv = none ∧
      4 ≤ s.mon.urg.length) ∧
    At (State.reset.put [(F.MON_BIAS_CTL_LOOP_EN, 3, 1)]) (fun s => s.cf F.MON_BIAS_CTL_LOOP_EN (3 : Fin 16) = 1) ∧
    At ((tMon fun m => { m with conv := some tConv }).put [(F.MON_IN_CFG_REF, 1, 1)]) (fun s => s.mon.extSet = true ∧
      s.mon.conv = some tConv ∧ s.cf F.MON_IN_CFG_REF tConv.input = 1) ∧
    At State.reset (fun s => s.mon.extSet = false) := by decide +kernel

/-- CALIBRATE of an instance. -/
def tCal (i : Nat) : ExecCmd := tCmd 0x010A [(16, 1, i)]
/-- Instance 8 (bias 0) changed. -/
def tCali (f : CalInst → CalInst) : State := State.reset.modCal 8 f

theorem witness_CalibrationRuns :
    At ((State.reset.modRxc .A fun r => { r with st := .locked }).runs (tCal 2)) (fun s =>
      s.calRefusal ((2 : Fin 32) : Nat) true = 0 ∧ s.running .PF0 0 0x010A = some (tCal 2) ∧
      s.calRefusal (byteAt (tCal 2).desc 16) true = 0) ∧
    At (State.reset.runs (tCal 30)) (fun s => s.calRefusal ((31 : Fin 32) : Nat) true ≠ 0 ∧
      s.running .PF0 0 0x010A = some (tCal 30) ∧ s.calRefusal (byteAt (tCal 30).desc 16) true ≠ 0 ∧
      s.calPass (8 : Fin 24) = false ∧ (s.cali (6 : Fin 24)).got.length < 2) ∧
    At (tCali fun c => { c with st := .pass1 }) (fun s => (s.cali (8 : Fin 24)).st = .pass1 ∧
      s.calPass (8 : Fin 24) = true ∧ s.calOk (8 : Fin 24) false = false) ∧
    At (State.reset.modRxc .A fun r => { r with st := .locked }) (fun s => s.calOk (2 : Fin 24) false = true) ∧
    At (tCali fun c => { c with st := .pass2, pass1 := [5] }) (fun s => (s.cali (8 : Fin 24)).st = .pass2 ∧
      (∀ e ∈ (calFields 8).zipIdx, ((s.cali 8).pass1.getD e.2 0 - (s.calVals 8 [7]).getD e.2 0).natAbs ≤ e.1.2.1) ∧
      ¬∀ e ∈ (calFields 8).zipIdx, ((s.cali 8).pass1.getD e.2 0 - (s.calVals 8 [900000]).getD e.2 0).natAbs ≤ e.1.2.1) ∧
    At (tCali fun c => { c with st := .ramp, rampMs := 1, t := 99, v1 := [70000] }) (fun s =>
      (s.cali (8 : Fin 24)).st = .ramp ∧ (s.cali 8).rampMs * 100 ≤ (s.cali 8).t + 1 ∧ 8 ≤ (8 : Fin 24).val) ∧
    At (tCali fun c => { c with st := .ramp, rampMs := 1, t := 98, v1 := [70000] }) (fun s =>
      (s.cali (8 : Fin 24)).st = .ramp ∧ (s.cali 8).t + 1 < (s.cali 8).rampMs * 100) := by decide +kernel

/-- Memory 1 changed. -/
def tMem (f : MemSt → MemSt) : State := State.reset.modMem 1 f

theorem witness_MemoryIntegrity :
    At State.reset (fun s => s.mem.starch = false ∧ s.poisoned (1 : Fin 117) 5 = false ∧
      agetD (s.memo (1 : Fin 117)).errs 5 0 = 0) ∧
    At { State.reset with mem := { State.reset.mem with starch := true } } (fun s => s.mem.starch = true) ∧
    At (tMem fun m => { m with reread := [5] }) (fun s => (s.memo (1 : Fin 117)).reread.contains 5 = true ∧
      agetD (s.memo (1 : Fin 117)).errs 5 0 ≠ 2 ∧ (s.memo (1 : Fin 117)).worn = false ∧
      (s.memo (1 : Fin 117)).copying.contains (5 / 16) = false) ∧
    At (tMem fun m => { m with reread := [5], errs := [(5, 2)] }) (fun s =>
      (s.memo (1 : Fin 117)).reread.contains 5 = true ∧ agetD (s.memo (1 : Fin 117)).errs 5 0 = 2) ∧
    At State.reset (fun s => (s.memo (1 : Fin 117)).reread.contains 5 = false ∧
      (s.memGolden (8 : Fin 117) = false ∨ s.poisoned (8 : Fin 117) 5 = false)) ∧
    At (tMem fun m => { m with copying := [0] }) (fun s => (s.memo (1 : Fin 117)).copying.contains 0 = true) ∧
    At (State.reset.modMem 8 fun m => { m with poison := [(5, 0)] }) (fun s => s.memGolden (8 : Fin 117) = true ∧
      s.poisoned (8 : Fin 117) 5 = true ∧ s.cf F.MEM_INJ_ARM 0 = 0) ∧
    At { State.reset.put [(F.MEM_CTL_CE_THR, 0, 3)] with
        io := { State.reset.io with cnt := [(⟨.MEM_MEM_CE, 1⟩, 10)] } } (fun s => s.cf F.MEM_CTL_CE_THR 0 ≠ 0 ∧
      s.cf F.MEM_CTL_CE_THR 0 ≤ s.cnt .MEM_MEM_CE (1 : Fin 117) - (s.memo (1 : Fin 117)).ce0) := by decide +kernel

/-- Port 0 up, region 3 on it in a state with a number of poisoned lines. -/
def tCxl (st : RgnSt) (n : Nat) : State :=
  { State.reset.put [(F.CXL_PORT_CTL_EN, 0, 1), (F.CXL_RGN_SIZE_SIZE, 3, 8), (F.CXL_RGN_CTL_VALID, 3, 1)] with
    cxl := ⟨[(0, ⟨true, 16, 4, 1024⟩)], [(3, ⟨st, 0, n, none⟩)]⟩ }

theorem witness_CxlPortsAndRegions :
    At (State.reset.put [(F.CXL_PORT_CTL_EN, 0, 1)]) (fun s => s.cf F.CXL_PORT_CTL_EN (0 : Fin 2) ≠ 0 ∧
      (s.cxlPort (0 : Fin 2)).up = false ∧ 15 < 16 ∧ (16 : Fin 17) ≠ 0 ∧ (4 : Fin 5) ≠ 0) ∧
    At (tCxl .ready 9) (fun s => (s.cxlPort (0 : Fin 2)).up = true ∧ (s.rgn (3 : Fin 32)).st = .ready ∧
      s.rgnOn (3 : Fin 32) 0 = true ∧
      [(0, 2 ^ 60)].any (fun q => decide (q.1 < (s.rgnDpa 3 0).2) && decide ((s.rgnDpa 3 0).1 < q.2)) = true ∧
      s.cf F.CXL_CTL_POISON_MAX 0 ≠ 0 ∧ (s.rgn (3 : Fin 32)).lines ≤ s.cf F.CXL_CTL_POISON_MAX 0) ∧
    At ((tCxl .ready 9).put [(F.CXL_CTL_POISON_MAX, 0, 3)]) (fun s => (s.rgn (3 : Fin 32)).st = .ready ∧
      s.cf F.CXL_CTL_POISON_MAX 0 < (s.rgn (3 : Fin 32)).lines) ∧
    At (tCxl .starching 0) (fun s => (s.rgn (3 : Fin 32)).st = .starching ∧
      ∀ p : Fin 2, s.rgnOn (3 : Fin 32) p = true → (s.cxlPort p).up = true) := by decide +kernel

/-- PF0's ring 1 enabled with 64 slots, in a state. -/
def tRing (f : CmdRing → CmdRing) : State :=
  (State.reset.withLink.put [(F.HST_RING_CTL_EN, 1, 1), (F.HST_RING_CTL_LOG2SIZE, 1, 6)]).modRing .PF0 1 f

theorem witness_RingControl :
    1 < ringCount .PF0 ∧
    At State.reset (fun s => s.cf F.HST_RING_CTL_EN (ringIdx .PF0 1) = 0 ∧ (s.ring .PF0 1).st = .disabled ∧
      6 ≤ (6 : Fin 32).val ∧ (16 : Fin 32).val ≤ 16 ∧ s.cf F.HST_RING_BASE_LO_ADDR (ringIdx .PF0 1) % 4096 = 0 ∧
      s.cf F.HST_CPL_BASE_LO_ADDR (ringIdx .PF0 1) % 4096 = 0 ∧ (s.ring .PF0 1).st ≠ .running) ∧
    At ((tRing fun r => { r with st := .halted }).raise 0x0104 0 1 [] 0) (fun s =>
      s.cf F.HST_RING_CTL_EN (ringIdx .PF0 1) = 1 ∧ (s.ring .PF0 1).st = .halted ∧ s.stands 0x0104 0 1 0 = true) ∧
    At (tRing fun r => { r with st := .running, prod := 3, cons := 1 }) (fun s => (s.ring .PF0 1).st = .running ∧
      ((65 : Word).toNat + 2 ^ 32 - (s.ring .PF0 1).cons) % 2 ^ 32 ≤ s.ringSize .PF0 1 ∧
      (66 : Word).toNat ≠ (s.ring .PF0 1).prod ∧
      s.ringSize .PF0 1 < ((66 : Word).toNat + 2 ^ 32 - (s.ring .PF0 1).cons) % 2 ^ 32) := by decide +kernel

/-- A NOP descriptor with an ALIVE and its CRC; another with a flipped byte. -/
def tNop (a : Nat) : Bytes :=
  let d := putBytes (List.replicate 64 0) [(0, 2, 1), (2, 2, a)]
  putBytes d [(60, 4, crc32c (d.take 60))]

theorem witness_DescriptorFetch :
    (tNop 7).length = 64 ∧ leAt (tNop 7) 60 4 = crc32c ((tNop 7).take 60) ∧ leAt (tNop 7) 2 2 = 7 ∧
    leAt ((tNop 7).set 20 9) 60 4 ≠ crc32c (((tNop 7).set 20 9).take 60) ∧
    At (tRing fun r => { r with st := .running, prod := 3, cons := 0xFFFFFFFF, alive := 7 }) (fun s => s.io.up = true ∧
      (s.ring .PF0 1).st = .running ∧ (s.ring .PF0 1).reread = false ∧ (s.ring .PF0 1).heldCpl = [] ∧
      (s.ring .PF0 1).exec = none ∧ (s.ring .PF0 1).fetched = [] ∧
      0 < ((s.ring .PF0 1).prod + 2 ^ 32 - (s.ring .PF0 1).cons) % 2 ^ 32 ∧ (s.ring .PF0 1).alive = 7 ∧
      s.descStatus .PF0 1 (tNop 7) = none ∧ (s.descStatus .PF0 1 ((tNop 7).set 0 0xFF)).isSome = true) ∧
    At (tRing fun r => { r with st := .running, prod := 3, alive := 7, reread := true }) (fun s => s.io.up = true ∧
      (s.ring .PF0 1).reread = true ∧ (s.ring .PF0 1).alive = 7 ∧ s.descStatus .PF0 1 (tNop 7) = none ∧
      leAt (tNop 8) 2 2 ≠ (s.ring .PF0 1).alive) := by decide +kernel

/-- A command of 64 bytes of buffer that waits for them. -/
def tBufWait : ExecCmd := ⟨(tCmd 0x0401 []).desc, .wait, false⟩

theorem witness_CommandCompletions :
    At (State.reset.runs (tCmd 1 [])) (fun s => (s.ring .PF0 0).exec = some (tCmd 1 []) ∧ (s.ring .PF0 0).fetched = [] ∧
      s.io.up = false ∧ s.running .PF0 0 0x0001 = some (tCmd 1 [])) ∧
    At (State.reset.withLink.runs (tCmd 1 [(10, 2, 5)])) (fun s => (s.ring .PF0 0).heldCpl = [] ∧ s.io.up = true ∧
      (tCmd 1 [(10, 2, 5)]).accepted = false ∧ leAt (tCmd 1 [(10, 2, 5)]).desc 10 2 ≠ 0xFFFF ∧
      leAt (tCmd 1 [(10, 2, 5)]).desc 10 2 ≠ 0) ∧
    At (State.reset.runs (tCmd 0x0102 [(16, 4, 0x20)])) (fun s =>
      s.running .PF0 0 0x0102 = some (tCmd 0x0102 [(16, 4, 0x20)])) ∧
    At (State.reset.runs (tCmd 0x0004 [(16, 4, 0x7FFF)])) (fun s =>
      s.running .PF0 0 0x0004 = some (tCmd 0x0004 [(16, 4, 0x7FFF)]) ∧
      bit (leAt (tCmd 0x0004 [(16, 4, 0x7FFF)]).desc 16 4) (14 : Fin 15) = true) ∧
    At (State.reset.withLink.runs tBufWait) (fun s => (s.ring .PF0 0).exec = some tBufWait ∧ tBufWait.buf = .wait ∧ s.io.up = true ∧
      ReadOut.check (.data (List.replicate 64 3 ++ leBytes 4 (crc32c (List.replicate 64 3)))) ((bufLen tBufWait.desc).getD 0) = 0 ∧
      ReadOut.check .error ((bufLen tBufWait.desc).getD 0) ≠ 0 ∧ descOp tBufWait.desc ≠ 0x0403) := by decide +kernel

/-- A held record; the state of a ring with one record not signalled. -/
def tHeld : HeldEv := ⟨none, ⟨0x1306, 0, 0, 0, [], 5⟩, .reserve⟩
def tEv : EvRing := ⟨3, 1, 1, 0, 0⟩
/-- A record held for event ring 0, which is enabled with 64 slots. -/
def tEvr (f : Io → Io) : State :=
  let s := State.reset.withLink.put [(F.EVT_EVR_CTL_EN, 0, 1), (F.EVT_EVR_CTL_LOG2SIZE, 0, 6)]
  { s with io := f s.io }

theorem witness_EventRings :
    evrIdx .PF0 0 = some 0 ∧
    bits (0x86000000 : Word) 31 31 = 1 ∧ 6 ≤ bits (0x86000000 : Word) 28 24 ∧ bits (0x86000000 : Word) 28 24 ≤ 16 ∧
    At State.reset (fun s => s.cf F.EVT_EVR_BASE_LO_ADDR 0 % 4096 = 0 ∧ s.io.heldEv = [] ∧
      (∀ j : Nat, j < 6 → (s.io.evring j).lost = 0) ∧ s.cf F.EVT_MSG_BASE_LO_ADDR 0 % 4096 = 0) ∧
    At (tEvr fun i => { i with heldEv := [tHeld] }) (fun s => s.io.heldEv = [tHeld] ∧
      (∀ j : Nat, j < 6 → (s.io.evring j).lost = 0) ∧ tHeld.ring s.rd = 0 ∧ s.io.canPost s.rd 0 = true) ∧
    At (tEvr fun i => { i with evr := [(0, tEv)] }) (fun s => 0 < (s.io.evring 0).unsig) := by decide +kernel

theorem witness_LinkAndFunctionResets :
    At State.reset (fun s => s.io.perst = false ∧ fnReg .PF0 ⟨.HST_RING_CTL, 1⟩ = true ∧ fnReg .PF0 ⟨.GLB_ID, 0⟩ = false ∧
      fnReg .PF1 ⟨.HST_RING_CTL, 65⟩ = true ∧ fnReg .PF1 ⟨.GLB_ID, 0⟩ = false) := by decide +kernel

/-! ### Witnesses: boot, identity, power, the whole block -/

/-- Boot state changed. -/
def tBoot (f : Boot → Boot) : State := State.reset.modBoot f
/-- An image of a security number from a source. -/
def tImg (n : Nat) : FwImg := ⟨n, 5, 1, [1], n % 3⟩
/-- FW_DOWNLOAD to a slot; FW_ACTIVATE of an operation. -/
def tDown (slot : Nat) : ExecCmd := tCmd 0x0403 [(16, 1, slot), (20, 4, 8)] (some [1, 2, 3, 4])
def tAct (op : Nat) : ExecCmd := tCmd 0x0404 [(16, 1, op)]

theorem witness_BootAndFirmware :
    At (tBoot fun b => { b with st := 2 }) (fun s => s.boot.st = 2 ∧ s.boot.hostBoot = false ∧ s.boot.tried = []) ∧
    At (tBoot fun b => { b with st := 2, tried := [1] }) (fun s => s.boot.st = 2 ∧ s.boot.hostBoot = false ∧
      s.boot.tried = [1]) ∧
    At (tBoot fun b => { b with st := 1 }) (fun s => s.boot.st = 1) ∧
    At (tBoot fun b => { b with st := 2, hostBoot := true }) (fun s => s.boot.st = 2 ∧ s.boot.hostBoot = true) ∧
    At (tBoot fun b => { b with mpUp := true, st := 3 }) (fun s => s.boot.mpUp = true) ∧
    At (tBoot fun b => { b with st := 5 }) (fun s => s.boot.mpUp = false ∧ s.boot.st = 5 ∧ s.boot.activating = false) ∧
    At (tBoot fun b => { b with st := 3, running := some (tImg 1), activating := true, idState := 2 }) (fun s =>
      s.boot.running = some (tImg 1) ∧ s.boot.mpUp = false ∧ s.boot.st = 3 ∧ s.boot.idState = 2) ∧
    At (State.reset.runs (tDown 0)) (fun s => s.running .PF0 0 0x0403 = some (tDown 0) ∧ byteAt (tDown 0).desc 16 = 0) ∧
    At ((tBoot fun b => { b with running := some (tImg 1) }).runs (tDown 2)) (fun s =>
      s.running .PF0 0 0x0403 = some (tDown 2) ∧ s.boot.running = some (tImg 1) ∧
      byteAt (tDown 2).desc 16 = (tImg 1).src + 1 ∧ byteAt (tDown 1).desc 16 ≠ 0 ∧
      byteAt (tDown 1).desc 16 ≠ (tImg 1).src + 1) ∧
    At (tBoot fun b => { b with flash := 1, flashImg := some (tImg 3) }) (fun s => s.boot.flash = 1) := by decide +kernel

theorem witness_BootAndFirmware_activation :
    At (State.reset.runs (tAct 0)) (fun s => s.running .PF0 0 0x0404 = some (tAct 0) ∧ byteAt (tAct 0).desc 16 = 0 ∧
      s.boot.staged = none) ∧
    At ((tBoot fun b => { b with staged := some (tImg 3) }).runs (tAct 0)) (fun s =>
      s.running .PF0 0 0x0404 = some (tAct 0) ∧ byteAt (tAct 0).desc 16 = 0 ∧ s.boot.staged.isSome = true ∧
      s.actBusy = false) ∧
    At (((tBoot fun b => { b with staged := some (tImg 3) }).modPlan .A fun p => { p with prop := some [1] }).runs (tAct 0))
      (fun s => s.running .PF0 0 0x0404 = some (tAct 0) ∧ s.actBusy = true ∧ byteAt (tAct 0).desc 17 = 0) ∧
    At ((tBoot fun b => { b with running := some (tImg 1) }).runs (tAct 1)) (fun s =>
      s.running .PF0 0 0x0404 = some (tAct 1) ∧ byteAt (tAct 1).desc 16 = 1 ∧ s.boot.running = some (tImg 1) ∧
      s.boot.otpSvn < (tImg 1).svn) ∧
    At (tBoot fun b => { b with activating := true, st := 5, staged := some (tImg 3), prev := some (tImg 1) }) (fun s =>
      s.boot.activating = true ∧ s.boot.st = 5 ∧ s.boot.staged = some (tImg 3) ∧ s.boot.prev = some (tImg 1)) ∧
    At (tBoot fun b => { b with activating := true, st := 3, prev := some (tImg 1) }) (fun s =>
      s.boot.activating = true ∧ s.boot.st = 3 ∧ s.boot.mpUp = false ∧ s.boot.reverted = none ∧
      s.boot.prev = some (tImg 1)) ∧
    At (tBoot fun b => { b with otpTarget := some (3, [0]) }) (fun s => s.boot.otpTarget = some (3, [0])) := by
  decide +kernel

/-- ATTEST. -/
def tAttest : ExecCmd := tCmd 0x0405 [(16, 4, 0x1234)]
/-- Starch has ended; identity in a state after a number of tries. -/
def tIdent (n tries : Nat) : State :=
  { (tBoot fun b => { b with idState := n, idTries := tries, mpUp := true }) with
    mem := { State.reset.mem with starch := true } }

theorem witness_IdentityAndDebug :
    At (tIdent 0 1) (fun s => s.boot.idState = 0 ∧ s.mem.starch = true ∧ s.boot.idTries < 2) ∧
    At (tIdent 0 2) (fun s => s.boot.idState = 0 ∧ s.mem.starch = true ∧ 2 ≤ s.boot.idTries ∧ s.boot.mpUp = true) ∧
    At (tBoot fun b => { b with cfgPending := true, cfgLast := 77 }) (fun s => s.boot.cfgPending = true) ∧
    At ((tIdent 1 0).runs tAttest) (fun s => s.running .PF0 0 0x0405 = some tAttest ∧ s.boot.attBusy = none ∧
      s.boot.idState = 1) ∧
    At ((tIdent 2 3).runs tAttest) (fun s => s.running .PF0 0 0x0405 = some tAttest ∧ s.boot.attBusy = none ∧
      s.boot.idState ≠ 1) ∧
    At ((tBoot fun b => { b with attBusy := some (.PF1, 0, [4]) }).runs tAttest) (fun s =>
      s.running .PF0 0 0x0405 = some tAttest ∧ s.boot.attBusy = some (.PF1, 0, [4]) ∧ s.attWaits .PF1 0 = false) ∧
    At State.reset (fun s => s.boot.dbgChal = []) ∧
    At (tBoot fun b => { b with dbgChal := List.replicate 32 1 }) (fun s => s.boot.dbgChal ≠ []) := by decide +kernel

/-- The System state changed, SHED at 110 °C and shedding enabled. -/
def tSys (f : Sys → Sys) : State := (State.reset.put [(F.GLB_THERM_CTL_SHED_EN, 0, 1), (F.GLB_THERM_CTL_SHED, 0, 110)]).modSys f

theorem witness_PowerAndHeat :
    At State.reset (fun s => s.boot.otpTarget = none ∧ s.sys.warm = false) ∧
    At (tSys fun y => { y with warm := true }) (fun s => s.sys.warm = true) ∧
    At (tSys id) (fun s => s.warnAt ≤ max (max 124 0) (max 0 0) ∧ s.shedAt ≤ 124 ∧ s.cf F.GLB_THERM_CTL_SHED_EN 0 = 1 ∧
      s.sys.shedding = false) ∧
    At (tSys fun y => { y with tj := 115, shedding := true }) (fun s => s.sys.shedding = true ∧ s.shedAt ≤ s.sys.tj ∧
      s.sys.shed.contains .aux = false) ∧
    At (tSys fun y => { y with tj := 115, shedding := true, shed := [.aux] }) (fun s => s.sys.shedding = true ∧
      s.shedAt ≤ s.sys.tj ∧ s.sys.shed.contains .aux = true ∧ s.shedNext = none ∧
      s.sys.shed.contains .passCap = false) ∧
    At (((tSys fun y => { y with tj := 115, shedding := true, shed := [.aux] }).putA
        [(F.CAR_PRESS_CTL_STEPS, 4)]).modFe .A fun f => { f with set := ⟨[1, 2, 3, 4], [0, 0, 0, 0], [0, 0, 0, 0], [0, 0, 0, 0]⟩ }) (fun s =>
      s.shedNext.isSome = true ∧ s.sys.shed.contains .aux = true) ∧
    At (tSys fun y => { y with tj := 90, shedding := true, shed := [.aux], coolShed := 10000 }) (fun s =>
      s.sys.shedding = true ∧ s.sys.tj < s.shedAt ∧ 10000 ≤ s.sys.coolShed ∧ s.sys.shed.tail = []) ∧
    At (tSys fun y => { y with tj := 90, shedding := true, shed := [.passCap, .aux], coolShed := 10000 }) (fun s =>
      s.sys.shed.tail ≠ []) ∧
    At (tBoot fun b => { b with mpUp := true }) (fun s => s.boot.mpUp = true) := by decide +kernel

theorem witness_EveryCommandCompletes :
    (State.reset.modSys fun y => { y with held := true }).sys.held = true ∧ State.reset.sys.held = false ∧
    State.reset.pending = [] ∧ (∀ n, Instr.nop .PF0 0 ≠ .powerOnReset n) ∧ Instr.nop .PF0 0 ≠ .porstRelease ∧
    Instr.nop .PF0 0 ≠ .pfail ∧ Instr.nop .PF0 0 ≠ .pfailRelease ∧ (∀ b, Instr.nop .PF0 0 ≠ .perst b) := by
  refine ⟨by decide +kernel, by decide +kernel, by decide +kernel, ?_, ?_, ?_, ?_, ?_⟩ <;> simp

theorem witness_CellsStayCanonical : State.reset.cellsOk ∧ step State.reset = .next State.reset.idle := by
  exact ⟨rfl, rfl⟩

theorem witness_StepRunsFrontCommand :
    { State.reset with pending := [Instr.nop .PF0 0, .porstRelease] }.pending = Instr.nop .PF0 0 :: [.porstRelease] := rfl

end Sys2Proof.Machine
end

section
/-! PROOF. Reads of device time (R12, R502, R504, R515): what a read of one or two words at a register's offset is, what a
read of a pair's registers latches and returns, and the statement about device time. -/

namespace Sys2Proof.Machine

variable (s : State) (who : Agent)

/-! ### Reads of whole words (R502) -/

theorem wordN_toNat (n : Nat) : (wordN n).toNat = n % 2 ^ 32 := BitVec.toNat_ofNat n 32

/-- A read of one aligned word returns what that word shows. -/
theorem State.read_word {off : Nat} (h : off % 4 = 0) : s.read who off 4 =
    (s.read32 who off).1.emit (.readData who off (s.read32 who off).2.1.toNat (s.read32 who off).2.2) := by
  have hlt := (s.read32 who off).2.1.isLt
  simp [State.read, State.readWords, wordsNat, h, show off / 4 * 4 = off by omega, Nat.mod_eq_of_lt hlt]

/-- A read of two aligned words returns the lower word, then the higher in the state that the first read leaves. -/
theorem State.read_two_words {off : Nat} (h : off % 4 = 0) : s.read who off 8 =
    ((s.read32 who off).1.read32 who (off + 4)).1.emit (.readData who off
      ((s.read32 who off).2.1.toNat + 2 ^ 32 * ((s.read32 who off).1.read32 who (off + 4)).2.1.toNat)
      ((s.read32 who off).2.2 || ((s.read32 who off).1.read32 who (off + 4)).2.2)) := by
  have hlo := (s.read32 who off).2.1.isLt
  have hhi := ((s.read32 who off).1.read32 who (off + 4)).2.1.isLt
  have hlt : (s.read32 who off).2.1.toNat +
      4294967296 * ((s.read32 who off).1.read32 who (off + 4)).2.1.toNat < 18446744073709551616 := by omega
  simp [State.read, State.readWords, wordsNat, h, show off / 4 * 4 = off by omega, Nat.mod_eq_of_lt hlt]

/-- A 32-bit read at an offset that names a register is a read of the register. -/
theorem State.read32_regAt {off : Nat} {k : RegKey} (h : regAt who off = some k) :
    s.read32 who off = ((s.readReg who k).1, (s.readReg who k).2, false) := by
  rw [regAt, Option.ite_none_right_eq_some] at h
  obtain ⟨⟨_, hwin, hpage⟩, hk⟩ := h
  simp [State.read32, hwin, show ¬(0x900000 ≤ off ∧ off < 0x901000) by omega, hk]

theorem regAt_aligned {off : Nat} {k : RegKey} (h : regAt who off = some k) : off % 4 = 0 := by
  rw [regAt, Option.ite_none_right_eq_some] at h
  exact h.1.1

/-- A read of one word at a register's offset. -/
theorem State.read_regAt {off : Nat} {k : RegKey} (h : regAt who off = some k) : s.read who off 4 =
    (s.readReg who k).1.emit (.readData who off (s.readReg who k).2.toNat false) := by
  rw [State.read_word s who (regAt_aligned who h), State.read32_regAt s who h]

/-- A 64-bit read at the offset of a pair of registers. -/
theorem State.read_regAt_pair {off : Nat} {lo hi : RegKey} (hlo : regAt who off = some lo)
    (hhi : regAt who (off + 4) = some hi) : s.read who off 8 =
    ((s.readReg who lo).1.readReg who hi).1.emit (.readData who off
      ((s.readReg who lo).2.toNat + 2 ^ 32 * ((s.readReg who lo).1.readReg who hi).2.toNat) false) := by
  simp only [State.read_two_words s who (regAt_aligned who hlo), State.read32_regAt _ who hlo,
    State.read32_regAt _ who hhi, Bool.or_false]

/-- A read of the counter page is a read at an offset of the page. -/
theorem State.read_page {o : Nat} (halign : o % 4 = 0) (hpage : o < 0x1000) : s.read who (0x900000 + o) 4 =
    (s.readPage o).1.emit (.readData who (0x900000 + o) (s.readPage o).2.toNat false) := by
  have hwin : winOf (0x900000 + o) = none := by
    rw [winOf, if_neg (by omega), if_neg (by omega)]
  rw [State.read_word s who (by omega)]
  simp only [State.read32, hwin, if_pos (show 0x900000 ≤ 0x900000 + o ∧ 0x900000 + o < 0x901000 by omega),
    Nat.add_sub_cancel_left]

/-! ### Latches (R504) -/

theorem State.latched_toNat (k : RegKey) : (s.latched who k).toNat = agetD s.io.latch (who, k) 0 % 2 ^ 32 :=
  wordN_toNat _

theorem State.latched_latch (k : RegKey) (v : Nat) : (s.latch who k v).latched who k = wordN v := by
  simp [State.latched, State.latch]

theorem State.latched_latch_ne {j k : RegKey} (v : Nat) (h : j ≠ k) :
    (s.latch who k v).latched who j = s.latched who j := by
  simp only [State.latched, State.latch]
  rw [agetD_aset_ne _ _ _ _ _ (by simp [h])]

/-- A read of a pair's higher register returns the reader's latch, where no check unit's queue delays it. -/
theorem State.readReg_hi {k : RegKey} (hhi : (loOf k.reg).isSome) (hchk : k.reg.chkWaits = false) :
    s.readReg who k = (s, s.latched who k) := by
  have hsnap : k.reg ≠ .SNAP := by
    intro e
    simp [e, loOf] at hhi
  simp [State.readReg, hsnap, hchk, hhi]

/-! ### Device time (R12) -/

theorem State.ns_lt : s.ns < 2 ^ 64 := Nat.mod_lt _ (Nat.two_pow_pos 64)

/-- The latches that a read of device time's low word sets for its reader: the high word and the fraction of now. -/
def State.latchDtime : State :=
  (s.latch who ⟨.GLB_DTIME_HI, 0⟩ (s.ns / 2 ^ 32)).latch who ⟨.GLB_DTIME_FRAC, 0⟩ (s.sys.dtime % 65536)

theorem State.latchHi_dtimeLo : s.latchHi who ⟨.GLB_DTIME_LO, 0⟩ s.ns = s.latchDtime who := by
  have hhi : s.ns / 2 ^ 32 % 2 ^ 32 = s.ns / 2 ^ 32 := Nat.mod_eq_of_lt (by have := s.ns_lt; omega)
  simp only [State.latchHi, State.each, hiOf, List.foldl, hhi, State.latchDtime]
  rfl

/-- The high word that a read of the low word latched is the one read next. -/
theorem State.latched_latchDtime_hi :
    (s.latchDtime who).latched who ⟨.GLB_DTIME_HI, 0⟩ = wordN (s.ns / 2 ^ 32) := by
  rw [State.latchDtime, State.latched_latch_ne _ _ _ (by decide), State.latched_latch]

theorem State.readReg_dtimeLo : s.readReg who ⟨.GLB_DTIME_LO, 0⟩ = (s.latchDtime who, wordN s.ns) := by
  rw [← State.latchHi_dtimeLo]
  rfl

theorem State.readReg_dtimeFrac : s.readReg who ⟨.GLB_DTIME_FRAC, 0⟩ = (s, s.latched who ⟨.GLB_DTIME_FRAC, 0⟩) := rfl

theorem State.readPage_dtimeLo (h : s.cf F.PRF_CTL_USER_EN 0 = 1) :
    s.readPage 0x100 = (s.latchDtime .page, wordN s.ns) := by
  rw [← State.latchHi_dtimeLo]
  simp [State.readPage, h, State.liveNat]

theorem State.readPage_dtimeHi (h : s.cf F.PRF_CTL_USER_EN 0 = 1) :
    s.readPage 0x104 = (s, s.latched .page ⟨.GLB_DTIME_HI, 0⟩) := by
  simp [State.readPage, h]

theorem regAt_dtimeLo : regAt who 0x10 = some ⟨.GLB_DTIME_LO, 0⟩ := by cases who <;> decide
theorem regAt_dtimeHi : regAt who 0x14 = some ⟨.GLB_DTIME_HI, 0⟩ := by cases who <;> decide
theorem regAt_dtimeFrac : regAt who 0x18 = some ⟨.GLB_DTIME_FRAC, 0⟩ := by cases who <;> decide

theorem exec_loCounterRead (off n : Nat) (h : s.sys.held = false) :
    exec (.loCounterRead who off n) s = .next (s.read who off n) := by
  rw [show exec (.loCounterRead who off n) s = execLoCounterRead who off n s from rfl, execLoCounterRead,
    live_running s _ h]

theorem exec_dtimeLoRead (h : s.sys.held = false) (hwho : who ≠ .page) :
    exec (.dtimeLoRead who) s = .next (s.read who 0x10 4) := by
  rw [show exec (.dtimeLoRead who) s = execDtimeLoRead who s from rfl, execDtimeLoRead, live_running s _ h, if_neg hwho]

theorem exec_dtimeLoRead_page (h : s.sys.held = false) :
    exec (.dtimeLoRead .page) s = .next (s.read .page 0x900100 4) := by
  rw [show exec (.dtimeLoRead .page) s = execDtimeLoRead .page s from rfl, execDtimeLoRead, live_running s _ h, if_pos rfl]

/-- The words of a 64-bit read of device time make the whole time. -/
theorem State.read_dtime64 : s.read who 0x10 8 = (s.latchDtime who).emit (.readData who 0x10 s.ns false) := by
  have hns := s.ns_lt
  rw [State.read_regAt_pair s who (regAt_dtimeLo who) (regAt_dtimeHi who), State.readReg_dtimeLo,
    State.readReg_hi _ who rfl rfl, State.latched_latchDtime_hi, wordN_toNat, wordN_toNat,
    show s.ns % 2 ^ 32 + 2 ^ 32 * (s.ns / 2 ^ 32 % 2 ^ 32) = s.ns by omega]

end Sys2Proof.Machine

open Sys2Proof Sys2Proof.Machine

/-- Settles O5: a read of the low word latches the rest of the same instant (`State.readReg_dtimeLo`), and the other reads
return the reader's latch. -/
theorem deviceTimeReads : Obligations.DeviceTimeReads := by
  unfold Obligations.DeviceTimeReads
  constructor
  · intro s who hrun hwho
    refine ⟨?lo, ?whole, ?hi, ?frac⟩
    case lo =>
      rw [exec_dtimeLoRead s who hrun hwho, State.read_regAt s who (regAt_dtimeLo who), State.readReg_dtimeLo, wordN_toNat,
        State.latchDtime]
    case whole =>
      rw [exec_loCounterRead s who _ _ hrun, State.read_dtime64, State.latchDtime]
    case hi =>
      rw [exec_loCounterRead s who _ _ hrun, State.read_regAt s who (regAt_dtimeHi who), State.readReg_hi s who rfl rfl,
        State.latched_toNat]
    case frac =>
      rw [exec_loCounterRead s who _ _ hrun, State.read_regAt s who (regAt_dtimeFrac who), State.readReg_dtimeFrac,
        State.latched_toNat]
  · intro s hrun hen
    refine ⟨?pageLo, ?pageHi⟩
    case pageLo =>
      rw [exec_dtimeLoRead_page s hrun, State.read_page s .page (o := 0x100) rfl (by decide),
        State.readPage_dtimeLo s hen, wordN_toNat, State.latchDtime]
    case pageHi =>
      rw [exec_loCounterRead s .page _ _ hrun, State.read_page s .page (o := 0x104) rfl (by decide),
        State.readPage_dtimeHi s hen, State.latched_toNat]
end

section
/-! PROOF. The line code's intervals (R173 to R175): what the end of 100 ms reports, what the end of 10 ms counts, and the
judgement of a defect from a run of bad and a run of good intervals, which the two share. -/

namespace Sys2Proof.Machine

variable (s : State) (x : Carrier)

/-! ### A defect judged from runs of intervals (R174, R175) -/

/-- Three bad intervals in a row raise the defect; ten good ones, with no such run of bad ones, clear it. -/
def State.judgeRuns (code car bad good : Nat) : State :=
  if 3 ≤ bad then s.raise code car 0 else if 10 ≤ good then s.clear code car 0 else s

theorem State.judgeRuns_raises (code car : Nat) {bad : Nat} (good : Nat) (h : 3 ≤ bad) :
    s.judgeRuns code car bad good = s.raise code car 0 := if_pos h

theorem State.judgeRuns_clears (code car : Nat) {bad good : Nat} (h : bad < 3) (hgood : 10 ≤ good) :
    s.judgeRuns code car bad good = s.clear code car 0 := by
  rw [State.judgeRuns, if_neg (by omega), if_pos hgood]

theorem State.judgeRuns_leaves (code car : Nat) {bad good : Nat} (h : bad < 3) (hgood : good < 10) :
    s.judgeRuns code car bad good = s := by
  rw [State.judgeRuns, if_neg (by omega), if_neg (by omega)]

@[simp] theorem State.judgeRuns_car (code car bad good : Nat) (y : Carrier) :
    (s.judgeRuns code car bad good).car y = s.car y := by
  unfold State.judgeRuns
  split
  · exact State.raise_car ..
  · split
    · exact State.clear_car ..
    · rfl

theorem State.judgeRuns_only (code car bad good : Nat) : s.onlyIn (s.judgeRuns code car bad good) defParts :=
  onlyIn_ite _ (State.raise_only ..) (onlyIn_ite _ (State.clear_only ..) (onlyIn_refl ..))

/-- A change of the line code followed by a judgement stays in the line code, the defects and the records. -/
theorem State.modFec_judgeRuns_only (f : Fec → Fec) (code car bad good : Nat) :
    s.onlyIn ((s.modFec x f).judgeRuns code car bad good) (.fec x :: defParts) :=
  onlyIn_trans (onlyIn_mono (State.modFec_only ..) (by cases x <;> rfl))
    (onlyIn_mono (State.judgeRuns_only ..) (by cases x <;> rfl))

/-! ### The FEC-degraded defect (R174) -/

/-- The run of intervals below the threshold, with one of margin `m`. -/
def Fec.lowRun (thr m : Nat) (f : Fec) : Nat := if sgn 16 m < sgn 16 thr then f.degLow + 1 else 0

/-- The run of intervals at or above the threshold by 16 pinches, with one of margin `m`. -/
def Fec.highRun (thr m : Nat) (f : Fec) : Nat := if sgn 16 thr + 16 ≤ sgn 16 m then f.degHigh + 1 else 0

/-- A threshold or a margin of 0x8000 leaves the defect and its runs alone. -/
theorem State.fecDegraded_unmeasured {m : Nat} (h : s.cfx F.CAR_FEC_THR_DEG_MARGIN x = 0x8000 ∨ m = 0x8000) :
    s.fecDegraded x m = s := if_pos h

/-- Any other margin advances the runs, from which the defect is judged. -/
theorem State.fecDegraded_measured {m : Nat} (h : ¬(s.cfx F.CAR_FEC_THR_DEG_MARGIN x = 0x8000 ∨ m = 0x8000)) :
    s.fecDegraded x m = (s.modFec x fun f => { f with
        degLow := (s.car x).fec.lowRun (s.cfx F.CAR_FEC_THR_DEG_MARGIN x) m
        degHigh := (s.car x).fec.highRun (s.cfx F.CAR_FEC_THR_DEG_MARGIN x) m }).judgeRuns 0x0504 x.ev
      ((s.car x).fec.lowRun (s.cfx F.CAR_FEC_THR_DEG_MARGIN x) m)
      ((s.car x).fec.highRun (s.cfx F.CAR_FEC_THR_DEG_MARGIN x) m) :=
  if_neg h

/-- The evaluation changes nothing of the line code but the two runs. -/
theorem State.fecDegraded_fec (m : Nat) : ∃ low high,
    ((s.fecDegraded x m).car x).fec = { (s.car x).fec with degLow := low, degHigh := high } := by
  by_cases h : s.cfx F.CAR_FEC_THR_DEG_MARGIN x = 0x8000 ∨ m = 0x8000
  · exact ⟨_, _, by rw [State.fecDegraded_unmeasured s x h]⟩
  · exact ⟨_, _, by rw [State.fecDegraded_measured s x h, State.judgeRuns_car, State.modFec_car]⟩

theorem State.fecDegraded_only (m : Nat) : s.onlyIn (s.fecDegraded x m) (.fec x :: defParts) := by
  by_cases h : s.cfx F.CAR_FEC_THR_DEG_MARGIN x = 0x8000 ∨ m = 0x8000
  · rw [State.fecDegraded_unmeasured s x h]
    exact onlyIn_refl ..
  · rw [State.fecDegraded_measured s x h]
    exact State.modFec_judgeRuns_only ..

/-- A low margin after two low ones raises the defect. -/
theorem State.fecDegraded_raises {m : Nat} (hrun : 2 ≤ (s.car x).fec.degLow)
    (hthr : s.cfx F.CAR_FEC_THR_DEG_MARGIN x ≠ 0x8000) (hm : m ≠ 0x8000)
    (hlow : sgn 16 m < sgn 16 (s.cfx F.CAR_FEC_THR_DEG_MARGIN x)) :
    (s.fecDegraded x m).stands 0x0504 x.ev 0 = true := by
  have hthird : 3 ≤ (s.car x).fec.lowRun (s.cfx F.CAR_FEC_THR_DEG_MARGIN x) m := by
    rw [Fec.lowRun, if_pos hlow]
    omega
  rw [State.fecDegraded_measured s x (not_or.mpr ⟨hthr, hm⟩), State.judgeRuns_raises _ _ _ _ hthird, State.raise_stands]

/-! ### The report of 100 ms (R173) -/

/-- The interval was wholly in LOCKED and decoded a bit. -/
def Fec.measures (f : Fec) : Bool := f.whole && f.st == .locked && f.bitsDec != 0

/-- MARGIN of the interval that ends, under `passes` of MAX_PASS. -/
def Fec.newMargin (passes : Nat) (f : Fec) : Nat :=
  if f.measures then fecMargin f.bitsCor f.bitsDec f.actRate passes else 0x8000

/-- The figures of the interval that ends, measured or not, with its margin `m`; the next interval begins. -/
def Fec.report (measured : Bool) (m : Nat) (f : Fec) : Fec :=
  { f with
    ber := if measured then (roundDiv (f.bitsCor * 1000000000) f.bitsDec).toNat else 0xFFFFFFFF
    margin := m
    avgPass := if f.blocks = 0 then 0 else (roundDiv (f.passes * 256) f.blocks).toNat
    bitsDec := 0, bitsCor := 0, blocks := 0, passes := 0, whole := f.st == .locked }

/-- The state after the report, before FEC-degraded is judged. -/
def State.fecReport : State :=
  s.modFec x (Fec.report (s.car x).fec.measures ((s.car x).fec.newMargin (s.maxPass x)))

theorem Fec.measures_of_whole {f : Fec} (hst : f.st = .locked) (hwhole : f.whole = true) (hbits : f.bitsDec ≠ 0) :
    f.measures = true := by
  simp [Fec.measures, hst, hwhole, hbits]

theorem Fec.measures_of_not_whole {f : Fec} (h : f.whole = false) : f.measures = false := by
  simp [Fec.measures, h]

theorem State.fecReport_fec : ((s.fecReport x).car x).fec =
    (s.car x).fec.report (s.car x).fec.measures ((s.car x).fec.newMargin (s.maxPass x)) := by
  rw [State.fecReport, State.modFec_car]

theorem exec_fecInterval (h : s.sys.held = false) : exec (.fecInterval x) s =
    .next ((s.fecReport x).fecDegraded x ((s.car x).fec.newMargin (s.maxPass x))) := by
  rw [show exec (.fecInterval x) s = execFecInterval x s from rfl, execFecInterval, live_running s _ h]
  rfl

/-! ### The uncorrected blocks of 10 ms (R175) -/

/-- The run of bad intervals with this one, which is bad from `n` uncorrected blocks. -/
def Fec.badRun (n : Nat) (f : Fec) : Nat := if n ≤ f.unc10 then f.uncRun + 1 else 0

/-- The run of clean intervals with this one. -/
def Fec.cleanRun (f : Fec) : Nat := if f.unc10 = 0 then f.okRun + 1 else 0

/-- A clean interval is not a bad one, so it ends every run of bad ones. -/
theorem Fec.badRun_of_cleanRun {n : Nat} {f : Fec} (hn : 0 < n) (h : 0 < f.cleanRun) : f.badRun n = 0 := by
  have hclean : f.unc10 = 0 :=
    Decidable.byContradiction fun hne => Nat.lt_irrefl 0 (Nat.lt_of_lt_of_eq h (if_neg hne))
  exact if_neg (by omega)

theorem exec_uncorrectedInterval (h : s.sys.held = false) : exec (.uncorrectedInterval x) s =
    .next ((s.modFec x fun f => { f with
        unc10 := 0
        uncRun := (s.car x).fec.badRun (max 1 (s.cfx F.CAR_FEC_THR_UNC_N x))
        okRun := (s.car x).fec.cleanRun }).judgeRuns 0x0505 x.ev
      ((s.car x).fec.badRun (max 1 (s.cfx F.CAR_FEC_THR_UNC_N x))) (s.car x).fec.cleanRun) := by
  rw [show exec (.uncorrectedInterval x) s = execUncorrectedInterval x s from rfl, execUncorrectedInterval,
    live_running s _ h]
  rfl

end Sys2Proof.Machine

open Sys2Proof Sys2Proof.Machine

/-- Settles O27: the figures of 100 ms are those of `Fec.report`, which the judgement of FEC-degraded leaves alone; the
uncorrected-block defect is judged from `Fec.badRun` and `Fec.cleanRun`. -/
theorem lineCodeIntervals : Obligations.LineCodeIntervals := by
  unfold Obligations.LineCodeIntervals
  intro s x hrun
  constructor
  · obtain ⟨low, high, hfec⟩ := (s.fecReport x).fecDegraded_fec x ((s.car x).fec.newMargin (s.maxPass x))
    rw [State.fecReport_fec] at hfec
    refine ⟨_, exec_fecInterval s x hrun, ?measured, ?unmeasured, ?_⟩
    case measured =>
      intro hst hwhole hbits
      have hmeas := Fec.measures_of_whole hst hwhole hbits
      rw [hfec]
      exact ⟨congrArg _ (if_pos hmeas), if_pos hmeas⟩
    case unmeasured =>
      intro hwhole
      have hmeas := Fec.measures_of_not_whole hwhole
      rw [hfec]
      exact ⟨if_neg (by simp [hmeas]), if_neg (by simp [hmeas])⟩
    rw [hfec]
    refine ⟨rfl, rfl, rfl, ?degraded, ?frame⟩
    case degraded =>
      intro hlow hthr hm hbelow
      exact State.fecDegraded_raises _ x (by rwa [State.fecReport_fec]) (by rwa [State.fecReport, State.modFec_cfx]) hm
        (by rwa [State.fecReport, State.modFec_cfx])
    case frame =>
      exact onlyIn_trans (onlyIn_mono (State.modFec_only ..) (by cases x <;> rfl)) (State.fecDegraded_only ..)
  · refine ⟨_, exec_uncorrectedInterval s x hrun, ?_⟩
    rw [State.judgeRuns_car, State.modFec_car]
    refine ⟨rfl, rfl, rfl, ?raised, ?cleared, ?unmoved, State.modFec_judgeRuns_only ..⟩
    case raised =>
      intro hbad
      rw [State.judgeRuns_raises _ _ _ _ hbad, State.raise_stands]
    case cleared =>
      intro hclean
      have hbad := Fec.badRun_of_cleanRun (n := max 1 (s.cfx F.CAR_FEC_THR_UNC_N x)) (by omega)
        (Nat.lt_of_lt_of_le (by decide) hclean)
      rw [State.judgeRuns_clears _ _ _ (by omega) hclean, State.clear_stands]
    case unmoved =>
      intro hbad hclean
      rw [State.judgeRuns_leaves _ _ _ hbad hclean, State.modFec_stands]
end

section
/-! PROOF. Reads of 64-bit counters (R504 to R506): the registers of a pair, what a read of a counter's lower register
latches, and the latches at power-on reset. -/

namespace Sys2Proof.Machine

/-! ### The registers of a pair -/

/-- A register whose read latches one other is the lower of a pair, and that other is its higher. -/
theorem loOf_of_hiOf {r h : RegId} (hpair : hiOf r = [h]) : loOf h = some r ∧ loOf r = none := by
  unfold hiOf at hpair
  split at hpair
  case h_1 => simp at hpair
  case h_23 => simp at hpair
  all_goals
    obtain rfl := List.singleton_inj.mp hpair
    exact ⟨rfl, rfl⟩

/-- A counter is none of the registers that a check unit's queue delays (R517). -/
theorem RegId.isCnt_not_chkWaits {r : RegId} (hcnt : r.isCnt = true) : r.chkWaits = false := by
  rw [← Bool.not_eq_true]
  intro hwaits
  simp only [RegId.chkWaits, Bool.or_eq_true, beq_iff_eq] at hwaits
  obtain (((rfl | rfl) | rfl) | rfl) | rfl := hwaits <;> exact absurd hcnt (by decide)

/-- A check unit's queue delays both registers of a pair or neither. -/
theorem RegId.chkWaits_of_loOf {r h : RegId} (hlo : loOf h = some r) : h.chkWaits = r.chkWaits := by
  unfold loOf at hlo
  split at hlo <;> cases hlo <;> rfl

/-! ### Reads of a pair's registers (R504, R506) -/

variable (s : State) (who : Agent)

/-- What a read of a pair's lower register latches: the high half of the value, for the higher register. -/
theorem State.latchHi_pair {lo hi : RegKey} (hidx : hi.idx = lo.idx) (hpair : hiOf lo.reg = [hi.reg]) (v : Nat) :
    s.latchHi who lo v = s.latch who hi (v / 2 ^ 32 % 2 ^ 32) := by
  have hfrac : hi.reg ≠ .GLB_DTIME_FRAC := fun hreg => by simpa [hreg, loOf] using (loOf_of_hiOf hpair).1
  rw [State.latchHi, hpair, ← hidx, State.each, List.foldl_cons, List.foldl_nil, if_neg hfrac]

/-- A pair's lower register shows the low half of the value. -/
theorem State.view_lo {k : RegKey} (hlo : loOf k.reg = none) (hhi : hiOf k.reg ≠ []) :
    s.view k = wordN (s.showNat k) := by
  have hnat : k.reg.isNat = true := by simp [RegId.isNat, hhi]
  rw [State.view, hlo]
  exact if_pos hnat

/-- A read of a counter's lower register returns the low half and latches the high half of the same value. -/
theorem State.readReg_cntLo {lo hi : RegKey} (hidx : hi.idx = lo.idx) (hcnt : lo.reg.isCnt = true)
    (hpair : hiOf lo.reg = [hi.reg]) (hsnap : lo.reg ≠ .SNAP) : s.readReg who lo =
    (s.latch who hi (s.showNat lo / 2 ^ 32 % 2 ^ 32), wordN (s.showNat lo)) := by
  have hlo := (loOf_of_hiOf hpair).2
  have hfrac : lo.reg ≠ .GLB_DTIME_FRAC := fun hreg => by simp [hreg, hiOf] at hpair
  rw [← State.latchHi_pair s who hidx hpair, ← State.view_lo s hlo (by simp [hpair])]
  simp [State.readReg, hsnap, RegId.isCnt_not_chkWaits hcnt, hlo, hfrac, hpair]

/-! ### Power-on reset (R543) -/

/-- Power-on reset acts whether or not the block is held. -/
theorem exec_powerOnReset (blown : Nat) : exec (.powerOnReset blown) s = .next (s.powerOn 0 0 blown) := rfl

/-- Power-on reset leaves every reader's latches at zero. -/
theorem State.powerOn_latch (cause rail blown : Nat) (k : RegKey) :
    agetD (s.powerOn cause rail blown).io.latch (who, k) 0 = 0 := agetD_nil _ 0

end Sys2Proof.Machine

open Sys2Proof Sys2Proof.Machine

/-- Settles O4: a read of the lower register is `State.readReg_cntLo`, one of the higher returns the reader's latch
(`State.readReg_hi`), and power-on reset empties the latches. A higher register read without its lower one answers the
latch, as R506 gives it (log 14). -/
theorem counterPairReads : Obligations.CounterPairReads := by
  unfold Obligations.CounterPairReads
  constructor
  · intro s who off lo hi hrun hidx hcnt hpair hsnap
    have hlo := (loOf_of_hiOf hpair).1
    have hwaits := (RegId.chkWaits_of_loOf hlo).trans (RegId.isCnt_not_chkWaits hcnt)
    constructor
    · intro hat
      rw [exec_loCounterRead s who _ _ hrun, State.read_regAt s who hat,
        State.readReg_cntLo s who hidx hcnt hpair hsnap, wordN_toNat]
    · intro hat
      rw [exec_loCounterRead s who _ _ hrun, State.read_regAt s who hat,
        State.readReg_hi s who (Option.isSome_of_eq_some hlo) hwaits, State.latched_toNat]
  · intro s blown who hi
    exact ⟨_, exec_powerOnReset s blown, State.powerOn_latch s who 0 0 blown hi⟩
end
